-- ==== Sys2Proof/Word.lean ====
section
/-! DEFINITION. The word types of the machine and their plainest arithmetic: 32-bit registers (R216), 64-bit
addresses and pairs (R100), bytes. -/

namespace Sys2Proof

/-- A register word. -/
abbrev Word := BitVec 32

/-- A pair, an address, a time (R100). -/
abbrev DWord := BitVec 64

/-- One byte of memory. -/
abbrev Byte := BitVec 8

end Sys2Proof
end

