-- ==== Sys2Proof/Machine/Num.lean ====
section
/-! DEFINITION. Number formats and rounding (R101 to R114): exact values as sign, mantissa and power of two, one
rounding by R106, overflow by R107, integer conversion by R108, the n8 family by R109 to R114, and the elementary
functions of R273 to enough bits for one correct rounding (log 12). -/

namespace Sys2Proof

/-! ## Flags and modes -/

/-- Flag bits of `fst` (R104). -/
def flagIV : Word := 0x01
/-- Division by zero (R104). -/
def flagDZ : Word := 0x02
/-- Overflow (R104). -/
def flagOF : Word := 0x04
/-- Underflow (R104). -/
def flagUF : Word := 0x08
/-- Inexact (R104). -/
def flagNX : Word := 0x10
/-- Saturated (R104). -/
def flagSAT : Word := 0x20
/-- Accumulator at the edge of its range (R104, R122). -/
def flagWRAP : Word := 0x40

/-- Rounding modes (R105). -/
inductive RMode where
  | rne
  | rz
  | rp
  | rd
  | rna
  deriving DecidableEq, Repr

/-- MODE of csr `round` (R105). DESIGN CHOICE: 5 to 7, which only a restored image can hold, round as 4 (log 27). -/
def modeOf (round : Word) : RMode :=
  match (round.extractLsb' 0 3).toNat with
  | 0 => .rne
  | 1 => .rz
  | 2 => .rp
  | 3 => .rd
  | _ => .rna

/-- SAT of csr `round` (R105). -/
def satOf (round : Word) : Bool := round.getLsbD 3

/-! ## Exact values -/

/-- A floating-point datum: a NaN, an infinity, or (-1)^neg * m * 2^e. -/
inductive FVal where
  | nan (sig : Bool)
  | inf (neg : Bool)
  | fin (neg : Bool) (m : Nat) (e : Int)
  deriving DecidableEq, Repr

/-- An IEEE format: exponent bits and trailing significand bits (R101). -/
structure Fmt where
  eb : Nat
  tb : Nat
  deriving DecidableEq, Repr

/-- FP32. -/
def fp32 : Fmt := { eb := 8, tb := 23 }
/-- FP64. -/
def fp64 : Fmt := { eb := 11, tb := 52 }
/-- FP16. -/
def fp16 : Fmt := { eb := 5, tb := 10 }
/-- BF16. -/
def bf16 : Fmt := { eb := 8, tb := 7 }

/-- Bias (R101). -/
def Fmt.bias (f : Fmt) : Int := 2 ^ (f.eb - 1) - 1
/-- The exponent of the subnormal step. -/
def Fmt.qmin (f : Fmt) : Int := 1 - f.bias - f.tb
/-- The exponent field of infinities and NaNs. -/
def Fmt.top (f : Fmt) : Nat := 2 ^ f.eb - 1
/-- The sign in place. -/
def Fmt.sign (f : Fmt) (neg : Bool) : Nat := if neg then 2 ^ (f.eb + f.tb) else 0
/-- The canonical quiet NaN (R102). -/
def Fmt.nan (f : Fmt) : Nat := f.top * 2 ^ f.tb + 2 ^ (f.tb - 1)
/-- An infinity. -/
def Fmt.inf (f : Fmt) (neg : Bool) : Nat := f.sign neg + f.top * 2 ^ f.tb
/-- The largest finite value. -/
def Fmt.max (f : Fmt) (neg : Bool) : Nat := f.sign neg + f.top * 2 ^ f.tb - 1

/-- The datum of a code (R101, R102). -/
def Fmt.read (f : Fmt) (bits : Nat) : FVal :=
  let neg := bits.testBit (f.eb + f.tb)
  let e := bits / 2 ^ f.tb % 2 ^ f.eb
  let t := bits % 2 ^ f.tb
  if e = f.top then (if t = 0 then .inf neg else .nan (!t.testBit (f.tb - 1)))
  else if e = 0 then .fin neg t f.qmin
  else .fin neg (t + 2 ^ f.tb) (f.qmin + (e - 1 : Nat))

/-- m * 2^e as a floor at a finer or coarser exponent. -/
def shiftInt (m : Nat) (k : Int) : Nat := if 0 ≤ k then m * 2 ^ k.toNat else m / 2 ^ (-k).toNat

/-- The exponent of the leading bit of m * 2^e, for m ≠ 0. -/
def msb (m : Nat) (e : Int) : Int := e + Nat.log2 m

/-- Round up to the next magnitude? `r` is what was cut off, of `2^k` (R106). -/
def roundsUp (mode : RMode) (neg : Bool) (n r k : Nat) : Bool :=
  match mode with
  | .rne => 2 * r > 2 ^ k || (2 * r == 2 ^ k && n % 2 == 1)
  | .rz => false
  | .rp => !neg && r != 0
  | .rd => neg && r != 0
  | .rna => 2 * r ≥ 2 ^ k

/-- Rounding to `tb` trailing bits and the step 2^qmin, exponent unbounded above (R106): the rounded magnitude n * 2^q
and whether it is inexact. -/
def roundMag (tb : Nat) (qmin : Int) (mode : RMode) (neg : Bool) (m : Nat) (e : Int) : Nat × Int × Bool :=
  if m = 0 then (0, qmin, false)
  else
    let q := max (msb m e - tb) qmin
    if q ≤ e then (m * 2 ^ (e - q).toNat, q, false)
    else
      let k := (q - e).toNat
      let n := m / 2 ^ k
      let r := m % 2 ^ k
      (if roundsUp mode neg n r k then n + 1 else n, q, r != 0)

/-- Overflow goes to infinity (R107)? -/
def overflowsToInf (mode : RMode) (neg : Bool) : Bool :=
  match mode with
  | .rne => true
  | .rna => true
  | .rz => false
  | .rp => !neg
  | .rd => neg

/-- The code of an in-range magnitude n * 2^q on the format's grid. -/
def Fmt.code (f : Fmt) (neg : Bool) (n : Nat) (q : Int) : Nat :=
  if n = 0 then f.sign neg
  else
    let x := msb n q
    if x < 1 - f.bias then f.sign neg + shiftInt n (q - f.qmin)
    else f.sign neg + (x + f.bias).toNat * 2 ^ f.tb + (shiftInt n (q - (x - f.tb)) - 2 ^ f.tb)

/-- One rounding of an exact finite value with the flags of R104 and the overflow rule of R107; `sat` is the SAT of a
conversion. -/
def Fmt.round (f : Fmt) (mode : RMode) (sat neg : Bool) (m : Nat) (e : Int) : Nat × Word :=
  if m = 0 then (f.sign neg, 0)
  else
    let (n, q, inexact) := roundMag f.tb f.qmin mode neg m e
    if n ≠ 0 ∧ msb n q > f.bias then
      if sat then (f.max neg, flagSAT ||| flagNX)
      else (if overflowsToInf mode neg then f.inf neg else f.max neg, flagOF ||| flagNX)
    else
      (f.code neg n q,
        if inexact then (if msb m e < 1 - f.bias then flagUF ||| flagNX else flagNX) else 0)

/-- The sum of two exact values; the sign of an exact zero is -0 only in RD or of two zeros of sign -, R270. -/
def addExact (mode : RMode) (sa : Bool) (ma : Nat) (ea : Int) (sb : Bool) (mb : Nat) (eb : Int) : Bool × Nat × Int :=
  let e := min ea eb
  let a := ma * 2 ^ (ea - e).toNat
  let b := mb * 2 ^ (eb - e).toNat
  if sa = sb then (sa, a + b, e)
  else if a = b then (mode == .rd, 0, e)
  else if a > b then (sa, a - b, e)
  else (sb, b - a, e)

/-- A value that is not exact, between m * 2^e and (m + 1) * 2^e, put where it rounds alike. -/
def sticky (m : Nat) (exact : Bool) (e : Int) : Nat × Int := (4 * m + (if exact then 0 else 1), e - 2)

/-- a * b + d, fused, with the special cases of R270. -/
def Fmt.fma (f : Fmt) (mode : RMode) (a b d : FVal) : Nat × Word :=
  match a, b, d with
  | .nan true, _, _ => (f.nan, flagIV)
  | _, .nan true, _ => (f.nan, flagIV)
  | _, _, .nan true => (f.nan, flagIV)
  | .inf _, .fin _ 0 _, _ => (f.nan, flagIV)
  | .fin _ 0 _, .inf _, _ => (f.nan, flagIV)
  | .nan _, _, _ => (f.nan, 0)
  | _, .nan _, _ => (f.nan, 0)
  | _, _, .nan _ => (f.nan, 0)
  | .inf s, .inf t, .inf u => if (s != t) = u then (f.inf u, 0) else (f.nan, flagIV)
  | .inf s, .inf t, .fin _ _ _ => (f.inf (s != t), 0)
  | .inf s, .fin t _ _, .inf u => if (s != t) = u then (f.inf u, 0) else (f.nan, flagIV)
  | .inf s, .fin t _ _, .fin _ _ _ => (f.inf (s != t), 0)
  | .fin s _ _, .inf t, .inf u => if (s != t) = u then (f.inf u, 0) else (f.nan, flagIV)
  | .fin s _ _, .inf t, .fin _ _ _ => (f.inf (s != t), 0)
  | .fin _ _ _, .fin _ _ _, .inf u => (f.inf u, 0)
  | .fin s m e, .fin t n g, .fin u o h =>
    let (neg, k, x) := addExact mode (s != t) (m * n) (e + g) u o h
    f.round mode false neg k x

/-- a + b (R269, R270). -/
def Fmt.add (f : Fmt) (mode : RMode) (a b : FVal) : Nat × Word :=
  match a, b with
  | .nan true, _ => (f.nan, flagIV)
  | _, .nan true => (f.nan, flagIV)
  | .nan _, _ => (f.nan, 0)
  | _, .nan _ => (f.nan, 0)
  | .inf s, .inf t => if s = t then (f.inf s, 0) else (f.nan, flagIV)
  | .inf s, .fin _ _ _ => (f.inf s, 0)
  | .fin _ _ _, .inf t => (f.inf t, 0)
  | .fin s m e, .fin t n g =>
    let (neg, k, x) := addExact mode s m e t n g
    f.round mode false neg k x

/-- The value with its sign flipped. -/
def FVal.negate (a : FVal) : FVal :=
  match a with
  | .nan sig => .nan sig
  | .inf s => .inf (!s)
  | .fin s m e => .fin (!s) m e

/-- a * b (R269, R270). -/
def Fmt.mul (f : Fmt) (mode : RMode) (a b : FVal) : Nat × Word :=
  match a, b with
  | .nan true, _ => (f.nan, flagIV)
  | _, .nan true => (f.nan, flagIV)
  | .nan _, _ => (f.nan, 0)
  | _, .nan _ => (f.nan, 0)
  | .inf _, .fin _ 0 _ => (f.nan, flagIV)
  | .fin _ 0 _, .inf _ => (f.nan, flagIV)
  | .inf s, .inf t => (f.inf (s != t), 0)
  | .inf s, .fin t _ _ => (f.inf (s != t), 0)
  | .fin s _ _, .inf t => (f.inf (s != t), 0)
  | .fin s m e, .fin t n g => f.round mode false (s != t) (m * n) (e + g)

/-- The quotient of two magnitudes m / n * 2^e to at least `bits` bits. -/
def quotient (bits m n : Nat) (e : Int) : Nat × Int :=
  let k := bits + Nat.log2 n + 1
  sticky (m * 2 ^ k / n) (m * 2 ^ k % n == 0) (e - k)

/-- a / b (R272). -/
def Fmt.div (f : Fmt) (mode : RMode) (a b : FVal) : Nat × Word :=
  match a, b with
  | .nan true, _ => (f.nan, flagIV)
  | _, .nan true => (f.nan, flagIV)
  | .nan _, _ => (f.nan, 0)
  | _, .nan _ => (f.nan, 0)
  | .inf _, .inf _ => (f.nan, flagIV)
  | .inf s, .fin t _ _ => (f.inf (s != t), 0)
  | .fin s _ _, .inf t => (f.sign (s != t), 0)
  | .fin s m e, .fin t n g =>
    if n = 0 then (if m = 0 then (f.nan, flagIV) else (f.inf (s != t), flagDZ))
    else
      let (k, x) := quotient (f.tb + 4) m n (e - g)
      f.round mode false (s != t) k x

/-- a < b on numbers, signed zeros equal. -/
def FVal.lt (a b : FVal) : Bool :=
  match a, b with
  | .nan _, _ => false
  | _, .nan _ => false
  | .inf s, .inf t => s && !t
  | .inf s, .fin _ _ _ => s
  | .fin _ _ _, .inf t => !t
  | .fin s m e, .fin t n g =>
    let x := min e g
    let i : Int := m * 2 ^ (e - x).toNat
    let j : Int := n * 2 ^ (g - x).toNat
    decide ((if s then -i else i) < (if t then -j else j))

/-- The datum is a NaN. -/
def FVal.isNan (a : FVal) : Bool :=
  match a with
  | .nan _ => true
  | _ => false

/-- The datum is a signalling NaN. -/
def FVal.isSig (a : FVal) : Bool :=
  match a with
  | .nan sig => sig
  | _ => false

/-- The sign of the datum; false for a NaN. -/
def FVal.neg (a : FVal) : Bool :=
  match a with
  | .nan _ => false
  | .inf s => s
  | .fin s _ _ => s

/-- Equal as numbers, signed zeros equal. -/
def FVal.eqv (a b : FVal) : Bool := !a.isNan && !b.isNan && !a.lt b && !b.lt a

/-- Minimum or maximum of two codes (R103): -0 is less than +0. -/
def Fmt.minmax (f : Fmt) (maxi : Bool) (x y : Nat) : Nat × Word :=
  let a := f.read x
  let b := f.read y
  let fl := if a.isSig || b.isSig then flagIV else 0
  if a.isNan then (if b.isNan then f.nan else y, fl)
  else if b.isNan then (x, fl)
  else
    let less := a.lt b || (a.eqv b && a.neg && !b.neg)
    (if less != maxi then x else y, fl)

/-! ## Conversions -/

/-- A finite value narrowed or widened once (R107). -/
def Fmt.convert (f : Fmt) (mode : RMode) (sat : Bool) (x : FVal) : Nat × Word :=
  match x with
  | .nan sig => (f.nan, if sig then flagIV else 0)
  | .inf s => (f.inf s, 0)
  | .fin s m e => f.round mode sat s m e

/-- An integral value of a finite number in a mode, and whether it differs (R106, R108). -/
def integral (mode : RMode) (neg : Bool) (m : Nat) (e : Int) : Nat × Bool :=
  if 0 ≤ e then (m * 2 ^ e.toNat, false)
  else
    let k := (-e).toNat
    let n := m / 2 ^ k
    let r := m % 2 ^ k
    (if roundsUp mode neg n r k then n + 1 else n, r != 0)

/-- Conversion to an integer of range [lo, hi] (R108). -/
def toInteger (lo hi : Int) (mode : RMode) (sat : Bool) (x : FVal) : Int × Word :=
  let out := fun neg : Bool => if sat then (if neg then lo else hi, flagSAT) else (if lo < 0 then lo else 0, flagIV)
  match x with
  | .nan _ => (0, flagIV)
  | .inf s => out s
  | .fin s m e =>
    let (n, inexact) := integral mode s m e
    let v : Int := if s then -n else n
    if lo ≤ v ∧ v ≤ hi then (v, if inexact then flagNX else 0) else out s

/-- An integer as an exact value. -/
def FVal.ofInt (n : Int) : FVal := .fin (n < 0) n.natAbs 0

/-! ## The n8 family -/

/-- A narrow-format descriptor (R109). -/
structure N8 where
  p : Nat
  uns : Bool
  fin : Bool
  sat : Bool
  deriving DecidableEq, Repr

/-- The descriptor byte, none where R109 calls it illegal. -/
def N8.ofByte (b : Nat) : Option N8 :=
  if b / 64 % 4 ≠ 0 ∨ b % 8 = 0 then none
  else some { p := b % 8, uns := b.testBit 3, fin := b.testBit 4, sat := b.testBit 5 }

/-- Trailing width (R110, R111). -/
def N8.t (f : N8) : Nat := f.p - 1
/-- Bias (R110, R111). -/
def N8.bias (f : N8) : Int := 2 ^ ((if f.uns then 9 - f.p else 8 - f.p) - 1)
/-- The exponent of the subnormal step. -/
def N8.qmin (f : N8) : Int := 1 - f.bias - f.t
/-- The NaN code (R110, R111). -/
def N8.nanCode (f : N8) : Nat := if f.uns then 0xFF else 0x80
/-- The code of the largest magnitude in use: infinity in the extended domain, largest finite in the finite one. -/
def N8.lastCode (f : N8) : Nat := if f.uns then 0xFE else 0x7F
/-- The code of the largest finite value (R110, R111). -/
def N8.maxCode (f : N8) : Nat := if f.fin then f.lastCode else f.lastCode - 1
/-- Sign bit of a code. -/
def N8.signBit (f : N8) (neg : Bool) : Nat := if neg && !f.uns then 0x80 else 0

/-- The magnitude of a finite code without its sign (R110, R111). -/
def N8.mag (f : N8) (c : Nat) : Nat × Int :=
  let e := c / 2 ^ f.t
  let t := c % 2 ^ f.t
  if e = 0 then (t, f.qmin) else (t + 2 ^ f.t, f.qmin + (e - 1 : Nat))

/-- The datum of a code (R110, R111); its NaN is quiet (R102). -/
def N8.read (f : N8) (c : Nat) : FVal :=
  if c = f.nanCode then .nan false
  else
    let neg := !f.uns && c.testBit 7
    let k := if f.uns then c else c % 128
    if k = f.lastCode ∧ !f.fin then .inf neg
    else .fin neg (f.mag k).1 (f.mag k).2

/-- m * 2^e exceeds n * 2^g. -/
def magGt (m : Nat) (e : Int) (n : Nat) (g : Int) : Bool :=
  let x := min e g
  m * 2 ^ (e - x).toNat > n * 2 ^ (g - x).toNat

/-- Conversion to an n8 format (R113). -/
def N8.convert (f : N8) (mode : RMode) (roundSat : Bool) (x : FVal) : Nat × Word :=
  let sat := f.sat || roundSat
  match x with
  | .nan sig => (f.nanCode, if sig then flagIV else 0)
  | .inf s =>
    if f.uns ∧ s then (if sat then (0, flagSAT ||| flagNX) else (f.nanCode, flagIV))
    else if !f.fin then (f.signBit s + f.lastCode, 0)
    else if sat then (f.signBit s + f.maxCode, flagSAT)
    else (f.nanCode, flagIV)
  | .fin s m e =>
    if m = 0 then (0, 0)
    else
      let (n, q, inexact) := roundMag f.t f.qmin mode s m e
      let mx := f.mag f.maxCode
      if n = 0 then (0, flagUF ||| flagNX)
      else if f.uns ∧ s then (if sat then (0, flagSAT ||| flagNX) else (f.nanCode, flagIV))
      else if magGt n q mx.1 mx.2 then
        if sat then (f.signBit s + f.maxCode, flagSAT ||| flagNX)
        else if f.fin then (f.nanCode, flagIV ||| flagOF ||| flagNX)
        else (f.signBit s + (if overflowsToInf mode s then f.lastCode else f.maxCode), flagOF ||| flagNX)
      else
        let x := msb n q
        let c :=
          if x < 1 - f.bias then shiftInt n (q - f.qmin)
          else (x + f.bias).toNat * 2 ^ f.t + (shiftInt n (q - (x - f.t)) - 2 ^ f.t)
        (f.signBit s + c,
          if inexact then (if msb m e < 1 - f.bias then flagUF ||| flagNX else flagNX) else 0)

/-! ## Elementary functions (R273)

Fixed point with `fxBits` fraction bits. A result that is not exact is put strictly between two neighbours of the grid
by `sticky`, so that one rounding decides it (log 12). -/

/-- Fraction bits of the fixed-point work. -/
def fxBits : Nat := 1000

/-- floor(pi * 2^1000). -/
def fxPi : Nat :=
  ((((((((0x3243f6a8885) * 2 ^ 240 +
  0xa308d313198a2e03707344a4093822299f31d0082efa98ec4e6c89452821)) * 2 ^ 240 +
  0xe638d01377be5466cf34e90c6cc0ac29b7c97c50dd3f84d5b5b547091792)) * 2 ^ 240 +
  0x16d5d98979fb1bd1310ba698dfb5ac2ffd72dbd01adfb7b8e1afed6a267e)) * 2 ^ 240 +
  0x96ba7c9045f12c7f9924a19947b3916cf70801f2e2858efc16636920d871)

/-- floor(ln 2 * 2^400). -/
def fxLn2 : Nat :=
  ((0xb17217f7d1cf79abc9e3b39803f2f6af40f34326) * 2 ^ 240 +
  0x7298b62d8a0d175b8baafa2be7b876206debac98559552fb4afa1b10ed2e)

/-- Sum of the Taylor terms x^k / k! from term `t` of index `k` on, in fixed point with `bits` fraction bits. -/
def expTerms (bits x : Nat) : Nat → Nat → Nat → Nat
  | 0, _, _ => 0
  | fuel + 1, k, t => t + expTerms bits x fuel (k + 1) (t * x / 2 ^ bits / (k + 1))

/-- Alternating Taylor sum of sine or cosine from term `t` of index `k` on: t - t*x^2/((k+1)(k+2)) + ... -/
def trigTerms (bits x2 : Nat) : Nat → Nat → Nat → Int
  | 0, _, _ => 0
  | fuel + 1, k, t => t - trigTerms bits x2 fuel (k + 2) (t * x2 / 2 ^ bits / ((k + 1) * (k + 2)))

/-- Sum of z^(2k+1)/(2k+1) from the power `t` of index `k` on. -/
def atanhTerms (bits z2 : Nat) : Nat → Nat → Nat → Nat
  | 0, _, _ => 0
  | fuel + 1, k, t => t / (2 * k + 1) + atanhTerms bits z2 fuel (k + 1) (t * z2 / 2 ^ bits)

/-- sin or cos of the magnitude m * 2^e: sign, magnitude, exponent. -/
def trig (cosine : Bool) (m : Nat) (e : Int) : Bool × Nat × Int :=
  let x := shiftInt m (e + fxBits)
  let r := x % (2 * fxPi)
  let quad := 2 * r / fxPi
  let y := r - quad * fxPi / 2
  let y2 := y * y / 2 ^ fxBits
  let q := if cosine then quad + 1 else quad
  let v : Int := if q % 2 = 0 then trigTerms fxBits y2 120 1 y else trigTerms fxBits y2 120 0 (2 ^ fxBits)
  let (n, g) := sticky v.natAbs false (-(fxBits : Int))
  (decide (q % 4 ≥ 2), n, g)

/-- 2^(f / 2^400) for 0 < f < 2^400, as a fixed-point number. -/
def exp2Frac (f : Nat) : Nat := expTerms 400 (f * fxLn2 / 2 ^ 400) 100 0 (2 ^ 400)

/-- log2 of y / 2^400 for 1 ≤ y / 2^400 < 2, in fixed point with 400 fraction bits. -/
def log2Frac (y : Nat) : Nat :=
  let z := (y - 2 ^ 400) * 2 ^ 400 / (y + 2 ^ 400)
  2 * atanhTerms 400 (z * z / 2 ^ 400) 130 0 z * 2 ^ 400 / fxLn2

/-- The elementary functions, fmisc M = 2 to 8 (R273). -/
inductive Fn where
  | rcp | rsq | sqrt | exp2 | log2 | sin | cos
  deriving DecidableEq, Repr

/-- An elementary function of an FP32 datum, correctly rounded (R273). -/
def Fn.eval (fn : Fn) (mode : RMode) (x : FVal) : Nat × Word :=
  let f := fp32
  match x with
  | .nan sig => (f.nan, if sig then flagIV else 0)
  | .inf s =>
    match fn with
    | .rcp => (f.sign s, 0)
    | .rsq => if s then (f.nan, flagIV) else (0, 0)
    | .sqrt => if s then (f.nan, flagIV) else (f.inf false, 0)
    | .exp2 => if s then (0, 0) else (f.inf false, 0)
    | .log2 => if s then (f.nan, flagIV) else (f.inf false, 0)
    | .sin => (f.nan, flagIV)
    | .cos => (f.nan, flagIV)
  | .fin s m e =>
    if m = 0 then
      match fn with
      | .rcp => (f.inf s, flagDZ)
      | .rsq => (f.inf s, flagDZ)
      | .sqrt => (f.sign s, 0)
      | .exp2 => (0x3F800000, 0)
      | .log2 => (f.inf true, flagDZ)
      | .sin => (f.sign s, 0)
      | .cos => (0x3F800000, 0)
    else
      match fn with
      | .rcp => let (k, g) := quotient 40 1 m (-e); f.round mode false s k g
      | .rsq =>
        if s then (f.nan, flagIV)
        else
          let m' := if e % 2 = 0 then m else 2 * m
          let e' := if e % 2 = 0 then e else e - 1
          let q := 2 ^ 120 / m'
          let n := Nat.sqrt q
          let (k, g) := sticky n (n * n * m' == 2 ^ 120) (-60 - e' / 2)
          f.round mode false false k g
      | .sqrt =>
        if s then (f.nan, flagIV)
        else
          let m' := (if e % 2 = 0 then m else 2 * m) * 2 ^ 60
          let e' := (if e % 2 = 0 then e else e - 1) - 60
          let n := Nat.sqrt m'
          let (k, g) := sticky n (n * n == m') (e' / 2)
          f.round mode false false k g
      | .exp2 =>
        if msb m e > 8 then
          (let (k, g) := if s then (1, -400) else (1, (400 : Int)); f.round mode false false k g)
        else
          let x := shiftInt m (e + 400)
          let i : Int := x / 2 ^ 400
          let r := x % 2 ^ 400
          if r = 0 then f.round mode false false 1 (if s then -i else i)
          else
            let (i, r) := if s then (-i - 1, 2 ^ 400 - r) else (i, r)
            let (k, g) := sticky (exp2Frac r) false (i - 400)
            f.round mode false false k g
      | .log2 =>
        if s then (f.nan, flagIV)
        else
          let x := msb m e
          let y := shiftInt m (400 - Nat.log2 m)
          if y = 2 ^ 400 then f.round mode false (x < 0) x.natAbs 0
          else
            let v : Int := x * 2 ^ 400 + log2Frac y
            let w := if v < 0 then (-v).toNat - 1 else v.toNat
            let (k, g) := sticky w false (-400)
            f.round mode false (v < 0) k g
      | .sin => let (n, k, g) := trig false m e; f.round mode false (n != s) k g
      | .cos => let (n, k, g) := trig true m e; f.round mode false n k g

end Sys2Proof
end

