-- ==== Sys2Proof/Machine/Flags.lean ====
section
/-! DEFINITION. What each floating-point and conversion word computes, with the flags it raises (R103, R269 to R281):
functions of bit patterns, the rounding mode and SAT. -/

namespace Sys2Proof

/-- A result of 32 bits with its flags. -/
abbrev WordFl := Word × Word

/-- A code and its flags as a word. -/
def asWord (r : Nat × Word) : WordFl := (BitVec.ofNat 32 r.1, r.2)

/-- FP32 addition (R269). -/
def fpAdd (mode : RMode) (a b : Word) : WordFl := asWord (fp32.add mode (fp32.read a.toNat) (fp32.read b.toNat))
/-- FP32 subtraction (R269). -/
def fpSub (mode : RMode) (a b : Word) : WordFl := asWord (fp32.add mode (fp32.read a.toNat) (fp32.read b.toNat).negate)
/-- FP32 multiplication (R269). -/
def fpMul (mode : RMode) (a b : Word) : WordFl := asWord (fp32.mul mode (fp32.read a.toNat) (fp32.read b.toNat))
/-- FP32 fused multiply-add (R269). -/
def fpFma (mode : RMode) (a b d : Word) : WordFl :=
  asWord (fp32.fma mode (fp32.read a.toNat) (fp32.read b.toNat) (fp32.read d.toNat))
/-- FP32 division (R272). -/
def fpDiv (mode : RMode) (a b : Word) : WordFl := asWord (fp32.div mode (fp32.read a.toNat) (fp32.read b.toNat))
/-- FP32 minimum (R103). -/
def fpMin (a b : Word) : WordFl := asWord (fp32.minmax false a.toNat b.toNat)
/-- FP32 maximum (R103). -/
def fpMax (a b : Word) : WordFl := asWord (fp32.minmax true a.toNat b.toNat)

/-- 1 for true (R247). -/
def truth (b : Bool) : Word := if b then 1 else 0

/-- IV of a compare that accepts quiet NaNs (R103). -/
def quietIV (a b : FVal) : Word := if a.isSig || b.isSig then flagIV else 0
/-- IV of a compare that accepts no NaN (R103). -/
def anyIV (a b : FVal) : Word := if a.isNan || b.isNan then flagIV else 0

/-- fcmp.eq (R103, R271). -/
def fpEq (a b : Word) : WordFl :=
  let x := fp32.read a.toNat
  let y := fp32.read b.toNat
  (truth (x.eqv y), quietIV x y)
/-- fcmp.lt (R103, R271). -/
def fpLt (a b : Word) : WordFl :=
  let x := fp32.read a.toNat
  let y := fp32.read b.toNat
  (truth (x.lt y), anyIV x y)
/-- fcmp.le (R103, R271). -/
def fpLe (a b : Word) : WordFl :=
  let x := fp32.read a.toNat
  let y := fp32.read b.toNat
  (truth (x.lt y || x.eqv y), anyIV x y)
/-- fcmp.un (R103, R271). -/
def fpUn (a b : Word) : WordFl :=
  let x := fp32.read a.toNat
  let y := fp32.read b.toNat
  (truth (x.isNan || y.isNan), quietIV x y)

/-- An elementary function of a word (R273). -/
def fpFn (fn : Fn) (mode : RMode) (a : Word) : WordFl := asWord (fn.eval mode (fp32.read a.toNat))

/-- fabs: [31] cleared (R273). -/
def fpAbs (a : Word) : WordFl := (a &&& 0x7FFFFFFF, 0)
/-- fneg: [31] flipped (R273). -/
def fpNeg (a : Word) : WordFl := (a ^^^ 0x80000000, 0)

/-- The integral value of a in a mode; `nx` says that a change raises NX (fmisc M = 9 to 12, R273). -/
def fpIntegral (mode : RMode) (nx : Bool) (a : Word) : WordFl :=
  match fp32.read a.toNat with
  | .nan sig => asWord (fp32.nan, if sig then flagIV else 0)
  | .inf _ => (a, 0)
  | .fin s m e =>
    let (n, changed) := integral mode s m e
    ((asWord (fp32.round .rz false s n 0)).1, if nx && changed then flagNX else 0)

/-- frac: a - trunc(a) with the sign of a (R273). -/
def fpFrac (a : Word) : WordFl :=
  match fp32.read a.toNat with
  | .nan sig => asWord (fp32.nan, if sig then flagIV else 0)
  | .inf _ => asWord (fp32.nan, flagIV)
  | .fin s m e =>
    if 0 ≤ e then asWord (fp32.sign s, 0) else ((asWord (fp32.round .rz false s (m % 2 ^ (-e).toNat) e)).1, 0)

/-- class (R274). -/
def fpClass (a : Word) : Word :=
  let normal := a.toNat / 2 ^ 23 % 256 ≠ 0
  match fp32.read a.toNat with
  | .nan sig => if sig then 1 else 2
  | .inf s => if s then 4 else 0x200
  | .fin s m _ =>
    if m = 0 then (if s then 0x20 else 0x40)
    else if normal then (if s then 8 else 0x100)
    else if s then 0x10 else 0x80

/-- fscale: a * 2^b (R281). -/
def fpScale (mode : RMode) (a b : Word) : WordFl :=
  match fp32.read a.toNat with
  | .nan sig => asWord (fp32.nan, if sig then flagIV else 0)
  | .inf _ => (a, 0)
  | .fin s m e =>
    let k := max (-1000) (min 1000 b.toInt)
    asWord (fp32.round mode false s m (e + k))


/-- A packed binary operation of a 16-bit format. -/
def packedBin (fmt : Fmt) (op : FVal → FVal → Nat × Word) (a b : Word) : WordFl :=
  let el := fun k : Nat => op (fmt.read (a.toNat / 2 ^ (16 * k) % 2 ^ 16)) (fmt.read (b.toNat / 2 ^ (16 * k) % 2 ^ 16))
  let x := el 0
  let y := el 1
  (BitVec.ofNat 32 (x.1 + 2 ^ 16 * y.1), x.2 ||| y.2)

/-- A packed minimum or maximum (R103). -/
def packedMinmax (fmt : Fmt) (maxi : Bool) (a b : Word) : WordFl :=
  let x := fmt.minmax maxi (a.toNat % 2 ^ 16) (b.toNat % 2 ^ 16)
  let y := fmt.minmax maxi (a.toNat / 2 ^ 16) (b.toNat / 2 ^ 16)
  (BitVec.ofNat 32 (x.1 + 2 ^ 16 * y.1), x.2 ||| y.2)

/-- A packed fused multiply-add. -/
def packedFma (fmt : Fmt) (mode : RMode) (a b d : Word) : WordFl :=
  let el := fun k : Nat =>
    let h := fun w : Word => fmt.read (w.toNat / 2 ^ (16 * k) % 2 ^ 16)
    fmt.fma mode (h a) (h b) (h d)
  let x := el 0
  let y := el 1
  (BitVec.ofNat 32 (x.1 + 2 ^ 16 * y.1), x.2 ||| y.2)

/-- A 64-bit result with its flags. -/
abbrev DWordFl := DWord × Word

/-- A code and its flags as a pair. -/
def asDWord (r : Nat × Word) : DWordFl := (BitVec.ofNat 64 r.1, r.2)

/-- FP64 addition (R275). -/
def dpAdd (mode : RMode) (a b : FVal) : DWordFl := asDWord (fp64.add mode a b)
/-- FP64 multiplication (R275). -/
def dpMul (mode : RMode) (a b : FVal) : DWordFl := asDWord (fp64.mul mode a b)
/-- FP64 fused multiply-add (R275). -/
def dpFma (mode : RMode) (a b d : FVal) : DWordFl := asDWord (fp64.fma mode a b d)

/-! ## cvt (R276, R277) -/

/-- The source value of a cvt entry, read from a register or a pair. -/
def cvtSource (m : Nat) (a : DWord) : FVal :=
  let n := a.toNat
  let w : Word := a.setWidth 32
  match m with
  | 0 => fp16.read (n % 2 ^ 16)
  | 1 => fp16.read (n / 2 ^ 16 % 2 ^ 16)
  | 2 => bf16.read (n % 2 ^ 16)
  | 3 => bf16.read (n / 2 ^ 16 % 2 ^ 16)
  | 9 | 24 | 25 | 26 | 27 | 28 | 29 | 30 | 31 => fp64.read n
  | 10 | 14 => .ofInt w.toInt
  | 11 | 15 => .ofInt w.toNat
  | 12 | 16 => .ofInt a.toInt
  | 13 | 17 => .ofInt n
  | 32 | 34 => fp16.read (n % 2 ^ 16)
  | 33 | 35 => bf16.read (n % 2 ^ 16)
  | _ => fp32.read (n % 2 ^ 32)

/-- An integer result as 64 bits, flags kept. -/
def intBits (r : Int × Word) : DWordFl := (BitVec.ofInt 64 r.1, r.2)

/-- Convert to the destination of a cvt entry (R107, R108, R276, R277). A 32-bit result is in bits [31:0]. -/
def cvtEntry (m : Nat) (mode : RMode) (sat : Bool) (a : DWord) : DWordFl :=
  let x := cvtSource m a
  let pair := fun f : Fmt =>
    let lo := f.convert mode sat (fp32.read (a.toNat % 2 ^ 32))
    let hi := f.convert mode sat (fp32.read (a.toNat / 2 ^ 32))
    (BitVec.ofNat 64 (lo.1 + 2 ^ 16 * hi.1), lo.2 ||| hi.2)
  let s := fun n : Nat => toInteger (-(2 ^ (n - 1))) (2 ^ (n - 1) - 1)
  let z := fun n : Nat => toInteger 0 (2 ^ n - 1)
  match m with
  | 4 | 30 | 35 => asDWord (fp16.convert mode sat x)
  | 5 | 31 | 34 => asDWord (bf16.convert mode sat x)
  | 6 => pair fp16
  | 7 => pair bf16
  | 8 | 14 | 15 | 16 | 17 | 32 | 33 => asDWord (fp64.convert mode sat x)
  | 18 | 24 => intBits (s 32 mode sat x)
  | 19 | 25 => intBits (z 32 mode sat x)
  | 20 | 28 => intBits (s 32 .rz sat x)
  | 21 => intBits (z 32 .rz sat x)
  | 22 | 26 => intBits (s 64 mode sat x)
  | 23 | 27 => intBits (z 64 mode sat x)
  | 29 => intBits (s 64 .rz sat x)
  | 36 => intBits (s 8 mode sat x)
  | 37 => intBits (z 8 mode sat x)
  | 38 => intBits (s 16 mode sat x)
  | 39 => intBits (z 16 mode sat x)
  | _ => asDWord (fp32.convert mode sat x)

/-! ## Narrow pack and unpack (R278 to R280) -/

/-- The narrow control word is legal (R278). -/
def narrowOk (b : Word) : Bool := b.toNat < 2 ^ 16 && (N8.ofByte (b.toNat % 256)).isSome

/-- x * 2^k of an exact datum. -/
def FVal.scale (x : FVal) (k : Int) : FVal :=
  match x with
  | .fin s m e => .fin s m (e + k)
  | y => y

/-- One byte of ncvt.p (R279). -/
def narrowByte (mode : RMode) (sat : Bool) (ctl a : Word) : Nat × Word :=
  match N8.ofByte (ctl.toNat % 256) with
  | none => (0, 0)
  | some f =>
    let sc := ctl.toNat / 256 % 256
    if sc = 0xFF then (f.nanCode, flagIV) else f.convert mode sat ((fp32.read a.toNat).scale (sc - 127))

/-- ncvt.p of four words (R279). -/
def narrowPack (mode : RMode) (sat : Bool) (ctl : Word) (a0 a1 a2 a3 : Word) : WordFl :=
  let b0 := narrowByte mode sat ctl a0
  let b1 := narrowByte mode sat ctl a1
  let b2 := narrowByte mode sat ctl a2
  let b3 := narrowByte mode sat ctl a3
  (BitVec.ofNat 32 (b0.1 + 2 ^ 8 * b1.1 + 2 ^ 16 * b2.1 + 2 ^ 24 * b3.1), b0.2 ||| b1.2 ||| b2.2 ||| b3.2)

/-- Element k of ncvt.u (R280). -/
def narrowUnpack (mode : RMode) (ctl a : Word) (k : Nat) : WordFl :=
  match N8.ofByte (ctl.toNat % 256) with
  | none => (0, 0)
  | some f =>
    let sc := ctl.toNat / 256 % 256
    if sc = 0xFF then asWord (fp32.nan, flagIV)
    else asWord (fp32.convert mode false ((f.read (a.toNat / 2 ^ (8 * k) % 256)).scale (sc - 127)))

end Sys2Proof
end

