-- ==== Sys2Proof/Config.lean ====
section
/-! DEFINITION. What the device fixes (counts, sizes, limits of the spec) and the free values: constants without a
body for what the spec leaves to an implementation. -/

namespace Sys2Proof.Config

/-- Clusters of the device (R2). -/
def clusters : Nat := 8
/-- Cores of a cluster (R2). -/
def coresPerCluster : Nat := 256
/-- Core-side L2 slices (R6). -/
def slices : Nat := 640
/-- Bytes of device memory, 768 GiB (R6, R412). -/
def deviceBytes : Nat := 768 * 1024 * 1024 * 1024
/-- Words of a lane's register file (R11). -/
def laneWords : Nat := 1536
/-- Entries of a core's store buffer (R70). -/
def storeBufferEntries : Nat := 64
/-- The largest skew between two points of the package, in ns (R4): what a release adds to a completion time. -/
def skew : Nat := 2
/-- Interval of R21 after which a record is served one level higher, in ns. -/
def raiseAfter : Nat := 1000000
/-- Interval of R25 after which a cluster reserves a core for a waiting carve, in ns. -/
def carveAfter : Nat := 200000
/-- Training time of a port, in ns (R428). -/
def portTraining : Nat := 50000000
/-- Response time of a transfer, in ns (R196). -/
def xferTimeout : Nat := 10000000
/-- Life of the control key, in ns (R436). -/
def keyLife : Nat := 30000000000
/-- The error window of R440, 24 h in ns. -/
def errorWindow : Nat := 86400000000000

/-- FREE VALUE (R39, log 6). Which of the values allowed by R39 a read of an ABSENT register gives in undef mode:
the n-th such read of the machine takes this position of the list of allowed values. -/
opaque absentPick : Nat → Nat

/-- FREE VALUE (R14, R400, log 9). How many records the hardware queues of a process hold before records spill. -/
opaque hwQueueDepth : Nat

/-- FREE VALUE (R400, log 9). The bytes of a spilled entry, whose layout only the device knows. -/
opaque spillByte : Nat → Byte

/-- FREE VALUE (R429, log 19). The hash of the target device and operand-block address that picks a port. -/
opaque portHash : Nat → Nat → Nat

/-- FREE VALUE (R89, R306, log 20). Whether the host's completer refuses the n-th AtomicOp sent to it. -/
opaque completerRefuses : Nat → Bool

/-- FREE VALUE (R423, R424, log 27). The bytes of the engine-state areas of a saved image, which only the device reads. -/
opaque engineState : Nat → Byte

/-- FREE VALUE (R24, R59, log 62). Which line of a full L1 gives way, by its position in the list of lines held, when the
n-th free value of the machine is used for it. -/
opaque l1Victim : Nat → Nat

/-- FREE VALUE (R377, log 7). Whether the n-th issue from a packet that has been stored to since its line was filled uses
the stored bytes. -/
opaque fetchFresh : Nat → Bool

/-- FREE VALUE (R432, R434, log 28). The fused hash of the RSA public key. -/
opaque fusedRsa : BitVec 384

/-- FREE VALUE (R432, R434, log 28). The fused hash of the SLH-DSA public key. -/
opaque fusedSlh : BitVec 384

/-- FREE VALUE (R433, R434, log 13). The hash of the body of an image whose write has not come to its end. -/
opaque tornSum : BitVec 384

/-- FREE VALUE (R434, log 28). The key of a certificate slot, derived from the device secret and from measurement 1. -/
opaque spdmKey : Nat → BitVec 384 → List Byte

/-- FREE VALUE (R434, log 28). The public key that the certificate of a slot carries, by that key. -/
opaque spdmPublic : List Byte → List Byte

/-- FREE VALUE (R434, log 28). Vexdel's registry identifier, under which the algorithm of slot 1 is announced. -/
opaque vexdelRegistry : List Byte

/-- FREE VALUE (R434, log 28). The signature of a list of measurements by the key of a certificate slot: slot 0
RSASSA-3072, slot 1 SLH-DSA-SHA2-192s. -/
opaque spdmSign : Nat → List Byte → List Nat → List Byte

/-- FREE VALUE (R435, R436, log 29). The seconds left that a read gives while recovery holds the key. -/
opaque recoverySeconds : Nat

/-- FREE VALUE (R397, log 22). The stepping of the part. -/
opaque stepping : Byte

end Sys2Proof.Config
end

