-- ==== Sys2Proof/Syntax.lean ====
section
/-! DEFINITION. The abstract syntax: the six word formats of the instruction word (R208 to R215), the
operands of the device's own operations, and the one inductive `Instr` with a constructor per row of
spec/opcode_table.json. -/

namespace Sys2Proof

/-- RR words (R209): a destination, source `a`, source `b` or the literal. -/
structure RR where
  c : Bool
  u : Bool
  d : BitVec 6
  a : BitVec 6
  b : BitVec 6
  ka : Bool
  kb : Bool
  ea : Bool
  eb : Bool
  l : Bool
  deriving DecidableEq, Repr

/-- RM words (R210) whose minor opcode is fixed by the constructor. -/
structure RM where
  c : Bool
  u : Bool
  d : BitVec 6
  a : BitVec 6
  ka : Bool
  ea : Bool
  l : Bool
  deriving DecidableEq, Repr

/-- RM words whose M field carries a number: a g register, a csr, a queue, a counter class, a segment index
or a user cause (R210, R229). -/
structure RN where
  c : Bool
  u : Bool
  d : BitVec 6
  a : BitVec 6
  m : BitVec 6
  ka : Bool
  ea : Bool
  l : Bool
  deriving DecidableEq, Repr

/-- Fence words (R230): the kind is the constructor's, the scope is a field. -/
structure FN where
  c : Bool
  u : Bool
  scope : BitVec 3
  deriving DecidableEq, Repr

/-- RI words (R211): a register and a signed 10-bit immediate. -/
structure RI where
  c : Bool
  u : Bool
  d : BitVec 6
  a : BitVec 6
  i : BitVec 10
  ka : Bool
  deriving DecidableEq, Repr

/-- BR words (R212): a register field and a signed packet offset. -/
structure BR where
  c : Bool
  u : Bool
  a : BitVec 6
  t : BitVec 17
  deriving DecidableEq, Repr

/-- MEM words (R213). -/
structure MEM where
  c : Bool
  u : Bool
  d : BitVec 6
  a : BitVec 6
  sz : BitVec 3
  o : BitVec 5
  ka : Bool
  ea : Bool
  l : Bool
  deriving DecidableEq, Repr

/-- AT words (R215): the atomic operation AO is the constructor's. -/
structure AT where
  c : Bool
  u : Bool
  d : BitVec 6
  a : BitVec 6
  b : BitVec 6
  sz : Bool
  deriving DecidableEq, Repr

/-- The kinds of access a translation is made for (R412, R418). -/
inductive AccessKind where
  | read
  | write
  | readWrite
  | fetch
  deriving DecidableEq, Repr

/-- The two masters of the device (22_links_boot_management.md). -/
inductive Master where
  | host
  | arpex
  deriving DecidableEq, Repr

/-- A firmware image, byte by byte from its first (R431). -/
structure FlashImage where
  bytes : List (BitVec 8)
  deriving DecidableEq, Repr

/-- A put, putred or get request of a peer device of the pod (R197). -/
structure RemoteRequest where
  job : BitVec 16
  minor : Nat
  rtype : Nat
  va : BitVec 64
  len : Nat
  data : List (BitVec 8)
  deriving DecidableEq, Repr

/-- How a transfer of this device ends, as its target, a switch or a port reports it (R194, R196, R201, R429). -/
inductive XferReply where
  | done (data : List (BitVec 8))
  | noRoute
  | linkDown
  | remoteFault
  | apRefused
  deriving DecidableEq, Repr

/-- A PCIe AtomicOp of the host (R394, R398): operand size in bytes 4, 8 or 16. -/
inductive HostAtomic where
  | fetchAdd (size : Nat) (operand : Nat)
  | swap (size : Nat) (operand : Nat)
  | cas (size : Nat) (compare new : Nat)
  deriving DecidableEq, Repr

/-- Where an uncorrectable event struck (R437, R439); at a link, with the wavelength that a crossbar channel loses. -/
inductive ErrorSite where
  | team (uid : Nat)
  | cleanSector (pa : Nat)
  | dirtySector (pa : Nat)
  | link (wave : Nat)
  deriving DecidableEq, Repr


/-- The instructions and device operations of spec/opcode_table.json, one constructor per row. -/
inductive Instr where
  /-- TEAM_PLACEMENT (R23). -/
  | teamPlacement (cl core : Nat)
  /-- CARVE_RESERVATION (R25). -/
  | carveReservation (cl : Nat)
  /-- STEAL (R22). -/
  | steal (cl : Nat)
  /-- PRIORITY_RAISE (R21). -/
  | priorityRaise (cl rid : Nat)
  /-- TEAM_EXIT (R18). -/
  | teamExit (uid : Nat)
  /-- JOIN_RECORD_PUSH (R17). -/
  | joinRecordPush (jid : Nat)
  /-- GROUP_EXCHANGE (R32). -/
  | groupExchange (uid gid : Nat)
  /-- GROUP_TIMESLICE_EXCHANGE (R33). -/
  | groupTimesliceExchange (uid gid : Nat)
  /-- MEETING_RELEASE (R35). -/
  | meetingRelease (uid gid : Nat)
  /-- PRODUCER_COMPLETION (R39). -/
  | producerCompletion (fid : Nat)
  /-- INSTRUCTION_LINE_FILL (R376). -/
  | instructionLineFill (uid gid : Nat) (va : BitVec 64)
  /-- DEADLINE_EXPIRY (R46). -/
  | deadlineExpiry (uid : Nat)
  /-- DEADLINE_TRAP (R44). -/
  | deadlineTrap (uid gid t : Nat)
  /-- ORPHAN_TRAP (R160). -/
  | orphanTrap (uid gid t : Nat)
  /-- STORE_BUFFER_ENTRY_DRAIN (R70). -/
  | storeBufferEntryDrain (cl core eid : Nat)
  /-- HOME_SLICE_WRITE (R74). -/
  | homeSliceWrite (fid : Nat)
  /-- WRITE_ACKNOWLEDGE (R75). -/
  | writeAcknowledge (fid : Nat)
  /-- ACQR_TARGET_DRAIN (R84). -/
  | acqrTargetDrain (aid : Nat)
  /-- ACQR_REPORT (R84). -/
  | acqrReport (aid : Nat)
  /-- DIRECTORY_SNOOP (R97). -/
  | directorySnoop (pa : Nat)
  /-- WRITEBACK_ACKNOWLEDGE (R97). -/
  | writebackAcknowledge (pa : Nat)
  /-- PAGE_WALK (R414). -/
  | pageWalk (slot : Nat) (va : BitVec 64) (acc : AccessKind)
  /-- LATCH_REMOTE_ARRIVAL (R125). -/
  | latchRemoteArrival (mid : Nat)
  /-- COPY_COMMAND_START (R132). -/
  | copyCommandStart (oid : Nat)
  /-- COPY_PART (R316). -/
  | copyPart (oid part : Nat)
  /-- COMMAND_RETIRE (R314). -/
  | commandRetire (oid : Nat)
  /-- PFR_LINE_RESIDENT (R65). -/
  | pfrLineResident (oid line : Nat)
  /-- SKEIN_REQUEST_ARRIVAL (R137). -/
  | skeinRequestArrival (oid : Nat)
  /-- GATHER_TIMEOUT (R137). -/
  | gatherTimeout (launch sk k : Nat)
  /-- SKEIN_FILL_LAND (R137). -/
  | skeinFillLand (oid : Nat)
  /-- PEER_WORD_ARRIVAL (R143). -/
  | peerWordArrival (uid gid q : Nat)
  /-- MATRIX_STEP (R164). -/
  | matrixStep (oid : Nat)
  /-- MLOOP_OPERAND_FETCH (R173). -/
  | mloopOperandFetch (oid : Nat)
  /-- MDRAIN_WRITE (R177). -/
  | mdrainWrite (oid part : Nat)
  /-- PEER_DRAIN_MERGE (R179). -/
  | peerDrainMerge (oid : Nat)
  /-- MFACT_COLUMN (R182). -/
  | mfactColumn (oid : Nat)
  /-- MTRSM_ROW (R186). -/
  | mtrsmRow (oid : Nat)
  /-- AMSG_ARRIVAL (R192). -/
  | amsgArrival (mid : Nat)
  /-- XFER_ARMED_FIRE (R198). -/
  | xferArmedFire (oid : Nat)
  /-- XFER_REMOTE_REQUEST (R197). -/
  | xferRemoteRequest (req : RemoteRequest)
  /-- XFER_RESPONSE (R194). -/
  | xferResponse (oid : Nat) (resp : XferReply)
  /-- XFER_TIMEOUT (R196). -/
  | xferTimeout (oid : Nat)
  /-- APERTURE_DOWN_MESSAGE (R200). -/
  | apertureDownMessage (oid rtype : Nat) (data : List (BitVec 8))
  /-- HYP_ID_FREE (R146). -/
  | hypIdFree (slot id : Nat)
  /-- SLOT_ENABLE (R399). -/
  | slotEnable (p : Nat)
  /-- SLOT_HOLD (R399). -/
  | slotHold (p : Nat) (hold : Bool)
  /-- SLOT_TEARDOWN (R402). -/
  | slotTeardown (p : Nat)
  /-- LAUNCH_DOORBELL (R404). -/
  | launchDoorbell (p : Nat) (idx : BitVec 32)
  /-- LAUNCH_ENTRY_TAKE (R405). -/
  | launchEntryTake (p : Nat)
  /-- LAUNCH_COMPLETION (R406). -/
  | launchCompletion (lid : Nat)
  /-- COMPLETION_CONSUMED (R404). -/
  | completionConsumed (p : Nat) (idx : BitVec 32)
  /-- HOST_WINDOW1_WRITE (R398). -/
  | hostWindow1Write (off : Nat) (data : List (BitVec 8))
  /-- HOST_WINDOW1_READ (R398). -/
  | hostWindow1Read (off n : Nat)
  /-- HOST_ATOMICOP (R398). -/
  | hostAtomicop (off : Nat) (op : HostAtomic)
  /-- HOST_CXL_MEM_ACCESS (R395). -/
  | hostCxlMemAccess (pa n : Nat) (data : Option (List (BitVec 8)))
  /-- HOST_LINK_TRAINING (R394). -/
  | hostLinkTraining (cxl cache : Bool)
  /-- RESUME (R408). -/
  | resume (w : BitVec 32)
  /-- FBCI_WRITE (R415). -/
  | fbciWrite (p : Nat) (idx : BitVec 32)
  /-- FACK_RETRY (R419). -/
  | fackRetry (p id : Nat)
  /-- FACK_FAIL (R419). -/
  | fackFail (p id : Nat)
  /-- DLNOW (R415). -/
  | dlnow (p : Nat)
  /-- TLBI_PAGE (R416). -/
  | tlbiPage (asid : BitVec 16)
  /-- TLBI_ASID (R416). -/
  | tlbiAsid (asid : BitVec 16)
  /-- TLBI_ALL (R416). -/
  | tlbiAll
  /-- TLB_INVALIDATION_COMPLETE (R416). -/
  | tlbInvalidationComplete
  /-- VSCFG_WRITE (R417). -/
  | vscfgWrite (w : BitVec 32)
  /-- PORT_ENABLE (R428). -/
  | portEnable (m : Master) (n : Nat)
  /-- PORT_DISABLE (R428). -/
  | portDisable (m : Master) (n : Nat)
  /-- PORT_TRAINED (R428). -/
  | portTrained (n : Nat) (waves : BitVec 16)
  /-- PORT_TRAINING_TIMEOUT (R428). -/
  | portTrainingTimeout (n : Nat)
  /-- WAVELENGTH_LOST (R428). -/
  | wavelengthLost (u : BitVec 32) (wave : Nat)
  /-- LINK_RETRY_EXHAUSTED (R428). -/
  | linkRetryExhausted (n : Nat)
  /-- PORTERR_CLEAR (R427). -/
  | porterrClear (n : Nat)
  /-- BOOT (R432). -/
  | boot
  /-- BOOTCTL_COMMIT (R433). -/
  | bootctlCommit (m : Master)
  /-- FIRMWARE_UPDATE (R433). -/
  | firmwareUpdate (img : FlashImage)
  /-- SPDM_MEASUREMENTS (R434). -/
  | spdmMeasurements
  /-- KEY_TAKE (R435). -/
  | keyTake
  /-- KEY_RELEASE (R435). -/
  | keyRelease
  /-- KEY_RENEW (R435). -/
  | keyRenew
  /-- STATUS (R435). -/
  | status
  /-- RESET_WARM (R435). -/
  | resetWarm
  /-- RESET_COLD (R435). -/
  | resetCold
  /-- POWER_CAP (R435). -/
  | powerCap (w : BitVec 32)
  /-- WRITE (R435). -/
  | write (off : Nat) (w : BitVec 32)
  /-- KEYCTL_TAKE (R436). -/
  | keyctlTake
  /-- KEYCTL_RELEASE (R436). -/
  | keyctlRelease
  /-- KEYCTL_RENEW (R436). -/
  | keyctlRenew
  /-- KEY_EXPIRY (R436). -/
  | keyExpiry
  /-- PLDM_SENSOR_READ (R444). -/
  | pldmSensorRead (off : Nat)
  /-- CORRECTED_ERROR (R440). -/
  | correctedError (u : BitVec 32) (pa : Nat)
  /-- UNCORRECTABLE_ERROR (R439). -/
  | uncorrectableError (u : BitVec 32) (loc : ErrorSite)
  /-- READMIT (R442). -/
  | readmit (m : Master) (u : BitVec 32)
  /-- PCAP_WRITE (R445). -/
  | pcapWrite (m : Master) (w : BitVec 32)
  /-- CLOCK_STEP (R445). -/
  | clockStep (cap fast : Nat)
  /-- THERMAL_THROTTLE (R445). -/
  | thermalThrottle
  /-- THERMAL_TRIP (R445). -/
  | thermalTrip (sensor : Nat)
  /-- REGISTER_WRITE (R396). -/
  | registerWrite (m : Master) (off : Nat) (w : BitVec 64)
  /-- NOP (R204). -/
  | nop (w : RM)
  /-- BRK (R238). -/
  | brk (w : RM)
  /-- YIELD (R239). -/
  | yield (w : RM)
  /-- FREE (R240). -/
  | free (w : RM)
  /-- WTIME (R241). -/
  | wtime (w : RM)
  /-- ADD (R242). -/
  | add (w : RR)
  /-- SUB (R242). -/
  | sub (w : RR)
  /-- MULLO (R242). -/
  | mullo (w : RR)
  /-- MULHI_S (R242). -/
  | mulhiS (w : RR)
  /-- MULHI_Z (R242). -/
  | mulhiZ (w : RR)
  /-- MAD (R242). -/
  | mad (w : RR)
  /-- MIN_S (R242). -/
  | minS (w : RR)
  /-- MIN_Z (R242). -/
  | minZ (w : RR)
  /-- MAX_S (R242). -/
  | maxS (w : RR)
  /-- MAX_Z (R242). -/
  | maxZ (w : RR)
  /-- AND (R242). -/
  | and (w : RR)
  /-- OR (R242). -/
  | or (w : RR)
  /-- XOR (R242). -/
  | xor (w : RR)
  /-- ANDN (R242). -/
  | andn (w : RR)
  /-- SHL (R243). -/
  | shl (w : RR)
  /-- SHR (R243). -/
  | shr (w : RR)
  /-- SAR (R243). -/
  | sar (w : RR)
  /-- ROT (R243). -/
  | rot (w : RR)
  /-- BFE_Z (R244). -/
  | bfeZ (w : RR)
  /-- BFE_S (R244). -/
  | bfeS (w : RR)
  /-- BFI (R244). -/
  | bfi (w : RR)
  /-- NOT (R245). -/
  | not (w : RM)
  /-- NEG (R245). -/
  | neg (w : RM)
  /-- ABS (R245). -/
  | abs (w : RM)
  /-- POPC (R245). -/
  | popc (w : RM)
  /-- CLZ (R245). -/
  | clz (w : RM)
  /-- CTZ (R245). -/
  | ctz (w : RM)
  /-- BREV (R245). -/
  | brev (w : RM)
  /-- SEXT8 (R245). -/
  | sext8 (w : RM)
  /-- SEXT16 (R245). -/
  | sext16 (w : RM)
  /-- ZEXT8 (R245). -/
  | zext8 (w : RM)
  /-- ZEXT16 (R245). -/
  | zext16 (w : RM)
  /-- MOV (R245). -/
  | mov (w : RM)
  /-- BSWAP (R245). -/
  | bswap (w : RM)
  /-- SEL (R246). -/
  | sel (w : RR)
  /-- CMP_EQ (R247). -/
  | cmpEq (w : RR)
  /-- CMP_NE (R247). -/
  | cmpNe (w : RR)
  /-- CMP_LT_S (R247). -/
  | cmpLtS (w : RR)
  /-- CMP_LE_S (R247). -/
  | cmpLeS (w : RR)
  /-- CMP_LT_Z (R247). -/
  | cmpLtZ (w : RR)
  /-- CMP_LE_Z (R247). -/
  | cmpLeZ (w : RR)
  /-- LEA (R248). -/
  | lea (w : RR)
  /-- ADDI (R248). -/
  | addi (w : RI)
  /-- MOVL (R249). -/
  | movl (w : RM)
  /-- MOVPC (R249). -/
  | movpc (w : RM)
  /-- MOV64 (R249). -/
  | mov64 (w : RM)
  /-- MOVG (R250). -/
  | movg (w : RN)
  /-- MOVTG (R251). -/
  | movtg (w : RN)
  /-- ADD64 (R252). -/
  | add64 (w : RR)
  /-- SUB64 (R252). -/
  | sub64 (w : RR)
  /-- LEA64 (R252). -/
  | lea64 (w : RR)
  /-- XIDX (R253). -/
  | xidx (w : RR)
  /-- XUP (R253). -/
  | xup (w : RR)
  /-- XDOWN (R253). -/
  | xdown (w : RR)
  /-- XXOR (R253). -/
  | xxor (w : RR)
  /-- ANY (R256). -/
  | any (w : RM)
  /-- ALL (R256). -/
  | all (w : RM)
  /-- BALLOT_LO (R256). -/
  | ballotLo (w : RM)
  /-- BALLOT_HI (R256). -/
  | ballotHi (w : RM)
  /-- COUNT (R256). -/
  | count (w : RM)
  /-- ELECT (R256). -/
  | elect (w : RM)
  /-- MATCH (R256). -/
  | xmatch (w : RM)
  /-- SCAN_ADD (R256). -/
  | scanAdd (w : RM)
  /-- SUM_ADD (R256). -/
  | sumAdd (w : RM)
  /-- RGET (R258). -/
  | rget (w : RR)
  /-- RPUT (R259). -/
  | rput (w : RR)
  /-- BR (R261). -/
  | br (w : BR)
  /-- BNZ (R261). -/
  | bnz (w : BR)
  /-- BZ (R261). -/
  | bz (w : BR)
  /-- CALL (R262). -/
  | call (w : BR)
  /-- JMPI (R263). -/
  | jmpi (w : BR)
  /-- MEET (R264). -/
  | meet (w : BR)
  /-- EXIT (R265). -/
  | exit (w : BR)
  /-- TRAP (R266). -/
  | trap (w : RN)
  /-- FADD (R269). -/
  | fadd (w : RR)
  /-- FSUB (R269). -/
  | fsub (w : RR)
  /-- FMUL (R269). -/
  | fmul (w : RR)
  /-- FFMA (R269). -/
  | ffma (w : RR)
  /-- FMIN (R269). -/
  | fmin (w : RR)
  /-- FMAX (R269). -/
  | fmax (w : RR)
  /-- FCMP_EQ (R271). -/
  | fcmpEq (w : RR)
  /-- FCMP_LT (R271). -/
  | fcmpLt (w : RR)
  /-- FCMP_LE (R271). -/
  | fcmpLe (w : RR)
  /-- FCMP_UN (R271). -/
  | fcmpUn (w : RR)
  /-- FABS (R273). -/
  | fabs (w : RM)
  /-- FNEG (R273). -/
  | fneg (w : RM)
  /-- RCP (R273). -/
  | rcp (w : RM)
  /-- RSQ (R273). -/
  | rsq (w : RM)
  /-- SQRT (R273). -/
  | sqrt (w : RM)
  /-- EXP2 (R273). -/
  | exp2 (w : RM)
  /-- LOG2 (R273). -/
  | log2 (w : RM)
  /-- SIN (R273). -/
  | sin (w : RM)
  /-- COS (R273). -/
  | cos (w : RM)
  /-- TRUNC (R273). -/
  | trunc (w : RM)
  /-- FLOOR (R273). -/
  | floor (w : RM)
  /-- CEIL (R273). -/
  | ceil (w : RM)
  /-- RINT (R273). -/
  | rint (w : RM)
  /-- FRAC (R273). -/
  | frac (w : RM)
  /-- CLASS (R274). -/
  | class (w : RM)
  /-- FDIV (R272). -/
  | fdiv (w : RR)
  /-- BADD (R275). -/
  | badd (w : RR)
  /-- BMUL (R275). -/
  | bmul (w : RR)
  /-- BFMA (R275). -/
  | bfma (w : RR)
  /-- BMIN (R275). -/
  | bmin (w : RR)
  /-- BMAX (R275). -/
  | bmax (w : RR)
  /-- HADD (R275). -/
  | hadd (w : RR)
  /-- HMUL (R275). -/
  | hmul (w : RR)
  /-- HFMA (R275). -/
  | hfma (w : RR)
  /-- DADD (R275). -/
  | dadd (w : RR)
  /-- DMUL (R275). -/
  | dmul (w : RR)
  /-- DFMA (R275). -/
  | dfma (w : RR)
  /-- CVT_F32_F16 (R277). -/
  | cvtF32F16 (w : RM)
  /-- CVT_F32_F16_HI (R277). -/
  | cvtF32F16Hi (w : RM)
  /-- CVT_F32_BF16 (R277). -/
  | cvtF32Bf16 (w : RM)
  /-- CVT_F32_BF16_HI (R277). -/
  | cvtF32Bf16Hi (w : RM)
  /-- CVT_F16_F32 (R277). -/
  | cvtF16F32 (w : RM)
  /-- CVT_BF16_F32 (R277). -/
  | cvtBf16F32 (w : RM)
  /-- CVT_F16X2_F32 (R277). -/
  | cvtF16x2F32 (w : RM)
  /-- CVT_BF16X2_F32 (R277). -/
  | cvtBf16x2F32 (w : RM)
  /-- CVT_F64_F32 (R277). -/
  | cvtF64F32 (w : RM)
  /-- CVT_F32_F64 (R277). -/
  | cvtF32F64 (w : RM)
  /-- CVT_F32_S32 (R277). -/
  | cvtF32S32 (w : RM)
  /-- CVT_F32_Z32 (R277). -/
  | cvtF32Z32 (w : RM)
  /-- CVT_F32_S64 (R277). -/
  | cvtF32S64 (w : RM)
  /-- CVT_F32_Z64 (R277). -/
  | cvtF32Z64 (w : RM)
  /-- CVT_F64_S32 (R277). -/
  | cvtF64S32 (w : RM)
  /-- CVT_F64_Z32 (R277). -/
  | cvtF64Z32 (w : RM)
  /-- CVT_F64_S64 (R277). -/
  | cvtF64S64 (w : RM)
  /-- CVT_F64_Z64 (R277). -/
  | cvtF64Z64 (w : RM)
  /-- CVT_S32_F32 (R277). -/
  | cvtS32F32 (w : RM)
  /-- CVT_Z32_F32 (R277). -/
  | cvtZ32F32 (w : RM)
  /-- CVT_S32_F32_RZ (R277). -/
  | cvtS32F32Rz (w : RM)
  /-- CVT_Z32_F32_RZ (R277). -/
  | cvtZ32F32Rz (w : RM)
  /-- CVT_S64_F32 (R277). -/
  | cvtS64F32 (w : RM)
  /-- CVT_Z64_F32 (R277). -/
  | cvtZ64F32 (w : RM)
  /-- CVT_S32_F64 (R277). -/
  | cvtS32F64 (w : RM)
  /-- CVT_Z32_F64 (R277). -/
  | cvtZ32F64 (w : RM)
  /-- CVT_S64_F64 (R277). -/
  | cvtS64F64 (w : RM)
  /-- CVT_Z64_F64 (R277). -/
  | cvtZ64F64 (w : RM)
  /-- CVT_S32_F64_RZ (R277). -/
  | cvtS32F64Rz (w : RM)
  /-- CVT_S64_F64_RZ (R277). -/
  | cvtS64F64Rz (w : RM)
  /-- CVT_F16_F64 (R277). -/
  | cvtF16F64 (w : RM)
  /-- CVT_BF16_F64 (R277). -/
  | cvtBf16F64 (w : RM)
  /-- CVT_F64_F16 (R277). -/
  | cvtF64F16 (w : RM)
  /-- CVT_F64_BF16 (R277). -/
  | cvtF64Bf16 (w : RM)
  /-- CVT_BF16_F16 (R277). -/
  | cvtBf16F16 (w : RM)
  /-- CVT_F16_BF16 (R277). -/
  | cvtF16Bf16 (w : RM)
  /-- CVT_S8_F32 (R277). -/
  | cvtS8F32 (w : RM)
  /-- CVT_Z8_F32 (R277). -/
  | cvtZ8F32 (w : RM)
  /-- CVT_S16_F32 (R277). -/
  | cvtS16F32 (w : RM)
  /-- CVT_Z16_F32 (R277). -/
  | cvtZ16F32 (w : RM)
  /-- NCVT_P (R279). -/
  | ncvtP (w : RR)
  /-- NCVT_U (R280). -/
  | ncvtU (w : RR)
  /-- FSCALE (R281). -/
  | fscale (w : RR)
  /-- LCLR (R283). -/
  | lclr (w : RM)
  /-- LADD_F32 (R284). -/
  | laddF32 (w : RM)
  /-- LADD_BF16_LO (R284). -/
  | laddBf16Lo (w : RM)
  /-- LADD_BF16_HI (R284). -/
  | laddBf16Hi (w : RM)
  /-- LADD_F16_LO (R284). -/
  | laddF16Lo (w : RM)
  /-- LADD_F16_HI (R284). -/
  | laddF16Hi (w : RM)
  /-- LADD_S32 (R284). -/
  | laddS32 (w : RM)
  /-- LADD_Z32 (R284). -/
  | laddZ32 (w : RM)
  /-- LFMA (R285). -/
  | lfma (w : RR)
  /-- LFMAB (R285). -/
  | lfmab (w : RR)
  /-- LMERGE (R286). -/
  | lmerge (w : RR)
  /-- LNORM (R283). -/
  | lnorm (w : RM)
  /-- LRND_F32 (R288). -/
  | lrndF32 (w : RM)
  /-- LRND_BF16 (R288). -/
  | lrndBf16 (w : RM)
  /-- LRND_F16 (R288). -/
  | lrndF16 (w : RM)
  /-- LRND_F64 (R288). -/
  | lrndF64 (w : RM)
  /-- LRND_S32 (R288). -/
  | lrndS32 (w : RM)
  /-- LSH (R286). -/
  | lsh (w : RR)
  /-- LST (R291). -/
  | lst (w : MEM)
  /-- LLD (R292). -/
  | lld (w : MEM)
  /-- LRED (R293). -/
  | lred (w : MEM)
  /-- LGRED (R287). -/
  | lgred (w : RM)
  /-- LSEG (R289). -/
  | lseg (w : RN)
  /-- LDG (R299). -/
  | ldg (w : MEM)
  /-- STG (R300). -/
  | stg (w : MEM)
  /-- LDS (R299). -/
  | lds (w : MEM)
  /-- STS (R300). -/
  | sts (w : MEM)
  /-- ATG_ADD (R304). -/
  | atgAdd (w : AT)
  /-- ATG_SUB (R304). -/
  | atgSub (w : AT)
  /-- ATG_MIN_S (R304). -/
  | atgMinS (w : AT)
  /-- ATG_MIN_Z (R304). -/
  | atgMinZ (w : AT)
  /-- ATG_MAX_S (R304). -/
  | atgMaxS (w : AT)
  /-- ATG_MAX_Z (R304). -/
  | atgMaxZ (w : AT)
  /-- ATG_AND (R304). -/
  | atgAnd (w : AT)
  /-- ATG_OR (R304). -/
  | atgOr (w : AT)
  /-- ATG_XOR (R304). -/
  | atgXor (w : AT)
  /-- ATG_SWAP (R304). -/
  | atgSwap (w : AT)
  /-- ATG_CAS (R304). -/
  | atgCas (w : AT)
  /-- ATG_INC_WRAP (R304). -/
  | atgIncWrap (w : AT)
  /-- ATG_DEC_WRAP (R304). -/
  | atgDecWrap (w : AT)
  /-- ATG_AR_ADD (R304). -/
  | atgArAdd (w : AT)
  /-- ATG_AR_SUB (R304). -/
  | atgArSub (w : AT)
  /-- ATG_AR_MIN_S (R304). -/
  | atgArMinS (w : AT)
  /-- ATG_AR_MIN_Z (R304). -/
  | atgArMinZ (w : AT)
  /-- ATG_AR_MAX_S (R304). -/
  | atgArMaxS (w : AT)
  /-- ATG_AR_MAX_Z (R304). -/
  | atgArMaxZ (w : AT)
  /-- ATG_AR_AND (R304). -/
  | atgArAnd (w : AT)
  /-- ATG_AR_OR (R304). -/
  | atgArOr (w : AT)
  /-- ATG_AR_XOR (R304). -/
  | atgArXor (w : AT)
  /-- ATG_AR_SWAP (R304). -/
  | atgArSwap (w : AT)
  /-- ATG_AR_CAS (R304). -/
  | atgArCas (w : AT)
  /-- ATG_AR_INC_WRAP (R304). -/
  | atgArIncWrap (w : AT)
  /-- ATG_AR_DEC_WRAP (R304). -/
  | atgArDecWrap (w : AT)
  /-- ATG_SYS_ADD (R304). -/
  | atgSysAdd (w : AT)
  /-- ATG_SYS_SUB (R304). -/
  | atgSysSub (w : AT)
  /-- ATG_SYS_MIN_S (R304). -/
  | atgSysMinS (w : AT)
  /-- ATG_SYS_MIN_Z (R304). -/
  | atgSysMinZ (w : AT)
  /-- ATG_SYS_MAX_S (R304). -/
  | atgSysMaxS (w : AT)
  /-- ATG_SYS_MAX_Z (R304). -/
  | atgSysMaxZ (w : AT)
  /-- ATG_SYS_AND (R304). -/
  | atgSysAnd (w : AT)
  /-- ATG_SYS_OR (R304). -/
  | atgSysOr (w : AT)
  /-- ATG_SYS_XOR (R304). -/
  | atgSysXor (w : AT)
  /-- ATG_SYS_SWAP (R304). -/
  | atgSysSwap (w : AT)
  /-- ATG_SYS_CAS (R304). -/
  | atgSysCas (w : AT)
  /-- ATG_SYS_INC_WRAP (R304). -/
  | atgSysIncWrap (w : AT)
  /-- ATG_SYS_DEC_WRAP (R304). -/
  | atgSysDecWrap (w : AT)
  /-- ATS_ADD (R304). -/
  | atsAdd (w : AT)
  /-- ATS_SUB (R304). -/
  | atsSub (w : AT)
  /-- ATS_MIN_S (R304). -/
  | atsMinS (w : AT)
  /-- ATS_MIN_Z (R304). -/
  | atsMinZ (w : AT)
  /-- ATS_MAX_S (R304). -/
  | atsMaxS (w : AT)
  /-- ATS_MAX_Z (R304). -/
  | atsMaxZ (w : AT)
  /-- ATS_AND (R304). -/
  | atsAnd (w : AT)
  /-- ATS_OR (R304). -/
  | atsOr (w : AT)
  /-- ATS_XOR (R304). -/
  | atsXor (w : AT)
  /-- ATS_SWAP (R304). -/
  | atsSwap (w : AT)
  /-- ATS_CAS (R304). -/
  | atsCas (w : AT)
  /-- ATS_INC_WRAP (R304). -/
  | atsIncWrap (w : AT)
  /-- ATS_DEC_WRAP (R304). -/
  | atsDecWrap (w : AT)
  /-- ACAS16 (R306). -/
  | acas16 (w : RR)
  /-- FENCE_ACQ (R307). -/
  | fenceAcq (w : FN)
  /-- FENCE_REL (R307). -/
  | fenceRel (w : FN)
  /-- FENCE_FULL (R307). -/
  | fenceFull (w : FN)
  /-- CACHE_L1INV (R308). -/
  | cacheL1inv (w : RM)
  /-- CACHE_DRAIN (R308). -/
  | cacheDrain (w : RM)
  /-- CACHE_PFL (R308). -/
  | cachePfl (w : RM)
  /-- PFR (R309). -/
  | pfr (w : RR)
  /-- ACQR (R310). -/
  | acqr (w : RM)
  /-- CP (R316). -/
  | cp (w : RR)
  /-- CPT (R317). -/
  | cpt (w : RR)
  /-- CPO (R316). -/
  | cpo (w : RR)
  /-- SLD (R320). -/
  | sld (w : RR)
  /-- SKN_DECL (R321). -/
  | sknDecl (w : RM)
  /-- SKN_JOIN (R321). -/
  | sknJoin (w : RM)
  /-- SKN_LEAVE (R321). -/
  | sknLeave (w : RM)
  /-- SKN_STAT (R321). -/
  | sknStat (w : RM)
  /-- LATCH_INIT (R322). -/
  | latchInit (w : RM)
  /-- LATCH_EXPECT (R322). -/
  | latchExpect (w : RM)
  /-- LATCH_ARRIVE (R322). -/
  | latchArrive (w : RM)
  /-- LATCH_ARRIVE_REMOTE (R322). -/
  | latchArriveRemote (w : RM)
  /-- LATCH_WAIT (R322). -/
  | latchWait (w : RM)
  /-- LATCH_TEST (R322). -/
  | latchTest (w : RM)
  /-- LATCH_INVAL (R322). -/
  | latchInval (w : RM)
  /-- WAITC (R323). -/
  | waitc (w : RN)
  /-- QOP_BIND (R324). -/
  | qopBind (w : RM)
  /-- QOP_UNBIND (R324). -/
  | qopUnbind (w : RM)
  /-- QOP_STAT (R324). -/
  | qopStat (w : RM)
  /-- QPUSH (R325). -/
  | qpush (w : RN)
  /-- QPOP (R325). -/
  | qpop (w : RN)
  /-- AMSG (R326). -/
  | amsg (w : RR)
  /-- SPAWN (R327). -/
  | spawn (w : RM)
  /-- SPAWN_GANG (R327). -/
  | spawnGang (w : RM)
  /-- SPAWN_JOIN (R327). -/
  | spawnJoin (w : RM)
  /-- XFER_PUT (R328). -/
  | xferPut (w : RM)
  /-- XFER_PUTRED (R328). -/
  | xferPutred (w : RM)
  /-- XFER_GET (R328). -/
  | xferGet (w : RM)
  /-- XFER_ARM (R328). -/
  | xferArm (w : RM)
  /-- XFER_DISARM (R328). -/
  | xferDisarm (w : RM)
  /-- HYP_NEW (R154). -/
  | hypNew (w : RM)
  /-- HYP_ENTER (R155). -/
  | hypEnter (w : RM)
  /-- HYP_LEAVE (R155). -/
  | hypLeave (w : RM)
  /-- HYP_CONFIRM (R156). -/
  | hypConfirm (w : RM)
  /-- HYP_REFUTE (R157). -/
  | hypRefute (w : RM)
  /-- HYP_STAT (R158). -/
  | hypStat (w : RM)
  /-- MMA (R333). -/
  | mma (w : RR)
  /-- MLOOP (R334). -/
  | mloop (w : RR)
  /-- MSCALE (R335). -/
  | mscale (w : RR)
  /-- MDRAIN_R (R336). -/
  | mdrainR (w : RM)
  /-- MDRAIN_SP (R336). -/
  | mdrainSp (w : RM)
  /-- MDRAIN_GL (R336). -/
  | mdrainGl (w : RM)
  /-- MDRAIN_PEER (R336). -/
  | mdrainPeer (w : RM)
  /-- MDRAIN_Q (R336). -/
  | mdrainQ (w : RM)
  /-- MFACT_CHOL (R338). -/
  | mfactChol (w : RR)
  /-- MZERO (R339). -/
  | mzero (w : RM)
  /-- MCFG (R339). -/
  | mcfg (w : RM)
  /-- MTRSM (R339). -/
  | mtrsm (w : RM)
  /-- MSTAT (R339). -/
  | mstat (w : RM)
  /-- CSR_RD (R341). -/
  | csrRd (w : RN)
  /-- CSR_WR (R341). -/
  | csrWr (w : RN)
  /-- SYS_ERET (R346). -/
  | sysEret (w : RM)
  /-- SYS_CTXSV (R347). -/
  | sysCtxsv (w : RM)
  /-- SYS_CTXLD (R347). -/
  | sysCtxld (w : RM)
  /-- SYS_TLBINV (R348). -/
  | sysTlbinv (w : RM)
  /-- SYS_L2FLUSH (R348). -/
  | sysL2flush (w : RM)
  /-- SYS_HALT (R348). -/
  | sysHalt (w : RM)
  /-- HOST_HOME_AGENT_SNOOP (R89). -/
  | hostHomeAgentSnoop (pa : Nat)
  /-- POWER_LOSS (R433). -/
  | powerLoss
  deriving DecidableEq, Repr

end Sys2Proof
end

