-- ==== Sys2Proof/Machine/State.lean ====
section
/-! DEFINITION. The state of one DN4 as plain data: device memory and its home slices, the cores, the resident teams
with their groups and threads, the engine commands outstanding, the process slots, and the management state.
`State.reset` is the device right after reset. The values the spec gives no reset value for are those of log 4. -/

namespace Sys2Proof.Machine

open Sys2Proof

/-! ## Registers and accumulators -/

/-- State of a register (R39). -/
inductive RegState where
  | full
  | empty
  | absent
  deriving DecidableEq, Repr

/-- A 32-bit register: the bits it holds (kept when it becomes ABSENT), its state, and the youngest outstanding
long-latency producer, 0 for none (R39). -/
structure Reg where
  val : Word
  st : RegState
  prod : Nat
  deriving DecidableEq, Repr

/-- A long accumulator: twenty signed segments S_0 to S_19 and the status bits (R116). -/
structure LongAcc where
  seg : List Int
  nan : Bool
  pinf : Bool
  ninf : Bool
  deriving DecidableEq, Repr

/-- A register accumulator c0 to c3 and the flight it waits for, 0 when FULL (R282). -/
structure AccCell where
  acc : LongAcc
  prod : Nat
  deriving DecidableEq, Repr

/-! ## Threads, groups, teams -/

/-- What a waiting thread waits for (R32). -/
inductive Wait where
  | none
  | reg
  | latch (lk : Nat) (phase : Bool)
  | qpush (q : Nat)
  | qpop (q : Nat)
  | waitc (cls : Nat)
  deriving DecidableEq, Repr

/-- One thread (R10, R29, R42, R203). `held` lists the values its v registers held before the present ones, without
repeats: what a read of an ABSENT register may give (R39). `orphan` and `dlPend` are causes that have fallen due (R44,
R160): `dlPend` holds the old deadline, and `atEret` says that an `eret` found it pending (R42). `passed` says that a
phase completion has released it from the `latch.wait` at its PC, with the class of that phase (R83, R126). `popping` is
the destination of the `qpop` it waits in, a g register when the flag is set, which reads as EMPTY until the wait ends,
with the number of the `qpop` among the producers of the register, 0 when a younger one has completed (R39, R325). `cover` is the bound of the `waitc` it waits in, 0 for none (R323). `lastIssue` orders the turns of R34. -/
structure Thread where
  v : List Reg
  held : List Word
  acc : List AccCell
  pc : DWord
  meet : DWord
  fst : Word
  hyp : Word
  trapc : Word
  trapa : DWord
  trapd : Word
  live : Bool
  inHandler : Bool
  orphan : Bool
  dlPend : Option Nat
  atEret : Bool
  wait : Wait
  passed : Option Bool
  popping : Option (Bool × Nat × Nat)
  cover : Nat
  lastIssue : Nat
  deriving DecidableEq, Repr

/-- A queue register: its binding word (R142; KIND 0 is NULL), the placement a PEER out binding names, and its words
(R141), each with a flag for a device-class source (R83). `stamps` orders the pushes to a PEER out queue among all
queues (R143). -/
structure Queue where
  bind : Word
  target : Nat
  words : List (Word × Bool)
  stamps : List Nat := []
  deriving DecidableEq, Repr

/-- A fault or a held pivot of an engine operation without a latch, not reported yet (R133, R323, R447). -/
structure EngEvent where
  cls : Nat
  seq : Nat
  pivot : Bool
  datum : Word
  deriving DecidableEq, Repr

/-- An issue stall that is not a wait (R296): the word at `pc` of the set at `setPc` has begun, `result` is what it will
write and `waitUntil` the global time it waits for. -/
structure Stall where
  pc : DWord
  setPc : DWord
  begun : Bool
  result : Word
  waitUntil : Nat
  holds : List Nat := []
  deriving DecidableEq, Repr

/-- A pending `xfer arm` (R198). -/
structure Arm where
  lk : Nat
  n : Nat
  deriving DecidableEq, Repr

/-- One group (R10, R29, R233). `failed` lists pages the driver has declared unresolvable for its parked set at `parkPc`,
with the fault kind (R419), and `replay` lists the threads of that set, which replay it before a DEADLINE that fell due
meanwhile (R44). `packets` holds the bytes of the packets that threads of the group are in the middle of, each with those
threads (R377). -/
structure Group where
  g : List Reg
  held : List Word
  threads : List Thread
  round : Word
  lease : Word
  ffl : Nat
  fhz : Nat
  fstm : Word
  mcfg : Word
  pivt : Word
  pivd : Word
  pivm : Word
  absm : Word
  cpol : Word
  lnkc : Word
  dlinStage : Option Word
  queues : List Queue
  mSteps : Nat
  mCause : Nat
  mLoss : Bool
  events : List EngEvent
  arm : Option Arm
  lane : Nat
  active : Bool
  since : Nat
  age : Nat
  stall : Option Stall
  parked : List Nat
  failed : List (Nat × Nat)
  parkPc : DWord
  lastExit : DWord
  replay : List Nat
  packets : List (DWord × List Nat × List Byte)
  deriving DecidableEq, Repr

/-- A latch (R124). `remote`: something counted toward the current phase came from another core; `lastDev`: the last
completed phase was of device class; `anyDev`: some completed phase was (R83); `low`: the least bytes expected that a count
of the step in hand has left (the MODEL's own field, R198). -/
structure Latch where
  f : Bool
  fw : Word
  ph : Bool
  ea : Nat
  eb : Nat
  a : Int
  b : Int
  v : Bool
  remote : Bool
  lastDev : Bool
  anyDev : Bool
  phases : Nat
  low : Option Int := none
  deriving DecidableEq, Repr

/-- A continuation record (R13). -/
structure Record where
  entry : DWord
  frame : DWord
  join : DWord
  slots : Nat
  hinged : Bool
  width : Nat
  groups : Nat
  sp : Nat
  gang : Bool
  prio : Nat
  count : Nat
  deriving DecidableEq, Repr

/-- A kernel's entry header (R12). `fusion` is the number of cores of the fusion domain, 0 for none. -/
structure Header where
  regs : Nat
  accs : Nat
  minSlots : Nat
  fusion : Nat
  hingedReq : Bool
  width : Nat
  absm : Bool
  round : Word
  lease : Nat
  spmin : Nat
  fstm : Word
  skeins : Nat
  trapv : DWord
  handlers : DWord
  dspan : Nat
  deriving DecidableEq, Repr

/-- A team's place in a skein and its sequence counter (R136). -/
structure Enrol where
  sk : Nat
  k : Nat
  deriving DecidableEq, Repr

/-- A team, resident or saved (R10, R29). `uid` names one placement, so it stands for the generation of R18 and R53.
`tiles` holds slot s of the team's core c at index c * slots + s. `saving` is the group whose `sys.ctxsv` has stopped the
team (R47). -/
structure Team where
  uid : Nat
  launch : Nat
  slot : Nat
  cl : Nat
  core : Nat
  place : Nat
  record : Record
  hdr : Header
  tmid : Nat
  groups : List Group
  scratch : List Host.Cell
  gen : Nat
  latches : List Latch
  tiles : List (List LongAcc)
  dlin : Nat
  amsrc : Word
  skeins : List Enrol
  saving : Option (Nat × Nat)
  deriving DecidableEq, Repr

/-! ## Memory in flight -/

/-- The three scope classes (R68). -/
inductive ScopeClass where
  | core
  | device
  | system
  deriving DecidableEq, Repr

/-- Where an access goes: physical memory, or the scratchpad of a team (named by its placement, R53). -/
inductive Target where
  | mem (pa : Nat)
  | sp (uid off : Nat)
  deriving DecidableEq, Repr

/-- The atomic operations AO 0 to 12 (R215). -/
inductive AtomOp where
  | add | sub | minS | minZ | maxS | maxZ | and | or | xor | swap | cas | incWrap | decWrap
  deriving DecidableEq, Repr

/-- The piece of a scratchpad range that one team holds: from byte `start` of the range on, offset `off` of the
scratchpad of placement `uid` (R51, R54). -/
structure Mark where
  start : Nat
  uid : Nat
  off : Nat
  deriving DecidableEq, Repr

/-- What an access does. Register numbers are those of the word's destination field; `part` and `of` of an `lload`: the
16-byte part of the image, and the flight of its first part, for which the accumulator waits (R292). -/
inductive Access where
  | load (d sz : Nat)
  | lload (d part of : Nat)
  | store (bytes : List Byte)
  | atomic (op : AtomOp) (operand compare : Nat) (d : Option Nat)
  | cas16 (compare new : Nat) (d : Nat)
  | merge (img : LongAcc)
  | regs (d : Nat) (vals : List Word)
  | accs (d : Nat) (val : LongAcc)
  | round (d acc fmt : Nat) (mode : Word)
  deriving DecidableEq, Repr

/-- An access or a long-latency producer between issue and completion (R39, R69 to R76). `batch` numbers its word;
`direct` reads bypass the store buffer and L1 (R71); `tracked`: the page's T bit (R89, R98); `spCore`: the core whose
SRAM a scratchpad access goes to (R85); `l1At`: the core whose L1 serves its address (R27); `seen`: an L1 copy has taken its
bytes before it is performed (R59, R72); `data`: the bytes read, or for a part of an `lld` those its unit held when the first
part was read (R91); `bad`: some of them were poisoned (R439); `done`: performed; `acked`: acknowledged; `ctime`: its
completion time (R74). -/
structure Flight where
  id : Nat
  batch : Nat
  uid : Nat
  gid : Nat
  thread : Nat
  uni : Bool
  slot : Nat
  cl : Nat
  core : Nat
  tgt : Target
  size : Nat
  what : Access
  hyp : Word
  cls : ScopeClass
  acq : Bool
  direct : Bool
  lease : Nat
  l1ok : Bool
  tracked : Bool
  spCore : Nat
  l1At : Nat
  seen : Bool
  data : List Byte
  bad : Bool
  done : Bool
  acked : Bool
  ctime : Nat
  deriving DecidableEq, Repr

/-- A store-buffer entry: one 64-byte sector with the bytes written (R70); `tracked`: the page's T bit at issue. -/
structure SbEntry where
  id : Nat
  slot : Nat
  uid : Nat
  gid : Nat
  sector : Nat
  tracked : Bool
  bytes : List Host.Cell
  issued : Nat
  deriving DecidableEq, Repr

/-- A valid L1 sector (R59). -/
structure L1Sector where
  sector : Nat
  bytes : List Byte
  grant : Nat
  expiry : Nat
  deriving DecidableEq, Repr

/-- What a home slice keeps of a sector (R73). -/
structure SectorTimes where
  sector : Nat
  expiry : Nat
  stamp : Nat
  deriving DecidableEq, Repr

/-- A line of the memory-side directory: its tag, and the sectors of it that its core-side slice holds dirty (R97). -/
structure DirLine where
  line : Nat
  dirty : List Nat
  deriving DecidableEq, Repr

/-- A line of a partition's instruction buffer, with the number of its last use, 0 before the first (R376). -/
structure CodeLine where
  slot : Nat
  part : Nat
  va : Nat
  bytes : List Byte
  used : Nat
  deriving DecidableEq, Repr

/-- A line that a partition's instruction buffer fetches ahead (R376). -/
structure CodeAhead where
  slot : Nat
  part : Nat
  va : Nat
  deriving DecidableEq, Repr

/-- The lane a partition served last, and the number of that issue (R31). -/
structure Turn where
  part : Nat
  lane : Nat
  turn : Nat
  deriving DecidableEq, Repr

/-- A core that differs from an idle one (R3). `claim` is the launch of its fusion domain (R27), 0 for none. -/
structure Core where
  cl : Nat
  num : Nat
  carve : Option (Nat × Nat)
  l1 : List L1Sector
  sb : List SbEntry
  gens : Nat
  halted : Bool
  halting : Bool
  claim : Nat
  fusion : Nat
  code : List CodeLine
  ahead : List CodeAhead
  codeLaunch : Nat
  turns : List Turn
  deriving DecidableEq, Repr

/-! ## Engine commands -/

/-- The latch an operation counts on (R127): the team, the latch and whether the reference was cluster-absolute. -/
structure LatchTarget where
  uid : Nat
  lk : Nat
  far : Bool
  deriving DecidableEq, Repr

/-- Progress of an engine command: waiting its turn, at work, finished but not retired (R92, R132, R171). -/
inductive Stage where
  | queued
  | running
  | finished
  deriving DecidableEq, Repr

/-- A tile handle as read (R55). -/
structure Handle where
  base : Nat
  ext : List Nat
  stride : List Int
  fmt : Nat
  flags : Nat
  ndesc : Byte
  box : List Nat
  btab : Nat
  deriving DecidableEq, Repr

/-- Where a matrix drain writes (R177). A peer drain names the placement and the tile of its target, the latch it arrives
on, the exact elements once read, and its place in the order of the target's slot, 0 before it has reached it (R171,
R179). -/
inductive DrainTo where
  | regs (d : Nat)
  | scratch (marks : List Mark) (pitch : Nat)
  | global (hva : DWord) (origin : List Int) (raw : Option (List Byte)) (handle : Option Handle) (block : Nat)
  | peer (uid tile : Nat) (arrive : Option LatchTarget) (vals : Option (List LongAcc)) (pos : Nat)
  | queue
  deriving DecidableEq, Repr

/-- A `cpt` command (R317): the handle bytes once read, the scratchpad pieces once the box is known, and the table entry
of each outermost index (R57). -/
structure TileCmd where
  out : Bool
  hva : DWord
  origin : List Int
  sp : Word
  conv : Nat
  desc : Byte
  pitch : Nat
  raw : Option (List Byte)
  handle : Option Handle
  marks : List Mark
  blocks : List Nat
  deriving DecidableEq, Repr

/-- An `sld` request (R137): `sent` once it has reached its anchor, `solo` when it is served alone, `fill` what has been
sent to it. -/
structure SkeinReq where
  launch : Nat
  sk : Nat
  k : Nat
  va : Nat
  len : Nat
  off : Nat
  sent : Bool
  solo : Bool
  fill : Option (List Byte)
  deriving DecidableEq, Repr

/-- An `mloop` command (R172 to R174): `fetched` holds the blocks of the steps read ahead. -/
structure Loop where
  slot : Nat
  cfg : Word
  aVa : DWord
  bVa : DWord
  aOrg : List Int
  bOrg : List Int
  aInc : Int
  bInc : Int
  steps : Nat
  applied : Nat
  aRaw : Option (List Byte)
  bRaw : Option (List Byte)
  fetched : List (List Byte × List Byte)
  deriving DecidableEq, Repr

/-- An `xfer` transfer (R194 to R201): `armed` holds the latch, the threshold and the latch's phase count at issue
(R198), `data` what a response brought and has not been written. `entry` is the reduce-group entry at issue (R430),
`port` the port it was sent by, `sentNo` its place in the order of sending (R429), and `spoiled` says that a down message of another length or RTYPE came for it (R200). -/
structure Xfer where
  minor : Nat
  va : DWord
  marks : List Mark
  spl : Bool
  remote : DWord
  len : Nat
  rtype : Nat
  dev : Nat
  block : Nat
  armed : Option (Nat × Nat × Nat)
  entry : Word
  sent : Bool
  sentAt : Nat
  sentNo : Nat
  port : Nat
  spoiled : Bool
  data : Option (List Byte)
  deriving DecidableEq, Repr

/-- The body of an engine command: its operands as sampled at issue and its progress. `left` lists the parts, lines or
elements not yet done. -/
inductive OpBody where
  | copy (out : Bool) (va : DWord) (sp : List Mark) (left : List Nat)
  | tile (b : TileCmd) (left : List Nat)
  | skein (r : SkeinReq)
  | prefetch (va : DWord) (len : Nat) (left : List Nat)
  | mma (slot : Nat) (cfg : Word) (a b : List Byte)
  | mloop (l : Loop)
  | mscale (dst src : Nat) (sa sb : List Byte)
  | mzero (slot : Nat)
  | mdrain (slot : Nat) (dest : DrainTo) (vals : List Word) (left : List Nat)
  | mfact (hdr : Word) (n : Nat) (again : Bool)
  | mtrsm (hdr src dst : Word) (n r : Nat) (back : Bool) (row : Nat)
  | xfer (x : Xfer)
  deriving DecidableEq, Repr

/-- A 128-byte unit as a copy command first read it, by the number of its virtual address; `imaged`: its view then was a
whole image, which the command reads as one snapshot (R91). -/
structure UnitShot where
  unit : Nat
  imaged : Bool
  bytes : List Byte
  deriving DecidableEq, Repr

/-- An engine command outstanding on a counter (R314). `flags` gathers the flags to be ORed at retirement (R45); `fault`
is the fault word of a command that stopped; `dropped` says that parts of it were dropped with an exited place (R53,
R316); `shots` holds the units that a copy is in the middle of (R91); `place` is the place of its team, for
the fault entries of a request that outlives it (R418); `stop` is 0, or why it stopped early: 1 a deadline, 2 a fault, 3 its hypothesis refuted (R175). -/
structure EngOp where
  id : Nat
  uid : Nat
  gid : Nat
  cls : Nat
  seq : Nat
  slot : Nat
  cl : Nat
  core : Nat
  threads : List Nat
  hyp : Word
  round : Word
  lat : Option LatchTarget
  cnt : Bool
  arrived : Bool
  stage : Stage
  flags : Word
  fault : Option Word
  stop : Nat
  held : Option Nat
  parked : Bool
  failPages : List (Nat × Nat)
  wrote : Nat
  saved : Bool
  dropped : Bool
  shots : List UnitShot
  place : Nat
  body : OpBody
  deriving DecidableEq, Repr

/-- A gather at its anchor slice (R137); `full`: all members had joined when it fired (R140). -/
structure Gather where
  launch : Nat
  sk : Nat
  k : Nat
  va : Nat
  len : Nat
  deadline : Nat
  members : List Nat
  anchor : Nat
  closed : Bool
  held : Bool
  full : Bool
  deriving DecidableEq, Repr

/-- A skein of a launch (R135, R140). -/
structure Skein where
  sk : Nat
  n : Nat
  tmo : Nat
  members : List Nat
  timedOut : Nat
  late : Nat
  discarded : Nat
  deriving DecidableEq, Repr

/-! ## Launches, queues, messages -/

/-- How a launch began (R20). -/
inductive Origin where
  | host (ring : Nat) (tag : Word) (flags : Nat)
  | spawned
  | joined
  | message
  deriving DecidableEq, Repr

/-- A launch, kept while any of its teams is resident, saved or unplaced, and until its completion is written
(R20, R406). `status` is the completion status so far, `done` the time of its completion with a number that orders it. -/
structure Launch where
  id : Nat
  slot : Nat
  origin : Origin
  unplaced : Nat
  resident : Nat
  status : Nat
  skeins : List Skein
  fhz : Nat
  done : Option (Nat × Nat) := none
  deriving DecidableEq, Repr

/-- A record waiting in a cluster queue (R19): team indices `next` to `stop` - 1 are unplaced. `pin` is the core of a
PIN message, `msg` the source word and payload of an active message (R192), `spillAt` the offset of its entry in the spill
space of its process while it stands there (R400). -/
structure QRec where
  id : Nat
  record : Record
  hdr : Header
  launch : Nat
  slot : Nat
  pushed : Nat
  next : Nat
  stop : Nat
  prio : Nat
  raised : Bool
  pin : Option Nat
  msg : Option (Word × List Word)
  order : Nat
  spillAt : Option Nat := none
  deriving DecidableEq, Repr

/-- A carve reservation (R25): the core on which a cluster places no other carve, the carve, and the record it is for. -/
structure Reservation where
  core : Nat
  slots : Nat
  sp : Nat
  record : Nat
  deriving DecidableEq, Repr

/-- A cluster's record queues, its carve reservations, and the head records that wait for their carve, each with the time
since when (R19, R25). -/
structure Cluster where
  num : Nat
  queue : List QRec
  reserved : List Reservation
  waits : List (Nat × Nat)
  deriving DecidableEq, Repr

/-- A join block at work (R17): its decrement, when `owed`, else its record to be read and pushed. `waiter` is the group
whose `spawn.join` waits for it; `failed` says that the driver failed the read of a header (R15). -/
structure JoinPush where
  id : Nat
  slot : Nat
  cl : Nat
  core : Nat
  place : Nat
  block : DWord
  owed : Bool
  waiter : Option (Nat × Nat)
  parked : Bool
  failed : Bool
  deriving DecidableEq, Repr

/-- A launch entry whose header read waits for the driver (R15): its push, and only its push, is held. `failed` says that
the driver failed the read. -/
structure HeldEntry where
  id : Nat
  slot : Nat
  bytes : List Byte
  failed : Bool
  deriving DecidableEq, Repr

/-- An active message in the outbound buffer of its core or on its way (R191, R192). -/
structure Message where
  id : Nat
  slot : Nat
  cl : Nat
  core : Nat
  dst : Word
  prio : Nat
  idx : Nat
  entry : DWord
  frame : DWord
  table : DWord
  words : List Word
  src : Word
  parked : Bool
  failed : Bool
  deriving DecidableEq, Repr

/-- A request of a peer device held on a fault of this device's tables (R197). -/
structure RemoteHeld where
  id : Nat
  slot : Nat
  req : RemoteRequest
  deriving DecidableEq, Repr

/-- An `arrive.remote` on its way to its latch (R125). -/
structure LatchMsg where
  id : Nat
  uid : Nat
  lk : Nat
  deriving DecidableEq, Repr

/-- An `acqr` in progress (R84): `cut` lists the flights and buffer entries of the cut. -/
structure Acqr where
  id : Nat
  uid : Nat
  gid : Nat
  pc : DWord
  cl : Nat
  core : Nat
  arrived : Bool
  cutFlights : List Nat
  cutEntries : List Nat
  drained : Bool
  reported : Bool
  deriving DecidableEq, Repr

/-! ## Hypotheses -/

/-- State of a hypothesis ID (R146). -/
inductive HypState where
  | free
  | live
  | confirmed
  | refuted
  | capacity
  deriving DecidableEq, Repr

/-- What the domain keeps of an ID that is not free with generation 1 (R146). -/
structure Hyp where
  id : Nat
  gen : Nat
  st : HypState
  parent : Word
  depth : Nat
  deriving DecidableEq, Repr

/-- A version-store entry (R149): BYTES of a 64-byte sector, or the DELTA of a 128-byte unit. -/
inductive Version where
  | bytes (slot hyp sector : Nat) (data : List Host.Cell)
  | delta (slot hyp unit : Nat) (img : LongAcc)
  deriving DecidableEq, Repr

/-! ## Process slots and translation -/

/-- A TLB entry (R413, R414): pages are kept as first and last page number. -/
structure TlbEntry where
  asid : Nat
  first : Nat
  count : Nat
  ppn : Nat
  bits : Nat
  deriving DecidableEq, Repr

/-- An invalidation of translations in progress (R348, R416): `bound` is above the number of every access it waits for,
0 before it has begun; `host` marks one from TLBICTL. -/
structure Inval where
  id : Nat
  kind : Nat
  asid : Nat
  va : Nat
  bound : Nat
  host : Bool
  deriving DecidableEq, Repr

/-- Who waits for an answer to a fault entry (R418). -/
inductive Accessor where
  | group (uid gid : Nat)
  | op (oid : Nat)
  | gather (launch sk k : Nat)
  | join (jid : Nat)
  | message (mid : Nat)
  | launchEntry (slot : Nat)
  | spill (slot : Nat)
  | heldEntry (n : Nat)
  | remote (n : Nat)
  deriving DecidableEq, Repr

/-- A fault entry not answered yet (R418, R419). `written` is false while it waits for room in the buffer. -/
structure FaultPend where
  id : Nat
  slot : Nat
  page : Nat
  kind : Nat
  who : List Accessor
  written : Bool
  entry : List Byte
  deriving DecidableEq, Repr

/-- A process slot (R399, R415). -/
structure Slot where
  num : Nat
  en : Bool
  hold : Bool
  err : Nat
  teardown : Bool
  lqbase : DWord
  lqsize : Nat
  cqbase : DWord
  cqsize : Nat
  spbase : DWord
  spsize : Nat
  vec : Word
  ptbase : DWord
  asid : Nat
  xctl : Word
  fbbase : DWord
  fbsize : Nat
  fbpi : Nat
  fbci : Nat
  vsquota : Nat
  dldef : Nat
  podjob : Word
  lqpi : Nat
  lqci : Nat
  cqci : Nat
  cqpi : Nat
  hyps : List Hyp
  nextFault : Nat
  failPages : List (Nat × Nat)
  deriving DecidableEq, Repr

/-! ## Management -/

/-- State of a UALink port (R427, R428). -/
inductive PortState where
  | off
  | training
  | up
  | degraded
  | down
  deriving DecidableEq, Repr

/-- A UALink port (R427). -/
structure Port where
  num : Nat
  en : Bool
  st : PortState
  waves : BitVec 16
  replays : Nat
  crc : Nat
  since : Nat
  deriving DecidableEq, Repr

/-- A unit's error history (R440): times of its corrected events, newest first, and its marks (R442): `out` keeps teams
away from a marked core, or from the cores of a marked cluster network, until the next reset, also after a READMIT. -/
structure UnitLog where
  word : Word
  times : List Nat
  lasting : Bool
  retired : Bool
  out : Bool := false
  deriving DecidableEq, Repr

/-- What the device has sent to the outside: MSI-X vectors, data returned to the host, answers of the Arpex port. -/
inductive Output where
  | msix (vector : Nat)
  | hostData (bytes : List Byte) (poisoned : Bool)
  | arpex (code : Nat) (data : List Nat)
  | signed (who : Master) (slot : Nat) (measurements : List Nat) (signature : List Byte)
  | certificate (who : Master) (slot : Nat) (base : Bool) (registry : List Byte) (key : List Byte)
  | reading (v : Nat)
  | remote (req : RemoteRequest) (ok : Bool) (data : List Byte)
  | transfer (oid dev port : Nat) (job : BitVec 16) (header bytes : List Byte)
  | replay (oid port : Nat)
  deriving DecidableEq, Repr

/-- An acknowledgement that a peer device is owed, and the time from which it may go (R79, R194). -/
structure RemoteAck where
  req : RemoteRequest
  time : Nat
  deriving DecidableEq, Repr

/-- The boot block and the flash (R431 to R433). `booted`: the boot ROM has made its check since power came; `writing`
is the image that is being written over the flash image, `torn` says that the write of the flash image has not come to
its end, and `sums` holds measurements 1 and 2 of R434 as the last boot took them. -/
structure BootState where
  image : Option FlashImage
  writing : Option FlashImage
  torn : Bool
  sums : BitVec 384 × BitVec 384
  booted : Bool
  runningSvn : Nat
  minSvn : Nat
  reason : Nat
  recovery : Bool
  powered : Bool
  deriving DecidableEq, Repr

/-- The control key (R436): holder 0 none, 1 host, 2 Arpex; the global time it runs out. -/
structure Key where
  holder : Nat
  expires : Nat
  deriving DecidableEq, Repr

/-- Clock, power and thermal state (R444, R445). `reasons` holds CLKNOW [20:16], `sensors` the monitors by their offset,
`hot` the die sensors at 110 °C with the time they came there. -/
structure Power where
  clock : Nat
  reasons : Nat
  pcap : Nat
  sensors : List (Nat × Nat)
  hot : List (Nat × Nat)
  throttled : Bool
  tripped : Bool
  deriving DecidableEq, Repr

/-! ## The issue in hand and the schedule -/

/-- A trap taken in the chained set in hand. -/
structure TrapRec where
  thread : Nat
  cause : Nat
  datum : Word
  deriving DecidableEq, Repr

/-- The word the grouping stage is issuing (the MODEL's own field): the group, the active threads, the PC of the word
and of its chained set, the packet's literal, the group as it stood before the set, which every source read of the set
sees (R40), and the first number that the set may use (`start`). -/
structure Cur where
  uid : Nat
  gid : Nat
  active : List Nat
  pc : DWord
  setPc : DWord
  lit : Word
  word : Word
  snap : Group
  start : Nat
  traps : List TrapRec
  waiting : Bool
  deriving DecidableEq, Repr

/-- What happens next (the MODEL's own field, log 1): time passes, a device operation or an outside event takes place, a
group issues, a scratchpad access reaches its SRAM, the host writes its own memory, a sensor changes, a core-side slice
evicts a dirty sector, the host resizes Window 1, an ARPEX RESET of another value, a request for one certificate slot's
measurements or for its certificate. -/
inductive Sched where
  | tick (ns : Nat)
  | op (i : Instr)
  | issue (uid gid : Nat)
  | arrive (fid : Nat)
  | hostStore (hpa : Nat) (data : List Byte)
  | sensor (off value : Nat)
  | evict (sector : Nat)
  | resizeBar (log2 : Nat)
  | arpexReset (value : Nat)
  | spdm (who : Master) (slot : Nat)
  | certificate (who : Master) (slot : Nat)
  deriving DecidableEq, Repr

/-- The state of one DN4. -/
structure State where
  now : Nat
  schedule : List Sched
  free : Nat
  nextId : Nat
  cur : Option Cur
  mem : List Host.Cell
  sectors : List SectorTimes
  accUnits : List Nat
  poisoned : List Nat
  owned : List Nat
  directory : List DirLine
  writebacks : List Nat
  flights : List Flight
  versions : List Version
  tlb : List TlbEntry
  tlbBusy : List Inval
  tlbiVa : DWord
  vscfg : Nat
  vsRefused : Bool
  cores : List Core
  clusters : List Cluster
  teams : List Team
  saved : List (Team × Nat)
  ops : List EngOp
  gathers : List Gather
  launches : List Launch
  joins : List JoinPush
  heldEntries : List HeldEntry
  messages : List Message
  latchMsgs : List LatchMsg
  remotes : List RemoteHeld
  remoteAcks : List RemoteAck
  acqrs : List Acqr
  slots : List Slot
  faults : List FaultPend
  w1base : Nat
  w1size : Nat
  linkCxl : Bool
  linkCache : Bool
  msix : List (Nat × Nat)
  podcfg : Word
  ports : List Port
  reduce : List (Nat × Word)
  boot : BootState
  key : Key
  errlog : List (List Byte)
  errpi : Nat
  units : List UnitLog
  retSlices : List Nat
  lostWaves : List (Nat × Nat)
  linksDown : List Word
  power : Power
  output : List Output
  deriving DecidableEq, Repr

/-! ## Stops -/

/-- Why a step stops. -/
inductive Fault where
  /-- Raised by every word meaning when no group is issuing (`cur` is none): the model's own guard, which `step` never
  reaches. Safe. -/
  | noIssue
  deriving DecidableEq, Repr

/-- Why an instruction is refused. -/
inductive Refusal where
  /-- Raised by the arm of an instruction that has no meaning yet. Safe. -/
  | notModelled (mnemonic : String)
  deriving DecidableEq, Repr

/-! ## Reset -/

/-- A long accumulator of value 0 with its status clear (R29). -/
def LongAcc.zero : LongAcc := { seg := List.replicate 20 0, nan := false, pinf := false, ninf := false }

/-- A process slot after reset (R399, R415; the fields without a reset value are 0, log 4). -/
def Slot.reset (p : Nat) : Slot :=
  { num := p, en := false, hold := false, err := 0, teardown := false, lqbase := 0, lqsize := 0, cqbase := 0,
    cqsize := 0, spbase := 0, spsize := 0, vec := 0, ptbase := 0, asid := 0, xctl := 0, fbbase := 0, fbsize := 0,
    fbpi := 0, fbci := 0, vsquota := 0, dldef := 0, podjob := 0, lqpi := 0, lqci := 0, cqci := 0, cqpi := 0,
    hyps := [], nextFault := 1, failPages := [] }

/-- A port after reset (R427). -/
def Port.reset (n : Nat) : Port :=
  { num := n, en := false, st := .off, waves := 0, replays := 0, crc := 0, since := 0 }

/-- A cluster after reset: empty queues (R19). -/
def Cluster.reset (c : Nat) : Cluster := { num := c, queue := [], reserved := [], waits := [] }

/-- A core that holds nothing (R24: an empty core). -/
def Core.idle (cl num : Nat) : Core :=
  { cl := cl, num := num, carve := none, l1 := [], sb := [], gens := 0, halted := false, halting := false, claim := 0,
    fusion := 0, code := [], ahead := [], codeLaunch := 0, turns := [] }

/-- The device right after reset: no team is resident, every process slot is disabled, memory lists nothing. -/
def State.reset : State :=
  { now := 0, schedule := [], free := 0, nextId := 1, cur := none,
    mem := [], sectors := [], accUnits := [], poisoned := [], owned := [], directory := [], writebacks := [],
    flights := [], versions := [], tlb := [], tlbBusy := [], tlbiVa := 0, vscfg := 16, vsRefused := false,
    cores := [],
    clusters := [Cluster.reset 0, Cluster.reset 1, Cluster.reset 2, Cluster.reset 3, Cluster.reset 4, Cluster.reset 5,
      Cluster.reset 6, Cluster.reset 7],
    teams := [], saved := [], ops := [], gathers := [], launches := [], joins := [],
    heldEntries := [], messages := [], latchMsgs := [], remotes := [], remoteAcks := [],
    acqrs := [],
    slots := (List.range 64).map Slot.reset,
    faults := [], w1base := 0, w1size := 2 ^ 40, linkCxl := false, linkCache := false, msix := [],
    podcfg := 0, ports := (List.range 16).map Port.reset, reduce := [],
    boot := { image := none, writing := none, torn := false, sums := (0, 0), booted := false, runningSvn := 0,
              minSvn := 0, reason := 0, recovery := false, powered := true },
    key := { holder := 0, expires := 0 },
    errlog := [], errpi := 0, units := [], retSlices := [], lostWaves := [], linksDown := [],
    power := { clock := 1700, reasons := 0, pcap := 3200, sensors := [], hot := [], throttled := false, tripped := false },
    output := [] }

end Sys2Proof.Machine
end

