-- ==== Sys2Proof/Machine/Access.lean ====
section
/-! DEFINITION. Accessors of the state: teams, groups, threads, cores, slots, registers, program counters. -/

namespace Sys2Proof.Machine

open Sys2Proof

/-! ## Parts of the state -/

/-- The resident team of a placement. -/
def State.team? (s : State) (uid : Nat) : Option Team := s.teams.find? fun t => t.uid == uid

/-- A team changed in place. -/
def State.mapTeam (s : State) (uid : Nat) (f : Team → Team) : State :=
  { s with teams := s.teams.map fun t => if t.uid = uid then f t else t }

/-- A group of a team. -/
def State.group? (s : State) (uid gid : Nat) : Option Group := (s.team? uid).bind fun t => t.groups[gid]?

/-- A group changed in place. -/
def Team.mapGroup (t : Team) (gid : Nat) (f : Group → Group) : Team := { t with groups := t.groups.modify gid f }

/-- A group of a team changed in place. -/
def State.mapGroup (s : State) (uid gid : Nat) (f : Group → Group) : State := s.mapTeam uid fun t => t.mapGroup gid f

/-- A thread changed in place. -/
def Group.mapThread (g : Group) (t : Nat) (f : Thread → Thread) : Group := { g with threads := g.threads.modify t f }

/-- Some threads changed in place. -/
def Group.mapThreads (g : Group) (ts : List Nat) (f : Nat → Thread → Thread) : Group :=
  { g with threads := g.threads.mapIdx fun i th => if ts.contains i then f i th else th }

/-- A core; one not listed is idle. -/
def State.core (s : State) (cl num : Nat) : Core :=
  (s.cores.find? fun c => c.cl == cl && c.num == num).getD (Core.idle cl num)

/-- A core changed. -/
def State.mapCore (s : State) (cl num : Nat) (f : Core → Core) : State :=
  if s.cores.any fun c => c.cl == cl && c.num == num then
    { s with cores := s.cores.map fun c => if c.cl = cl ∧ c.num = num then f c else c }
  else { s with cores := s.cores ++ [f (Core.idle cl num)] }

/-- A process slot. -/
def State.slot (s : State) (p : Nat) : Slot := (s.slots.find? fun x => x.num == p).getD (Slot.reset p)

/-- A process slot changed. -/
def State.mapSlot (s : State) (p : Nat) (f : Slot → Slot) : State :=
  { s with slots := s.slots.map fun x => if x.num = p then f x else x }

/-- A cluster. -/
def State.cluster (s : State) (c : Nat) : Cluster := (s.clusters.find? fun x => x.num == c).getD (Cluster.reset c)

/-- A cluster changed. -/
def State.mapCluster (s : State) (c : Nat) (f : Cluster → Cluster) : State :=
  { s with clusters := s.clusters.map fun x => if x.num = c then f x else x }

/-- A launch changed. -/
def State.mapLaunch (s : State) (id : Nat) (f : Launch → Launch) : State :=
  { s with launches := s.launches.map fun x => if x.id = id then f x else x }

/-- An engine command changed. -/
def State.mapOp (s : State) (id : Nat) (f : EngOp → EngOp) : State :=
  { s with ops := s.ops.map fun x => if x.id = id then f x else x }

/-- A flight changed. -/
def State.mapFlight (s : State) (id : Nat) (f : Flight → Flight) : State :=
  { s with flights := s.flights.map fun x => if x.id = id then f x else x }

/-! ## Teams and groups -/

/-- Threads of a group (R10). -/
def Header.groupWidth (h : Header) : Nat := if h.width = 0 then 16 else if h.width = 1 then 32 else 64

/-- The core a group runs on; group g of a hinged team runs on the even core or the odd one (R26). -/
def Team.coreOf (t : Team) (gid : Nat) : Nat := if t.record.hinged then t.core + gid % 2 else t.core

/-- The team stands on a core, on either one of a hinged pair (R26). -/
def Team.onCore (t : Team) (cl core : Nat) : Bool := t.cl == cl && (t.core == core || (t.record.hinged && t.core + 1 == core))

/-- The cores of the fusion domain of a core (R27). -/
def domainOf (d core : Nat) : List Nat := if d = 0 then [core] else (List.range d).map (· + core / d * d)

/-- Bytes of the team's scratchpad (R24, R26, R50). -/
def Team.spBytes (t : Team) : Nat := t.record.sp * 1024 * (if t.record.hinged then 2 else 1)

/-- Live threads of a group, ascending. -/
def Group.live (g : Group) : List Nat := (List.range g.threads.length).filter fun t => (g.threads[t]?.map (·.live)).getD false

/-- A core's team places for a carve (R24). -/
def places (slots sp : Nat) : Nat :=
  let a := 32 * slots + sp
  if a = 0 then 32 else min 32 (448 / a)

/-- The team that holds a place of a core, on either core of a hinged pair (R26, R51). -/
def State.teamAt (s : State) (cl core place : Nat) : Option Team :=
  s.teams.find? fun t =>
    t.cl == cl && t.place == place && (t.core == core || (t.record.hinged && t.core + 1 == core))

/-! ## Units (R438) -/

/-- The unit word of a core. -/
def unitCore (cl core : Nat) : Word := BitVec.ofNat 32 (0x10000000 + 256 * cl + core)
/-- The unit word of a cluster network. -/
def unitCluster (cl : Nat) : Word := BitVec.ofNat 32 (0x20000000 + cl)

/-- The history of a unit (R440). -/
def State.unit (s : State) (w : Word) : UnitLog :=
  (s.units.find? fun u => u.word == w).getD { word := w, times := [], lasting := false, retired := false }

/-- The history of a unit changed. -/
def State.setUnit (s : State) (u : UnitLog) : State :=
  { s with units := u :: s.units.filter fun x => x.word != u.word }

/-- The core takes no team: it, or its cluster network, is lasting-faulted or retired, or has been since the last reset
(R442). -/
def State.coreOut (s : State) (cl core : Nat) : Bool :=
  let a := s.unit (unitCore cl core)
  let b := s.unit (unitCluster cl)
  a.lasting || a.retired || a.out || b.lasting || b.retired || b.out

/-- A core is retired (R84, R442): it, or its cluster network, waits for a reset, or its network is marked and it holds no
team. -/
def State.coreRetired (s : State) (cl core : Nat) : Bool :=
  (s.unit (unitCore cl core)).retired || (s.unit (unitCluster cl)).retired
    || ((s.unit (unitCluster cl)).lasting
      && !(s.teams.any fun t => t.onCore cl core))

/-- The network of a cluster is not DOWN (R437). -/
def State.netUp (s : State) (cl : Nat) : Bool := !s.linksDown.contains (unitCluster cl)

/-- The unit word of the host link. -/
def unitHost : Word := 0x80000000

/-! ## Program counters (R203) -/

/-- The packet of a program counter. -/
def packetOf (pc : DWord) : DWord := pc &&& ~~~(0xF : DWord)

/-- The slot of a program counter. -/
def slotOf (pc : DWord) : Nat := (pc.extractLsb' 2 2).toNat

/-- A program counter has 48 bits; a step or a branch past either end of the space wraps (R203, log 61). -/
def pcWrap (pc : DWord) : DWord := pc &&& 0xFFFFFFFFFFFF

/-- The slot after `pc`, or slot 0 of the next packet (R203). -/
def nextPc (pc : DWord) : DWord := pcWrap (if slotOf pc = 2 then packetOf pc + 16 else pc + 4)

/-- A PC that a transfer may name: [1:0] zero and slot 0 to 2 (R203). -/
def pcOk (pc : DWord) : Bool := pc.extractLsb' 0 2 == 0 && slotOf pc != 3

/-! ## Registers (R39) -/

/-- An ABSENT register of value 0. -/
def Reg.absent : Reg := { val := 0, st := .absent, prod := 0 }

/-- A FULL register. -/
def Reg.full (v : Word) : Reg := { val := v, st := .full, prod := 0 }

/-- The register of a field for a thread (R216). -/
def Group.reg (g : Group) (u : Bool) (t n : Nat) : Reg :=
  if u then g.g.getD n Reg.absent
  else if n < 56 then ((g.threads[t]?).bind fun th => th.v[n]?).getD Reg.absent
  else g.g.getD (n - 56) Reg.absent

/-- A value put among those once held, without repeats; zero is always among them (R39). -/
def remember (held : List Word) (w : Word) : List Word := if w = 0 ∨ held.contains w then held else w :: held

/-- A g register changed. -/
def Group.setG (g : Group) (n : Nat) (f : Reg → Reg) : Group :=
  { g with held := remember g.held (g.g.getD n Reg.absent).val, g := g.g.modify n f }

/-- A v register changed. -/
def Thread.setV (th : Thread) (n : Nat) (f : Reg → Reg) : Thread :=
  { th with held := remember th.held (th.v.getD n Reg.absent).val, v := th.v.modify n f }

/-- The register of a field changed for a thread; fields 56 to 63 of a per-thread word are g0 to g7 (R216). -/
def Group.setReg (g : Group) (u : Bool) (t n : Nat) (f : Reg → Reg) : Group :=
  if u then g.setG n f
  else if n < 56 then g.mapThread t fun th => th.setV n f
  else g.setG (n - 56) f

/-- The write of a value makes the register FULL (R39). -/
def Group.writeReg (g : Group) (u : Bool) (t n : Nat) (v : Word) : Group := g.setReg u t n fun _ => Reg.full v

/-- The issue of a long-latency producer makes the register EMPTY (R39). -/
def Group.emptyReg (g : Group) (u : Bool) (t n prod : Nat) : Group :=
  g.setReg u t n fun r => { r with st := .empty, prod := prod }

/-- A K mark, `free` or a thread's exit makes the register ABSENT (R39, R40). -/
def Group.freeReg (g : Group) (u : Bool) (t n : Nat) : Group :=
  g.setReg u t n fun r => { r with st := .absent, prod := 0 }

/-- A producer of a g register has completed: the values of the older `qpop`s of it that still wait are never seen
(R39). -/
def Group.voidPops (g : Group) (n prod : Nat) : Group :=
  { g with threads := g.threads.map fun th =>
      match th.popping with
      | some (true, d, k) => if d = n ∧ k < prod then { th with popping := some (true, d, 0) } else th
      | _ => th }

/-- A producer completes: the register becomes FULL when no younger producer is outstanding (R39). -/
def Group.completeReg (g : Group) (u : Bool) (t n prod : Nat) (v : Word) : Group :=
  (if u then g.voidPops n prod else g).setReg u t n fun r => if r.prod = prod ∧ prod ≠ 0 then Reg.full v else r

/-- The values a read of an ABSENT register may give in undef mode: 0, or a value the thread, or for a g register the
group, holds or held in any of its registers (R39, log 6). -/
def Group.absentChoices (g : Group) (u : Bool) (t n : Nat) : List Word :=
  if u ∨ 56 ≤ n then 0 :: (g.g.map (·.val) ++ g.held)
  else match g.threads[t]? with
    | some th => 0 :: (th.v.map (·.val) ++ th.held)
    | none => [0]

/-- FREE VALUE (log 6): the value of the `k`-th read of an ABSENT register in undef mode. -/
def Group.absentValue (g : Group) (u : Bool) (t n k : Nat) : Word :=
  let l := g.absentChoices u t n
  l.getD (Config.absentPick k % l.length) 0

/-- Flags ORed into `fst` of some threads (R45, R104). -/
def Group.orFlags (g : Group) (ts : List Nat) (fl : Word) : Group :=
  if fl = 0 then g else g.mapThreads ts fun _ th => { th with fst := th.fst ||| fl }

/-! ## Lists -/

/-- The smallest of the numbers of a list, with a default for none. -/
def minOf (d : Nat) (l : List Nat) : Nat := l.foldl min d

/-- An item put into a list that rises by a key, after those of the same key. -/
def insertBy {α : Type} (key : α → Nat) (x : α) : List α → List α
  | [] => [x]
  | y :: rest => if key x < key y then x :: y :: rest else y :: insertBy key x rest

/-- A list in the order of a key. -/
def sortBy {α : Type} (key : α → Nat) (l : List α) : List α := l.foldl (fun l x => insertBy key x l) []

/-- The item of a list with the least key, the first such. -/
def leastBy {α : Type} (key : α → Nat) : List α → Option α
  | [] => none
  | x :: rest => match leastBy key rest with
    | none => some x
    | some y => if key x ≤ key y then some x else some y

end Sys2Proof.Machine
end

