-- ==== Sys2Proof/Machine/LongAcc.lean ====
section
/-! DEFINITION. The long accumulator (R116 to R123): terms, the carry rule, full resolution, merges, final rounding,
scaling and the spill image. -/

namespace Sys2Proof.Machine

open Sys2Proof

/-- S_19 wrapped into [-2^39, 2^39) (R118). -/
def wrap40 (x : Int) : Int := (x + 2 ^ 39) % 2 ^ 40 - 2 ^ 39

/-- The carry rule from one segment upward (R118); with `all` every segment carries, which is full resolution (R119).
`k` is the carry coming in. -/
def carrySegs (all : Bool) : Int → List Int → List Int
  | _, [] => []
  | k, [s] => [wrap40 (s + k)]
  | k, s :: rest =>
    let x := s + k
    if all || decide (2 ^ 38 ≤ x) || decide (x < -(2 ^ 38)) then (x % 2 ^ 32) :: carrySegs all (x / 2 ^ 32) rest
    else x :: carrySegs all 0 rest

/-- The carry rule (R118). -/
def LongAcc.carry (c : LongAcc) : LongAcc := { c with seg := carrySegs false 0 c.seg }

/-- Full resolution (R119). -/
def LongAcc.resolve (c : LongAcc) : LongAcc := { c with seg := carrySegs true 0 c.seg }

/-- The segment-wise sum of two lists. -/
def addSegs (a b : List Int) : List Int := List.zipWith (· + ·) a b

/-- Merge of `b` into `a`: segments added, then the carry rule; status ORed (R120). -/
def LongAcc.merge (a b : LongAcc) : LongAcc :=
  { seg := carrySegs false 0 (addSegs a.seg b.seg), nan := a.nan || b.nan, pinf := a.pinf || b.pinf,
    ninf := a.ninf || b.ninf }

/-- `k` base-2^32 digits of n, the last one taking all that is left. -/
def digits32 : Nat → Nat → List Nat
  | 0, _ => []
  | 1, n => [n]
  | k + 2, n => n % 2 ^ 32 :: digits32 (k + 1) (n / 2 ^ 32)

/-- The digits of |n| with the sign of n, for n in units of 2^-320 (R117). -/
def termSegs (n : Int) : List Int := (digits32 20 n.natAbs).map fun (d : Nat) => if n < 0 then -(d : Int) else (d : Int)

/-- A finite term of n units added (R117). -/
def LongAcc.addUnits (c : LongAcc) (n : Int) : LongAcc := { c with seg := carrySegs false 0 (addSegs c.seg (termSegs n)) }

/-- The finite value (-1)^s * m * 2^e in units of 2^-320; e + 320 is never negative for a term of R117. -/
def units (s : Bool) (m : Nat) (e : Int) : Int := if s then -(shiftInt m (e + 320) : Int) else shiftInt m (e + 320)

/-- A term added, with the flags it raises (R117). -/
def LongAcc.addVal (c : LongAcc) (x : FVal) : LongAcc × Word :=
  match x with
  | .nan sig => ({ c with nan := true }, if sig then flagIV else 0)
  | .inf true => ({ c with ninf := true }, 0)
  | .inf false => ({ c with pinf := true }, 0)
  | .fin s m e => (c.addUnits (units s m e), 0)

/-- An exact product (R117): a signalling operand raises IV, infinity times zero sets NAN and raises IV. -/
def LongAcc.addProd (c : LongAcc) (x y : FVal) : LongAcc × Word :=
  match x, y with
  | .nan s, .nan t => ({ c with nan := true }, if s || t then flagIV else 0)
  | .nan s, _ => ({ c with nan := true }, if s then flagIV else 0)
  | _, .nan t => ({ c with nan := true }, if t then flagIV else 0)
  | .inf _, .fin _ 0 _ => ({ c with nan := true }, flagIV)
  | .fin _ 0 _, .inf _ => ({ c with nan := true }, flagIV)
  | .inf s, .inf t => c.addVal (.inf (s != t))
  | .inf s, .fin t _ _ => c.addVal (.inf (s != t))
  | .fin s _ _, .inf t => c.addVal (.inf (s != t))
  | .fin s m e, .fin t n g => (c.addUnits (units (s != t) (m * n) (e + g)), 0)

/-- Sum of S_i * 2^(32 i). -/
def segSum : List Int → Int
  | [] => 0
  | s :: rest => s + 2 ^ 32 * segSum rest

/-- V in units of 2^-320 (R116). -/
def LongAcc.value (c : LongAcc) : Int := (segSum c.seg + 2 ^ 647) % 2 ^ 648 - 2 ^ 647

/-- The accumulator of value n in its fully resolved form, status clear. -/
def LongAcc.ofUnits (n : Int) : LongAcc := (LongAcc.zero.addUnits ((n + 2 ^ 647) % 2 ^ 648 - 2 ^ 647)).resolve

/-- WRAP of a final rounding: the fully resolved value lies at the edge of the range (R121, R122). -/
def LongAcc.edge (c : LongAcc) : Word :=
  match c.resolve.seg.getLast? with
  | some t => if 2 ^ 38 ≤ t ∨ t < -(2 ^ 38) then flagWRAP else 0
  | none => 0

/-- A final rounding to an IEEE format (R121). -/
def LongAcc.round (c : LongAcc) (f : Fmt) (mode : RMode) (sat : Bool) : Nat × Word :=
  if c.nan || (c.pinf && c.ninf) then (f.nan, 0)
  else if c.pinf then (f.inf false, 0)
  else if c.ninf then (f.inf true, 0)
  else
    let v := c.value
    let w := c.edge
    if v = 0 then (0, w)
    else
      let r := f.round mode sat (v < 0) v.natAbs (-320)
      (r.1, r.2 ||| w)

/-- A final rounding to s32 (R108, R121). -/
def LongAcc.roundS32 (c : LongAcc) (mode : RMode) (sat : Bool) : Word × Word :=
  let go := fun x : FVal => toInteger (-(2 ^ 31)) (2 ^ 31 - 1) mode sat x
  let r :=
    if c.nan || (c.pinf && c.ninf) then go (.nan false)
    else if c.pinf then go (.inf false)
    else if c.ninf then go (.inf true)
    else
      let r := go (.fin (c.value < 0) c.value.natAbs (-320))
      (r.1, r.2 ||| c.edge)
  (BitVec.ofInt 32 r.1, r.2)

/-- The value times 2^e (R286): bits below 2^-320 are cut toward minus infinity with NX, bits above wrap. -/
def LongAcc.shift (c : LongAcc) (e : Int) : LongAcc × Word :=
  let v := c.value
  let keep := fun (n : Int) (fl : Word) => ({ LongAcc.ofUnits n with nan := c.nan, pinf := c.pinf, ninf := c.ninf }, fl)
  if 648 ≤ e then keep 0 0
  else if e ≤ -648 then (if v < 0 then keep (-1) flagNX else keep 0 (if v = 0 then 0 else flagNX))
  else if 0 ≤ e then keep (v * 2 ^ e.toNat) 0
  else
    let k := (-e).toNat
    keep (v / 2 ^ k) (if v % 2 ^ k = 0 then 0 else flagNX)

/-- The low `n` bytes of an integer in two's complement, little-endian. -/
def intBytes : Nat → Int → List Byte
  | 0, _ => []
  | n + 1, x => BitVec.ofInt 8 x :: intBytes n (x / 256)


/-- A little-endian byte list as a signed number. -/
def bytesInt (l : List Byte) : Int :=
  let n := leNat l
  if 2 * n ≥ 2 ^ (8 * l.length) then (n : Int) - 2 ^ (8 * l.length) else n

/-- The status word of a spill image (R123). -/
def LongAcc.status (c : LongAcc) : Nat := (if c.nan then 1 else 0) + (if c.pinf then 2 else 0) + (if c.ninf then 4 else 0)

/-- The spill image with the segments as held (R123). -/
def LongAcc.image (c : LongAcc) : List Byte :=
  c.seg.flatMap (intBytes 5) ++ intBytes 4 c.status ++ List.replicate 24 0

/-- Segments of an image, five bytes each. -/
def imageSegs : Nat → List Byte → List Int
  | 0, _ => []
  | n + 1, l => bytesInt (l.take 5) :: imageSegs n (l.drop 5)

/-- An image as written, before the carry rule of R118. -/
def LongAcc.ofImageRaw (l : List Byte) : LongAcc :=
  let st := leNat ((l.drop 100).take 4)
  { seg := imageSegs 20 l, nan := st.testBit 0, pinf := st.testBit 1, ninf := st.testBit 2 }

/-- The accumulator loaded from an image: S_i as written, then R118 (R123, R292). -/
def LongAcc.ofImage (l : List Byte) : LongAcc := (LongAcc.ofImageRaw l).carry

/-- Equal values and equal status (R116). -/
def LongAcc.eqv (a b : LongAcc) : Bool := a.value == b.value && a.status == b.status

end Sys2Proof.Machine
end

