-- ==== Sys2Proof/Machine/Slice.lean ====
section
/-! DEFINITION. The home slices: committed bytes and their times (R69, R73, R74), atomic operations (R304), the ACC
state (R90, R91), poison (R439), and the version stores of hypotheses with their views (R145 to R151). A physical
address of 2^51 or more is host memory (R412). -/

namespace Sys2Proof.Machine

open Sys2Proof

/-- A physical address in host memory (R412). -/
def isHost (pa : Nat) : Bool := decide (2 ^ 51 ≤ pa)

/-- The 64-byte sectors of a byte range. -/
def sectorsOf (pa n : Nat) : List Nat := (List.range ((pa + n - 1) / 64 + 1 - pa / 64)).map (· + pa / 64)

/-- The 128-byte units of a byte range. -/
def unitsOf (pa n : Nat) : List Nat := (List.range ((pa + n - 1) / 128 + 1 - pa / 128)).map (· + pa / 128)

/-- The times a slice keeps of a sector (R73). -/
def State.times (s : State) (sec : Nat) : SectorTimes :=
  (s.sectors.find? fun x => x.sector == sec).getD { sector := sec, expiry := 0, stamp := 0 }

/-- The times of a sector changed. -/
def State.setTimes (s : State) (x : SectorTimes) : State :=
  { s with sectors := x :: s.sectors.filter fun y => y.sector != x.sector }

/-- A unit in the ACC state normalised in place (R91). -/
def State.normaliseUnit (s : State) (u : Nat) : State :=
  if s.accUnits.contains u then
    { s with mem := Memory.writeN s.mem (128 * u) ((LongAcc.ofImage (Memory.readN s.mem (128 * u) 128)).resolve.image) }
  else s

/-- The units of a range normalised (R91). -/
def State.normalise (s : State) (pa n : Nat) : State := (unitsOf pa n).foldl State.normaliseUnit s

/-- The units of a range normalised and out of the ACC state (R91). -/
def State.leaveAcc (s : State) (pa n : Nat) : State :=
  let s' := s.normalise pa n
  { s' with accUnits := s'.accUnits.filter fun u => !(unitsOf pa n).contains u }

/-- The completion time of a write to a range: now, or the latest expiry granted on its sectors (R74). -/
def State.completion (s : State) (pa n : Nat) : Nat := (sectorsOf pa n).foldl (fun c sec => max c (s.times sec).expiry) s.now

/-- The home slices gain exclusive ownership of the sectors of a range before they write it for an access whose mapping
is tracked (R89, R95); a write through an untracked mapping of the same page gains nothing (R98). -/
def State.gainSectors (s : State) (tracked : Bool) (pa n : Nat) : State :=
  if tracked ∧ isHost pa then
    { s with owned := (sectorsOf pa n) ++ s.owned.filter fun sec => !(sectorsOf pa n).contains sec }
  else s

/-- A sector of a line marked dirty in the directory, under the line's one tag (R97). -/
def markDirty (l : List DirLine) (sec : Nat) : List DirLine :=
  let old := ((l.find? fun x => x.line == sec / 4).map (·.dirty)).getD []
  if old.contains (sec % 4) then l
  else { line := sec / 4, dirty := sec % 4 :: old } :: l.filter fun x => x.line != sec / 4

/-- A sector of a line no longer dirty; a line without dirty sectors gives its tag up (R97). -/
def clearDirty (l : List DirLine) (sec : Nat) : List DirLine :=
  (l.map fun x => if x.line = sec / 4 then { x with dirty := x.dirty.erase (sec % 4) } else x).filter fun x => x.dirty != []

/-- A core-side slice holds a sector dirty (R97). -/
def State.isDirty (s : State) (sec : Nat) : Bool := s.directory.any fun x => x.line == sec / 4 && x.dirty.contains (sec % 4)

/-- The write-back of a dirty sector of device memory is on its way at once; until it is acknowledged the slice answers
snoops of the sector (R97). -/
def State.writeBack (s : State) (sec : Nat) : State :=
  { s.normalise (64 * sec) 64 with directory := clearDirty s.directory sec, writebacks := s.writebacks.erase sec ++ [sec] }

/-- The sectors that core-side slices hold dirty (R97). -/
def State.dirtySectors (s : State) : List Nat := s.directory.flatMap fun x => x.dirty.map (4 * x.line + ·)

/-- A sector's write time stamp set to its completion time (R74); its slice holds a sector of device memory dirty now
(R97). -/
def State.stampSector (s : State) (sec : Nat) : State :=
  let s := s.setTimes { s.times sec with stamp := max s.now (s.times sec).expiry }
  if isHost (64 * sec) then s else { s with directory := markDirty s.directory sec }

/-- The write time stamp of every sector of a range set to the sector's completion time (R73, R74). -/
def State.stampRange (s : State) (pa n : Nat) : State := (sectorsOf pa n).foldl State.stampSector s

/-- Sectors that a write covers whole lose their poison (R439). -/
def State.clearPoison (s : State) (pa n : Nat) : State :=
  { s with poisoned := s.poisoned.filter fun sec => !(decide (pa ≤ 64 * sec) && decide (64 * sec + 64 ≤ pa + n)) }

/-- Bytes performed at their home slices: the state and the completion time (R69, R74). -/
def State.commit (s : State) (pa : Nat) (bytes : List Byte) : State × Nat :=
  let n := bytes.length
  if n = 0 then (s, s.now)
  else
    let s := s.leaveAcc pa n
    let c := s.completion pa n
    let s := (s.stampRange pa n).clearPoison pa n
    ({ s with mem := Memory.writeN s.mem pa bytes }, c)

/-- The masked bytes of one sector performed at its home slice, as a store-buffer entry drains (R70, R74). -/
def State.commitCells (s : State) (sec : Nat) (cells : List Host.Cell) : State × Nat :=
  let s := s.leaveAcc (64 * sec) 64
  let c := s.completion (64 * sec) 64
  let s := s.stampRange (64 * sec) 64
  let s := if cells.length = 64 then s.clearPoison (64 * sec) 64 else s
  ({ s with mem := Memory.writeCells s.mem cells }, c)

/-- Bytes read at their home slices, ACC units normalised first (R91). -/
def State.sliceRead (s : State) (pa n : Nat) : State × List Byte :=
  let s := s.normalise pa n
  (s, Memory.readN s.mem pa n)

/-- Some byte of a range lies in a poisoned sector (R439). -/
def State.isPoisoned (s : State) (pa n : Nat) : Bool := (sectorsOf pa n).any s.poisoned.contains

/-! ## Atomic operations (R304) -/

/-- A number of `size` bytes read as signed. -/
def asSigned (size x : Nat) : Int := if 2 * x ≥ 2 ^ (8 * size) then (x : Int) - 2 ^ (8 * size) else x

/-- What an atomic writes over `m` with operand `b`, `c` the compare value of cas; none when it writes nothing. -/
def AtomOp.apply (op : AtomOp) (size m b c : Nat) : Option Nat :=
  let w := 2 ^ (8 * size)
  match op with
  | .add => some ((m + b) % w)
  | .sub => some ((m + w - b) % w)
  | .minS => some (if asSigned size m ≤ asSigned size b then m else b)
  | .minZ => some (min m b)
  | .maxS => some (if asSigned size m ≥ asSigned size b then m else b)
  | .maxZ => some (max m b)
  | .and => some (m &&& b)
  | .or => some (m ||| b)
  | .xor => some (m ^^^ b)
  | .swap => some b
  | .cas => if m = c then some b else none
  | .incWrap => some (if m ≥ b then 0 else m + 1)
  | .decWrap => some (if m = 0 ∨ m > b then b else m - 1)

/-- An atomic performed at its home slice: the state, the old value's bytes, the completion time (R74, R88). -/
def State.sliceAtomic (s : State) (op : AtomOp) (pa size b c : Nat) : State × List Byte × Nat :=
  let s := s.leaveAcc pa size
  let old := Memory.readN s.mem pa size
  match op.apply size (leNat old) b c with
  | some n => let r := s.commit pa (leBytes size n); (r.1, old, r.2)
  | none => let t := s.completion pa size; (s.stampRange pa size, old, t)

/-- An image merged into a unit, which enters the ACC state (R90). -/
def State.sliceMerge (s : State) (pa : Nat) (img : LongAcc) : State × Nat :=
  let u := pa / 128
  let c := s.completion pa 128
  let old := LongAcc.ofImageRaw (Memory.readN s.mem pa 128)
  let s := s.stampRange pa 128
  ({ s with mem := Memory.writeN s.mem pa (old.merge img).image,
            accUnits := if s.accUnits.contains u then s.accUnits else u :: s.accUnits }, c)

/-! ## Home slices (R62) -/

/-- The home slice of a physical address; a retired slice is replaced by the next one in service (R62). -/
def homeFrom (retired : List Nat) : Nat → Nat → Nat
  | 0, h => h
  | fuel + 1, h => if retired.contains h then homeFrom retired fuel ((h + 1) % Config.slices) else h

/-- The home slice of a physical address (R62). -/
def State.home (s : State) (pa : Nat) : Nat :=
  let l := pa % 2 ^ 48 / 256
  homeFrom s.retSlices Config.slices ((l ^^^ (l / 2 ^ 13) ^^^ (l / 2 ^ 26)) % Config.slices)

/-! ## Hypotheses and their versions (R145 to R151) -/

/-- The domain's record of an ID; an ID not listed is free with generation 1 (R146). -/
def Slot.hyp (sl : Slot) (id : Nat) : Hyp :=
  (sl.hyps.find? fun h => h.id == id).getD { id := id, gen := 1, st := .free, parent := 0, depth := 0 }

/-- A record of the domain changed. -/
def Slot.setHyp (sl : Slot) (h : Hyp) : Slot := { sl with hyps := h :: sl.hyps.filter fun x => x.id != h.id }

/-- ID of a handle (R145). -/
def hypId (h : Word) : Nat := (h.extractLsb' 0 8).toNat
/-- GEN of a handle (R145). -/
def hypGen (h : Word) : Nat := (h.extractLsb' 8 12).toNat
/-- The handle of an ID and a generation (R145). -/
def hypHandle (id gen : Nat) : Word := BitVec.ofNat 32 (id + 256 * gen)

/-- The handle names the hypothesis its ID holds now (R145). -/
def Slot.current (sl : Slot) (h : Word) : Bool := hypId h != 0 && (sl.hyp (hypId h)).gen == hypGen h

/-- The IDs from the root downwards to `id`, the root left out. -/
def Slot.hypChain (sl : Slot) : Nat → Nat → List Nat
  | 0, _ => []
  | fuel + 1, id => if id = 0 then [] else sl.hypChain fuel (hypId (sl.hyp id).parent) ++ [id]

/-- The unit bytes of a hypothesis laid over those of its parent (R150). -/
def State.overlay (s : State) (slot u : Nat) (bytes : List Byte) (id : Nat) : List Byte :=
  s.versions.foldl (fun l v =>
    match v with
    | .bytes p h sec data =>
      if p = slot ∧ h = id ∧ sec / 2 = u then
        data.foldl (fun l c => l.set (c.1 - 128 * u) c.2) l
      else l
    | .delta p h w img =>
      if p = slot ∧ h = id ∧ w = u then ((LongAcc.ofImageRaw l).merge img).resolve.image else l) bytes

/-- view(h) of a 128-byte unit (R150). -/
def State.viewUnit (s : State) (slot id u : Nat) : List Byte :=
  let base := Memory.readN (s.normaliseUnit u).mem (128 * u) 128
  ((s.slot slot).hypChain 32 id).foldl (fun l h => s.overlay slot u l h) base

/-- view(h) of a byte range (R150). -/
def State.viewRead (s : State) (slot id pa n : Nat) : List Byte :=
  ((((unitsOf pa n).flatMap fun u => s.viewUnit slot id u)).drop (pa % 128)).take n

/-- Version-store entries a version takes (R149). -/
def Version.cost (v : Version) : Nat :=
  match v with
  | .bytes _ _ _ _ => 1
  | .delta _ _ _ _ => 2

/-- The home of a version and the slot it belongs to. -/
def State.versionHome (s : State) (v : Version) : Nat :=
  match v with
  | .bytes _ _ sec _ => s.home (64 * sec)
  | .delta _ _ u _ => s.home (128 * u)

/-- The slot of a version. -/
def Version.slotOf (v : Version) : Nat :=
  match v with
  | .bytes p _ _ _ => p
  | .delta p _ _ _ => p

/-- The hypothesis of a version. -/
def Version.hypOf (v : Version) : Nat :=
  match v with
  | .bytes _ h _ _ => h
  | .delta _ h _ _ => h

/-- `n` more entries fit the store of a slice and the quota of a slot (R149, R417). -/
def State.versionRoom (s : State) (slot h n : Nat) : Bool :=
  let here := s.versions.filter fun v => s.versionHome v == h
  let used := (here.map Version.cost).sum
  let mine := ((here.filter fun v => v.slotOf == slot).map Version.cost).sum
  let q := (s.slot slot).vsquota
  decide (used + n ≤ s.vscfg * 4096 / 80) && (q == 0 || decide (mine + n ≤ q))

/-- A DELTA entry of a hypothesis for a unit. -/
def State.deltaOf (s : State) (slot id u : Nat) : Option LongAcc :=
  s.versions.findSome? fun v =>
    match v with
    | .delta p h w img => if p = slot ∧ h = id ∧ w = u then some img else none
    | .bytes _ _ _ _ => none

/-- The bytes a hypothesis holds of a sector. -/
def State.bytesOf (s : State) (slot id sec : Nat) : Option (List Host.Cell) :=
  s.versions.findSome? fun v =>
    match v with
    | .bytes p h w d => if p = slot ∧ h = id ∧ w = sec then some d else none
    | .delta _ _ _ _ => none

/-- The versions without those of a hypothesis for a unit. -/
def dropUnit (l : List Version) (slot id u : Nat) : List Version :=
  l.filter fun v =>
    match v with
    | .bytes p h sec _ => !(p == slot && h == id && sec / 2 == u)
    | .delta p h w _ => !(p == slot && h == id && w == u)

/-- Cells of consecutive bytes. -/
def cellsOf (pa : Nat) (bytes : List Byte) : List Host.Cell := bytes.mapIdx fun i b => (pa + i, b)

/-- Masked bytes overlaid: the newer cells stand (R151). -/
def overlayCells (old new : List Host.Cell) : List Host.Cell :=
  old.filter (fun c => !(new.any fun d => d.1 == c.1)) ++ new

/-- One BYTES entry over all 128 bytes of a unit holding these bytes (the conversion of R151). -/
def State.setWhole (s : State) (slot id u : Nat) (bytes : List Byte) : State :=
  { s with versions := dropUnit s.versions slot id u ++
      [.bytes slot id (2 * u) (cellsOf (128 * u) (bytes.take 64)),
       .bytes slot id (2 * u + 1) (cellsOf (128 * u + 64) (bytes.drop 64))] }

/-- A tagged write of bytes within one unit; none when an entry is needed and the store is full (R151, R161). -/
def State.tagUnit (s : State) (slot id pa : Nat) (bytes : List Byte) : Option State :=
  let u := pa / 128
  let h := s.home pa
  let new := cellsOf pa bytes
  match s.deltaOf slot id u with
  | some _ =>
    let v := s.viewUnit slot id u
    some (s.setWhole slot id u (new.foldl (fun l c => l.set (c.1 - 128 * u) c.2) v))
  | none =>
    let secs := sectorsOf pa bytes.length
    let fresh := secs.filter fun sec => (s.bytesOf slot id sec).isNone
    if fresh.length ≠ 0 ∧ !s.versionRoom slot h fresh.length then none
    else
      some (secs.foldl (fun s sec =>
        let mine := new.filter fun c => c.1 / 64 == sec
        let data := overlayCells ((s.bytesOf slot id sec).getD []) mine
        { s with versions := s.versions.filter (fun v =>
            match v with
            | .bytes p i w _ => !(p == slot && i == id && w == sec)
            | .delta _ _ _ _ => true) ++ [.bytes slot id sec data] }) s)

/-- A tagged merge (R151): into the DELTA, or by conversion where the hypothesis holds BYTES. DESIGN CHOICE: the
converted BYTES hold the merge unresolved, as a merge leaves it (log 65). -/
def State.tagMerge (s : State) (slot id pa : Nat) (img : LongAcc) : Option State :=
  let u := pa / 128
  let put := fun (s : State) (d : LongAcc) =>
    { s with versions := dropUnit s.versions slot id u ++ [.delta slot id u d] }
  let secs := (sectorsOf (128 * u) 128).filter fun sec => (s.bytesOf slot id sec).isSome
  match s.deltaOf slot id u with
  | some d => some (put s (d.merge img))
  | none =>
    if secs = [] then
      if s.versionRoom slot (s.home pa) 2 then some (put s (LongAcc.zero.merge img)) else none
    else if secs.length < 2 ∧ !s.versionRoom slot (s.home pa) 1 then none
    else some (s.setWhole slot id u (((LongAcc.ofImageRaw (s.viewUnit slot id u)).merge img).image))

end Sys2Proof.Machine
end

