-- ==== Sys2Proof/Machine/Xlate.lean ====
section
/-! DEFINITION. Translation (R411 to R414), interrupts (R407) and the process fault buffer (R418 to R420). -/

namespace Sys2Proof.Machine

open Sys2Proof

/-! ## Page tables -/

/-- How a walk ends: a leaf, or a fault kind of R418 at a level. -/
inductive Walk where
  | page (e : TlbEntry) (level : Nat)
  | bad (kind level : Nat)
  deriving DecidableEq, Repr

/-- INVALID, PERM, FORMAT (R418). -/
def kInvalid : Nat := 1
/-- Kind PERM (R418). -/
def kPerm : Nat := 2
/-- Kind FORMAT (R418). -/
def kFormat : Nat := 3
/-- Kind KILLED (R418). -/
def kKilled : Nat := 4
/-- Kind REFUSED (R418). -/
def kRefused : Nat := 5

/-- A page-table entry at a physical address, as its home slice holds it (R414). -/
def State.entryAt (s : State) (pa : Nat) : Nat := leNat ((s.sliceRead pa 8).2)

/-- Bits [51:12] as a byte address. -/
def entryAddr (e : Nat) : Nat := e / 2 ^ 12 % 2 ^ 40 * 2 ^ 12

/-- Reserved bits are zero and an address with [51] = 0 lies in device memory (R412; log 8). -/
def entryForm (e : Nat) : Bool :=
  e / 2 ^ 52 == 0 && e / 2 ^ 10 % 4 == 0 && (isHost (entryAddr e) || decide (entryAddr e < Config.deviceBytes))

/-- A leaf maps a page of `count` 4 KiB pages: aligned, T only on host memory (R412). -/
def leafForm (e count : Nat) : Bool :=
  entryForm e && entryAddr e % (4096 * count) == 0 && (!e.testBit 4 || isHost (entryAddr e))

/-- A table entry: C, POL, NH, T, X, W and R zero, the address in device memory (R412). -/
def tableForm (e : Nat) : Bool := entryForm e && e / 2 % 2 ^ 9 == 0 && !isHost (entryAddr e)

/-- The sixteen entries of a 64 KiB page obey R413. -/
def State.groupOk (s : State) (table idx : Nat) : Bool :=
  let b := idx / 16 * 16
  let e0 := s.entryAt (table + 8 * b)
  entryAddr e0 % 65536 == 0 &&
    (List.range 16).all fun k =>
      let e := s.entryAt (table + 8 * (b + k))
      e.testBit 0 && entryForm e && e % 2 ^ 12 == e0 % 2 ^ 12 && entryAddr e == entryAddr e0 + 4096 * k

/-- The TLB entry of a leaf that maps `count` pages. -/
def tlbOf (asid va e count : Nat) : TlbEntry :=
  { asid := asid, first := va / 4096 / count * count, count := count, ppn := entryAddr e / 4096, bits := e % 4096 }

/-- The walk from a level down (R411 to R413). -/
def State.walkFrom (s : State) (asid va : Nat) : Nat → Nat → Walk
  | 0, table =>
    let idx := va / 2 ^ 12 % 512
    let e := s.entryAt (table + 8 * idx)
    if !e.testBit 0 then .bad kInvalid 0
    else if !leafForm e 1 then .bad kFormat 0
    else if e.testBit 9 then
      if s.groupOk table idx then
        .page (tlbOf asid va (s.entryAt (table + 8 * (idx / 16 * 16))) 16) 0
      else .bad kFormat 0
    else .page (tlbOf asid va e 1) 0
  | level + 1, table =>
    let l := level + 1
    let e := s.entryAt (table + 8 * (va / 2 ^ (12 + 9 * l) % 512))
    if !e.testBit 0 then .bad kInvalid l
    else if e.testBit 8 then
      if l = 3 ∨ e.testBit 9 ∨ !leafForm e (512 ^ l) then .bad kFormat l
      else .page (tlbOf asid va e (512 ^ l)) l
    else if !tableForm e then .bad kFormat l
    else s.walkFrom asid va level (entryAddr e)

/-- The walk of a slot's tables (R411). -/
def State.walk (s : State) (sl : Slot) (va : Nat) : Walk := s.walkFrom sl.asid va 3 (sl.ptbase.toNat / 4096 * 4096)

/-- The permission an access needs (R412). -/
def permits (bits : Nat) (acc : AccessKind) : Bool :=
  match acc with
  | .read => bits.testBit 1
  | .write => bits.testBit 2
  | .readWrite => bits.testBit 1 && bits.testBit 2
  | .fetch => bits.testBit 3

/-- The TLB entry that covers an address (R414). -/
def State.tlbHit (s : State) (asid va : Nat) : Option TlbEntry :=
  s.tlb.find? fun e => e.asid == asid && decide (e.first ≤ va / 4096) && decide (va / 4096 < e.first + e.count)

/-- A translation: physical address and entry bits, a tracked page on a link that is not CXL, or the kind and level of a
fault. -/
inductive Xl where
  | ok (pa bits : Nat) (e : TlbEntry)
  | untracked
  | bad (kind level : Nat)
  deriving DecidableEq, Repr

/-- The physical address an entry gives. -/
def TlbEntry.pa (e : TlbEntry) (va : Nat) : Nat := 4096 * (e.ppn + (va / 4096 - e.first)) + va % 4096

/-- The translation of an access: through a TLB entry that permits it, else by a walk (R412, R414). A tracked page needs a
CXL link (R395). -/
def State.translate (s : State) (sl : Slot) (va : Nat) (acc : AccessKind) : Xl :=
  let fin := fun (e : TlbEntry) (level : Nat) =>
    if !permits e.bits acc then Xl.bad kPerm level
    else if e.bits.testBit 4 && !s.linkCxl then Xl.untracked
    else Xl.ok (e.pa va) e.bits e
  let fresh := match s.walk sl va with
    | .page e level => fin e level
    | .bad k l => .bad k l
  match s.tlbHit sl.asid va with
  | some e => match fin e 0 with
    | .bad _ _ => fresh
    | x => x
  | none => fresh

/-- An entry put into the TLB in place of those it overlaps (R414). -/
def State.tlbFill (s : State) (e : TlbEntry) : State :=
  if s.tlb.contains e then s
  else
    { s with tlb := e :: s.tlb.filter fun x =>
        !(x.asid == e.asid && decide (x.first < e.first + e.count) && decide (e.first < x.first + x.count)) }

/-! ## Interrupts (R407) -/

/-- A message on a vector. -/
def State.sendVector (s : State) (v : Nat) : State := { s with output := s.output ++ [.msix v] }

/-- A message on a vector of a process slot; a vector below 16 sends nothing (R399). -/
def State.sendSlotVector (s : State) (v : Nat) : State := if v < 16 then s else s.sendVector v

/-- The completion vector of a slot (R399). -/
def Slot.completionVector (sl : Slot) : Nat := (sl.vec.extractLsb' 0 11).toNat
/-- The fault vector of a slot (R399). -/
def Slot.faultVector (sl : Slot) : Nat := (sl.vec.extractLsb' 16 11).toNat

/-! ## The fault buffer -/

/-- Bytes written to a slot's own virtual address, as the device writes rings and buffers; none when an address does not
translate for writing (R399, R400). -/
def State.slotWrite (s : State) (p va : Nat) (bytes : List Byte) : Option State :=
  match s.translate (s.slot p) va .write with
  | .ok pa bits e => some (((s.tlbFill e).gainSectors (bits.testBit 4) pa bytes.length).commit pa bytes).1
  | _ => none

/-- Bytes read at a slot's own virtual address within one page (R405). -/
def State.slotRead (s : State) (p va n : Nat) : Option (State × List Byte) :=
  match s.translate (s.slot p) va .read with
  | .ok pa _ e => some ((s.tlbFill e).sliceRead pa n)
  | _ => none

/-- An error of a ring or of the fault buffer: ERR, HOLD, the fault vector (R400, R418). -/
def State.slotError (s : State) (p err : Nat) : State :=
  (s.mapSlot p fun sl => { sl with err := err, hold := true }).sendSlotVector (s.slot p).faultVector

/-- The 32 bytes of a fault entry (R418). -/
def faultBytes (va kind acc id cl place core time level : Nat) : List Byte :=
  leBytes 8 va ++ leBytes 1 kind ++ leBytes 1 acc ++ leBytes 2 id ++ leBytes 4 (core + 256 * place + 65536 * cl) ++
    leBytes 8 time ++ leBytes 1 level ++ leBytes 7 0

/-- The first of the waiting entries equal to this one is written now. -/
def markWritten (f : FaultPend) : List FaultPend → List FaultPend
  | [] => []
  | g :: l => if g = f then { g with written := true } :: l else g :: markWritten f l

/-- One waiting entry of a slot written to its buffer while there is room (R418). An entry that parks nothing is done
once it is written. -/
def State.writeFault (s : State) (f : FaultPend) : State :=
  let sl := s.slot f.slot
  if f.written ∨ (sl.fbpi + 2 ^ 32 - sl.fbci) % 2 ^ 32 = sl.fbsize then s
  else
    match s.slotWrite f.slot (sl.fbbase.toNat + 32 * (sl.fbpi % sl.fbsize)) f.entry with
    | none => s.slotError f.slot 2
    | some s =>
      let s := s.mapSlot f.slot fun sl => { sl with fbpi := (sl.fbpi + 1) % 2 ^ 32 }
      let left := (markWritten f s.faults).filter fun g => !(g.written && g.id == 0)
      { s with faults := left }.sendSlotVector sl.faultVector

/-- Every waiting entry of a slot written, oldest first, while there is room (R418). -/
def State.flushFaults (s : State) (p : Nat) : State :=
  ((s.faults.filter fun f => f.slot == p && !f.written)).foldl State.writeFault s

/-- The id after `id`: rising modulo 2^16, skipping 0 (R418). -/
def nextFaultId (id : Nat) : Nat := if (id + 1) % 65536 = 0 then 1 else (id + 1) % 65536

/-- An accessor of a fault entry still waits for its answer: its group is parked on it, its command, gather or push is
held. -/
def State.stillWaits (s : State) (id : Nat) (who : Accessor) : Bool :=
  match who with
  | .group uid gid => (s.teams ++ s.saved.map (·.1)).any fun t => t.uid == uid && (t.groups[gid]?.any fun g => g.parked.contains id)
  | .op oid => s.ops.any fun o => o.id == oid && o.parked
  | .gather launch sk k => s.gathers.any fun g => g.launch == launch && g.sk == sk && g.k == k && g.held
  | .join jid => s.joins.any fun j => j.id == jid && j.parked
  | .message mid => s.messages.any fun m => m.id == mid && m.parked
  | .heldEntry n => s.heldEntries.any fun e => e.id == n
  | .remote n => s.remotes.any fun r => r.id == n
  | .launchEntry _ => true
  | .spill _ => true

/-- A translation fault of an accessor: it joins a pending entry of the same page and kind while accesses of that one are
parked, or a new entry is made (R418). -/
def State.raiseFault (s : State) (p va kind acc level : Nat) (src : Nat × Nat × Nat) (who : Accessor) : State :=
  let page := va / 4096
  let joinsHere := fun (f : FaultPend) =>
    f.slot == p && f.page == page && f.kind == kind && f.id != 0 && f.who.any fun x => s.stillWaits f.id x
  if s.faults.any joinsHere then
    { s with faults := s.faults.map fun f => if joinsHere f ∧ !f.who.contains who then { f with who := f.who ++ [who] } else f }
  else
    let id := (s.slot p).nextFault
    let s := s.mapSlot p fun sl => { sl with nextFault := nextFaultId id }
    let f : FaultPend :=
      { id := id, slot := p, page := page, kind := kind, who := [who], written := false,
        entry := faultBytes va kind acc id src.1 src.2.1 src.2.2 s.now level }
    State.flushFaults { s with faults := s.faults ++ [f] } p

/-- An entry that parks nothing: KILLED or REFUSED, with id 0 (R418, R420). -/
def State.noteFault (s : State) (p va kind acc : Nat) (src : Nat × Nat × Nat) : State :=
  let f : FaultPend :=
    { id := 0, slot := p, page := va / 4096, kind := kind, who := [], written := false,
      entry := faultBytes va kind acc 0 src.1 src.2.1 src.2.2 s.now 0 }
  State.flushFaults { s with faults := s.faults ++ [f] } p

/-- The bits of the access byte of a fault entry (R418). -/
def accBits (acc : AccessKind) (engine tagged : Bool) : Nat :=
  (match acc with
    | .read => 1
    | .write => 2
    | .readWrite => 11
    | .fetch => 4) + (if engine then 16 else 0) + (if tagged then 32 else 0)

end Sys2Proof.Machine
end

