-- ==== Sys2Proof/Machine/Teams.lean ====
section
/-! DEFINITION. The end of threads and teams: a thread's exit (R265), the release of a team's resources (R18), and the
kill of a team (R43, R420). -/

namespace Sys2Proof.Machine

open Sys2Proof

/-- A thread that has exited: its v registers are ABSENT and it waits for nothing (R265). -/
def Thread.exited (th : Thread) : Thread :=
  { th with live := false, v := th.v.map fun r => { r with st := .absent, prod := 0 },
            acc := th.acc.map fun a => { a with prod := 0 }, wait := .none, passed := none, popping := none, dlPend := none, orphan := false }

/-- A thread ends as by `exit` at `pc` (R265); `pc` is kept for R447. -/
def State.exitThread (s : State) (uid gid t : Nat) (pc : DWord) : State :=
  s.mapGroup uid gid fun g => { g.mapThread t Thread.exited with lastExit := pc }

/-- The source of a fault entry: cluster, place, core (R418). -/
def Team.source (t : Team) : Nat × Nat × Nat := (t.cl, t.place, t.core)

/-- The source of a fault entry of a group: the core it runs on, the odd one for an odd group of a hinged team (R418). -/
def Team.groupSource (t : Team) (gid : Nat) : Nat × Nat × Nat := (t.cl, t.place, t.coreOf gid)

/-- An engine command that a team leaves behind: a skein request that has reached its anchor, whose fill is discarded by
generation when it arrives (R18, R138); one that has not reached it joins no gather (log 40). -/
def EngOp.leftBehind (o : EngOp) : Bool :=
  match o.body with
  | .skein r => r.sent
  | _ => false

/-- The latest fence horizon of a team's groups. -/
def Team.horizon (t : Team) : Nat := t.groups.foldl (fun c g => max c g.fhz) 0

/-- A launch after one of its teams has gone: a killed one makes its completion status KILLED unless it was aborted, and
the team's horizon counts toward the release before the completion (R406). -/
def Launch.leave (l : Launch) (t : Team) (killed : Bool) : Launch :=
  { l with resident := l.resident - 1, status := if killed ∧ l.status = 0 then 2 else l.status,
           fhz := max l.fhz t.horizon, skeins := l.skeins.map fun k => { k with members := k.members.erase t.uid } }

/-- The fusion domain of a core stays claimed: its launch has unplaced teams, or a team of it that has not exited stands in
the domain, a saved one with those that are resident (R27). -/
def State.domainHeld (s : State) (c : Core) : Bool :=
  (s.launches.any fun l => l.id == c.claim && l.unplaced != 0)
    || (s.teams ++ s.saved.map (·.1)).any fun t =>
      t.launch == c.claim && (domainOf c.fusion c.num).any fun n => t.onCore c.cl n

/-- Each fusion domain that its launch needs no more is released (R27). -/
def State.releaseDomains (s : State) : State :=
  { s with cores := s.cores.map fun c => if c.claim ≠ 0 ∧ !s.domainHeld c then { c with claim := 0, fusion := 0 } else c }

/-- The lanes, reservations, place, slots, latches and bindings of a team are freed (R18): the team leaves the state,
and with it everything it holds. Its stores already issued are performed all the same. -/
def State.releaseTeam (s : State) (t : Team) (killed : Bool) : State :=
  ({ s with
      teams := s.teams.filter fun x => x.uid != t.uid,
      ops := s.ops.filter fun o => o.uid != t.uid || o.leftBehind,
      acqrs := s.acqrs.filter fun a => a.uid != t.uid }.mapLaunch t.launch
    fun l => l.leave t killed).releaseDomains

/-- A team killed by a trap at `va` (R43, R418, R420): no join decrement, a KILLED entry. -/
def State.killTeam (s : State) (uid cause : Nat) (va : DWord) : State :=
  match s.team? uid with
  | none => s
  | some t => (s.releaseTeam t true).noteFault t.slot va.toNat kKilled cause t.source

end Sys2Proof.Machine
end

