-- ==== Sys2Proof/Decode.lean ====
section
/-! DEFINITION. The word formats to the bit (R208 to R215), the encoder and the decoder. A row of the opcode table is
a major opcode, a minor or AO number, a uniform-bit rule (R227, R228) and the fields the row reserves (R208). -/

namespace Sys2Proof

/-- The uniform-bit rule of a row (R227). -/
inductive URule where
  | any
  | zero
  | one
  deriving DecidableEq, Repr

/-- The fields a row reserves: true means the field must be zero (R208); `l1` means L must be 1; `sz` and `m` are the
largest codes the row assigns. -/
structure Rsv where
  c : Bool := false
  d : Bool := false
  a : Bool := false
  b : Bool := false
  ka : Bool := false
  kb : Bool := false
  ea : Bool := false
  eb : Bool := false
  l : Bool := false
  l1 : Bool := false
  t : Bool := false
  sz : Nat := 7
  m : Nat := 63
  deriving DecidableEq, Repr

/-- A word read as its format, with the numbers that name its row. -/
inductive View where
  | rr (op : Nat) (u : URule) (r : Rsv) (w : RR)
  | rm (op m : Nat) (u : URule) (r : Rsv) (w : RM)
  | rn (op : Nat) (wr : Bool) (u : URule) (r : Rsv) (w : RN)
  | fn (kind : Nat) (w : FN)
  | ri (op : Nat) (w : RI)
  | br (op : Nat) (r : Rsv) (w : BR)
  | mem (op : Nat) (u : URule) (r : Rsv) (w : MEM)
  | at (op ao : Nat) (w : AT)
  | event
  deriving DecidableEq, Repr

/-! ## Formats -/

/-- One bit as a field. -/
def bit (b : Bool) : BitVec 1 := BitVec.ofBool b

/-- Bit `n` of a word. -/
def bitAt (w : Word) (n : Nat) : Bool := w.getLsbD n

/-- The common fields of R208: C, U, OP. -/
def packTop (c u : Bool) (op : Nat) : BitVec 9 := bit c ++ bit u ++ BitVec.ofNat 7 op

/-- RR format (R209). -/
def RR.pack (op : Nat) (w : RR) : Word :=
  packTop w.c w.u op ++ w.d ++ w.a ++ w.b ++ bit w.ka ++ bit w.kb ++ bit w.ea ++ bit w.eb ++ bit w.l
/-- The fields of an RR word. -/
def RR.ofWord (w : Word) : RR :=
  { c := bitAt w 31, u := bitAt w 30, d := w.extractLsb' 17 6, a := w.extractLsb' 11 6, b := w.extractLsb' 5 6,
    ka := bitAt w 4, kb := bitAt w 3, ea := bitAt w 2, eb := bitAt w 1, l := bitAt w 0 }

/-- RM format with minor `m`; W is 0 and bit [1] is 0 (R210). -/
def RM.pack (op m : Nat) (w : RM) : Word :=
  packTop w.c w.u op ++ w.d ++ w.a ++ BitVec.ofNat 6 m ++ bit w.ka ++ bit false ++ bit w.ea ++ bit false ++ bit w.l
/-- The fields of an RM word. -/
def RM.ofWord (w : Word) : RM :=
  { c := bitAt w 31, u := bitAt w 30, d := w.extractLsb' 17 6, a := w.extractLsb' 11 6, ka := bitAt w 4,
    ea := bitAt w 2, l := bitAt w 0 }

/-- RM format whose M is an operand; `wr` is the W bit, 1 only in a csr write (R210). -/
def RN.pack (op : Nat) (wr : Bool) (w : RN) : Word :=
  packTop w.c w.u op ++ w.d ++ w.a ++ w.m ++ bit w.ka ++ bit wr ++ bit w.ea ++ bit false ++ bit w.l
/-- The fields of an RM word with an operand M. -/
def RN.ofWord (w : Word) : RN :=
  { c := bitAt w 31, u := bitAt w 30, d := w.extractLsb' 17 6, a := w.extractLsb' 11 6, m := w.extractLsb' 5 6,
    ka := bitAt w 4, ea := bitAt w 2, l := bitAt w 0 }

/-- A fence word: KIND in M [5:4], M [3] zero, SCOPE in M [2:0] (R230). -/
def FN.pack (kind : Nat) (w : FN) : Word :=
  packTop w.c w.u 0x66 ++ (0 : BitVec 12) ++ BitVec.ofNat 2 kind ++ bit false ++ w.scope ++ (0 : BitVec 5)
/-- The fields of a fence word. -/
def FN.ofWord (w : Word) : FN := { c := bitAt w 31, u := bitAt w 30, scope := w.extractLsb' 5 3 }

/-- RI format (R211). -/
def RI.pack (op : Nat) (w : RI) : Word := packTop w.c w.u op ++ w.d ++ w.a ++ w.i ++ bit w.ka
/-- The fields of an RI word. -/
def RI.ofWord (w : Word) : RI :=
  { c := bitAt w 31, u := bitAt w 30, d := w.extractLsb' 17 6, a := w.extractLsb' 11 6, i := w.extractLsb' 1 10,
    ka := bitAt w 0 }

/-- BR format (R212). -/
def BR.pack (op : Nat) (w : BR) : Word := packTop w.c w.u op ++ w.a ++ w.t
/-- The fields of a BR word. -/
def BR.ofWord (w : Word) : BR :=
  { c := bitAt w 31, u := bitAt w 30, a := w.extractLsb' 17 6, t := w.extractLsb' 0 17 }

/-- MEM format (R213). -/
def MEM.pack (op : Nat) (w : MEM) : Word :=
  packTop w.c w.u op ++ w.d ++ w.a ++ w.sz ++ w.o ++ bit w.ka ++ bit w.ea ++ bit w.l
/-- The fields of a MEM word. -/
def MEM.ofWord (w : Word) : MEM :=
  { c := bitAt w 31, u := bitAt w 30, d := w.extractLsb' 17 6, a := w.extractLsb' 11 6, sz := w.extractLsb' 8 3,
    o := w.extractLsb' 3 5, ka := bitAt w 2, ea := bitAt w 1, l := bitAt w 0 }

/-- AT format (R215). -/
def AT.pack (op ao : Nat) (w : AT) : Word :=
  packTop w.c w.u op ++ w.d ++ w.a ++ w.b ++ BitVec.ofNat 4 ao ++ bit w.sz
/-- The fields of an AT word. -/
def AT.ofWord (w : Word) : AT :=
  { c := bitAt w 31, u := bitAt w 30, d := w.extractLsb' 17 6, a := w.extractLsb' 11 6, b := w.extractLsb' 5 6,
    sz := bitAt w 0 }

/-! ## The rows -/

/-- The row and the fields of each instruction (R227 to R230); the device's own operations have no word. -/
def Instr.view (i : Instr) : View :=
  match i with
  | .teamPlacement _ _ => .event
  | .carveReservation _ => .event
  | .steal _ => .event
  | .priorityRaise _ _ => .event
  | .teamExit _ => .event
  | .joinRecordPush _ => .event
  | .groupExchange _ _ => .event
  | .groupTimesliceExchange _ _ => .event
  | .meetingRelease _ _ => .event
  | .producerCompletion _ => .event
  | .instructionLineFill _ _ _ => .event
  | .deadlineExpiry _ => .event
  | .deadlineTrap _ _ _ => .event
  | .orphanTrap _ _ _ => .event
  | .storeBufferEntryDrain _ _ _ => .event
  | .homeSliceWrite _ => .event
  | .writeAcknowledge _ => .event
  | .acqrTargetDrain _ => .event
  | .acqrReport _ => .event
  | .directorySnoop _ => .event
  | .writebackAcknowledge _ => .event
  | .pageWalk _ _ _ => .event
  | .latchRemoteArrival _ => .event
  | .copyCommandStart _ => .event
  | .copyPart _ _ => .event
  | .commandRetire _ => .event
  | .pfrLineResident _ _ => .event
  | .skeinRequestArrival _ => .event
  | .gatherTimeout _ _ _ => .event
  | .skeinFillLand _ => .event
  | .peerWordArrival _ _ _ => .event
  | .matrixStep _ => .event
  | .mloopOperandFetch _ => .event
  | .mdrainWrite _ _ => .event
  | .peerDrainMerge _ => .event
  | .mfactColumn _ => .event
  | .mtrsmRow _ => .event
  | .amsgArrival _ => .event
  | .xferArmedFire _ => .event
  | .xferRemoteRequest _ => .event
  | .xferResponse _ _ => .event
  | .xferTimeout _ => .event
  | .apertureDownMessage _ _ _ => .event
  | .hypIdFree _ _ => .event
  | .slotEnable _ => .event
  | .slotHold _ _ => .event
  | .slotTeardown _ => .event
  | .launchDoorbell _ _ => .event
  | .launchEntryTake _ => .event
  | .launchCompletion _ => .event
  | .completionConsumed _ _ => .event
  | .hostWindow1Write _ _ => .event
  | .hostWindow1Read _ _ => .event
  | .hostAtomicop _ _ => .event
  | .hostCxlMemAccess _ _ _ => .event
  | .hostLinkTraining _ _ => .event
  | .resume _ => .event
  | .fbciWrite _ _ => .event
  | .fackRetry _ _ => .event
  | .fackFail _ _ => .event
  | .dlnow _ => .event
  | .tlbiPage _ => .event
  | .tlbiAsid _ => .event
  | .tlbiAll => .event
  | .tlbInvalidationComplete => .event
  | .vscfgWrite _ => .event
  | .portEnable _ _ => .event
  | .portDisable _ _ => .event
  | .portTrained _ _ => .event
  | .portTrainingTimeout _ => .event
  | .wavelengthLost _ _ => .event
  | .linkRetryExhausted _ => .event
  | .porterrClear _ => .event
  | .boot => .event
  | .bootctlCommit _ => .event
  | .firmwareUpdate _ => .event
  | .spdmMeasurements => .event
  | .keyTake => .event
  | .keyRelease => .event
  | .keyRenew => .event
  | .status => .event
  | .resetWarm => .event
  | .resetCold => .event
  | .powerCap _ => .event
  | .write _ _ => .event
  | .keyctlTake => .event
  | .keyctlRelease => .event
  | .keyctlRenew => .event
  | .keyExpiry => .event
  | .pldmSensorRead _ => .event
  | .correctedError _ _ => .event
  | .uncorrectableError _ _ => .event
  | .readmit _ _ => .event
  | .pcapWrite _ _ => .event
  | .clockStep _ _ => .event
  | .thermalThrottle => .event
  | .thermalTrip _ => .event
  | .registerWrite _ _ _ => .event
  | .nop w => .rm 0x00 0 .any { d := true, a := true, ka := true, ea := true, l := true } w
  | .brk w => .rm 0x00 1 .any { d := true, a := true, ka := true, ea := true, l := true } w
  | .yield w => .rm 0x00 2 .any { d := true, a := true, ka := true, ea := true, l := true } w
  | .free w => .rm 0x00 3 .any { d := true, ka := true, ea := true, l := true } w
  | .wtime w => .rm 0x00 4 .any { a := true, ka := true, ea := true, l := true } w
  | .add w => .rr 0x01 .any {} w
  | .sub w => .rr 0x02 .any {} w
  | .mullo w => .rr 0x03 .any {} w
  | .mulhiS w => .rr 0x04 .any {} w
  | .mulhiZ w => .rr 0x05 .any {} w
  | .mad w => .rr 0x06 .any {} w
  | .minS w => .rr 0x07 .any {} w
  | .minZ w => .rr 0x08 .any {} w
  | .maxS w => .rr 0x09 .any {} w
  | .maxZ w => .rr 0x0A .any {} w
  | .and w => .rr 0x0B .any {} w
  | .or w => .rr 0x0C .any {} w
  | .xor w => .rr 0x0D .any {} w
  | .andn w => .rr 0x0E .any {} w
  | .shl w => .rr 0x0F .any {} w
  | .shr w => .rr 0x10 .any {} w
  | .sar w => .rr 0x11 .any {} w
  | .rot w => .rr 0x12 .any {} w
  | .bfeZ w => .rr 0x13 .any {} w
  | .bfeS w => .rr 0x14 .any {} w
  | .bfi w => .rr 0x15 .any {} w
  | .not w => .rm 0x16 0 .any {} w
  | .neg w => .rm 0x16 1 .any {} w
  | .abs w => .rm 0x16 2 .any {} w
  | .popc w => .rm 0x16 3 .any {} w
  | .clz w => .rm 0x16 4 .any {} w
  | .ctz w => .rm 0x16 5 .any {} w
  | .brev w => .rm 0x16 6 .any {} w
  | .sext8 w => .rm 0x16 7 .any {} w
  | .sext16 w => .rm 0x16 8 .any {} w
  | .zext8 w => .rm 0x16 9 .any {} w
  | .zext16 w => .rm 0x16 10 .any {} w
  | .mov w => .rm 0x16 11 .any {} w
  | .bswap w => .rm 0x16 12 .any {} w
  | .sel w => .rr 0x17 .any {} w
  | .cmpEq w => .rr 0x18 .any {} w
  | .cmpNe w => .rr 0x19 .any {} w
  | .cmpLtS w => .rr 0x1A .any {} w
  | .cmpLeS w => .rr 0x1B .any {} w
  | .cmpLtZ w => .rr 0x1C .any {} w
  | .cmpLeZ w => .rr 0x1D .any {} w
  | .lea w => .rr 0x1E .any {} w
  | .addi w => .ri 0x1F w
  | .movl w => .rm 0x20 0 .any { a := true, ka := true, ea := true, l1 := true } w
  | .movpc w => .rm 0x20 1 .any { a := true, ka := true, ea := true } w
  | .mov64 w => .rm 0x20 2 .any {} w
  | .movg w => .rn 0x21 false .any { a := true, l := true } w
  | .movtg w => .rn 0x22 false .zero { d := true } w
  | .add64 w => .rr 0x23 .any {} w
  | .sub64 w => .rr 0x24 .any {} w
  | .lea64 w => .rr 0x25 .any {} w
  | .xidx w => .rr 0x26 .zero {} w
  | .xup w => .rr 0x27 .zero {} w
  | .xdown w => .rr 0x28 .zero {} w
  | .xxor w => .rr 0x29 .zero {} w
  | .any w => .rm 0x2A 0 .zero {} w
  | .all w => .rm 0x2A 1 .zero {} w
  | .ballotLo w => .rm 0x2A 2 .zero {} w
  | .ballotHi w => .rm 0x2A 3 .zero {} w
  | .count w => .rm 0x2A 4 .zero {} w
  | .elect w => .rm 0x2A 5 .zero {} w
  | .xmatch w => .rm 0x2A 6 .zero {} w
  | .scanAdd w => .rm 0x2A 7 .zero {} w
  | .sumAdd w => .rm 0x2A 8 .zero {} w
  | .rget w => .rr 0x2B .zero {} w
  | .rput w => .rr 0x2C .zero {} w
  | .br w => .br 0x2D { c := true, a := true } w
  | .bnz w => .br 0x2E { c := true } w
  | .bz w => .br 0x2F { c := true } w
  | .call w => .br 0x30 { c := true } w
  | .jmpi w => .br 0x31 { c := true, t := true } w
  | .meet w => .br 0x32 { c := true, a := true } w
  | .exit w => .br 0x33 { c := true, a := true, t := true } w
  | .trap w => .rn 0x34 false .any { c := true, d := true, m := 15, ka := true } w
  | .fadd w => .rr 0x35 .any {} w
  | .fsub w => .rr 0x36 .any {} w
  | .fmul w => .rr 0x37 .any {} w
  | .ffma w => .rr 0x38 .any {} w
  | .fmin w => .rr 0x39 .any {} w
  | .fmax w => .rr 0x3A .any {} w
  | .fcmpEq w => .rr 0x3B .any {} w
  | .fcmpLt w => .rr 0x3C .any {} w
  | .fcmpLe w => .rr 0x3D .any {} w
  | .fcmpUn w => .rr 0x3E .any {} w
  | .fabs w => .rm 0x3F 0 .any {} w
  | .fneg w => .rm 0x3F 1 .any {} w
  | .rcp w => .rm 0x3F 2 .any {} w
  | .rsq w => .rm 0x3F 3 .any {} w
  | .sqrt w => .rm 0x3F 4 .any {} w
  | .exp2 w => .rm 0x3F 5 .any {} w
  | .log2 w => .rm 0x3F 6 .any {} w
  | .sin w => .rm 0x3F 7 .any {} w
  | .cos w => .rm 0x3F 8 .any {} w
  | .trunc w => .rm 0x3F 9 .any {} w
  | .floor w => .rm 0x3F 10 .any {} w
  | .ceil w => .rm 0x3F 11 .any {} w
  | .rint w => .rm 0x3F 12 .any {} w
  | .frac w => .rm 0x3F 13 .any {} w
  | .class w => .rm 0x3F 14 .any {} w
  | .fdiv w => .rr 0x40 .any {} w
  | .badd w => .rr 0x41 .any {} w
  | .bmul w => .rr 0x42 .any {} w
  | .bfma w => .rr 0x43 .any {} w
  | .bmin w => .rr 0x44 .any {} w
  | .bmax w => .rr 0x45 .any {} w
  | .hadd w => .rr 0x46 .any {} w
  | .hmul w => .rr 0x47 .any {} w
  | .hfma w => .rr 0x48 .any {} w
  | .dadd w => .rr 0x49 .any {} w
  | .dmul w => .rr 0x4A .any {} w
  | .dfma w => .rr 0x4B .any {} w
  | .cvtF32F16 w => .rm 0x4C 0 .any {} w
  | .cvtF32F16Hi w => .rm 0x4C 1 .any {} w
  | .cvtF32Bf16 w => .rm 0x4C 2 .any {} w
  | .cvtF32Bf16Hi w => .rm 0x4C 3 .any {} w
  | .cvtF16F32 w => .rm 0x4C 4 .any {} w
  | .cvtBf16F32 w => .rm 0x4C 5 .any {} w
  | .cvtF16x2F32 w => .rm 0x4C 6 .any {} w
  | .cvtBf16x2F32 w => .rm 0x4C 7 .any {} w
  | .cvtF64F32 w => .rm 0x4C 8 .any {} w
  | .cvtF32F64 w => .rm 0x4C 9 .any {} w
  | .cvtF32S32 w => .rm 0x4C 10 .any {} w
  | .cvtF32Z32 w => .rm 0x4C 11 .any {} w
  | .cvtF32S64 w => .rm 0x4C 12 .any {} w
  | .cvtF32Z64 w => .rm 0x4C 13 .any {} w
  | .cvtF64S32 w => .rm 0x4C 14 .any {} w
  | .cvtF64Z32 w => .rm 0x4C 15 .any {} w
  | .cvtF64S64 w => .rm 0x4C 16 .any {} w
  | .cvtF64Z64 w => .rm 0x4C 17 .any {} w
  | .cvtS32F32 w => .rm 0x4C 18 .any {} w
  | .cvtZ32F32 w => .rm 0x4C 19 .any {} w
  | .cvtS32F32Rz w => .rm 0x4C 20 .any {} w
  | .cvtZ32F32Rz w => .rm 0x4C 21 .any {} w
  | .cvtS64F32 w => .rm 0x4C 22 .any {} w
  | .cvtZ64F32 w => .rm 0x4C 23 .any {} w
  | .cvtS32F64 w => .rm 0x4C 24 .any {} w
  | .cvtZ32F64 w => .rm 0x4C 25 .any {} w
  | .cvtS64F64 w => .rm 0x4C 26 .any {} w
  | .cvtZ64F64 w => .rm 0x4C 27 .any {} w
  | .cvtS32F64Rz w => .rm 0x4C 28 .any {} w
  | .cvtS64F64Rz w => .rm 0x4C 29 .any {} w
  | .cvtF16F64 w => .rm 0x4C 30 .any {} w
  | .cvtBf16F64 w => .rm 0x4C 31 .any {} w
  | .cvtF64F16 w => .rm 0x4C 32 .any {} w
  | .cvtF64Bf16 w => .rm 0x4C 33 .any {} w
  | .cvtBf16F16 w => .rm 0x4C 34 .any {} w
  | .cvtF16Bf16 w => .rm 0x4C 35 .any {} w
  | .cvtS8F32 w => .rm 0x4C 36 .any {} w
  | .cvtZ8F32 w => .rm 0x4C 37 .any {} w
  | .cvtS16F32 w => .rm 0x4C 38 .any {} w
  | .cvtZ16F32 w => .rm 0x4C 39 .any {} w
  | .ncvtP w => .rr 0x4D .any {} w
  | .ncvtU w => .rr 0x4E .any {} w
  | .fscale w => .rr 0x4F .any {} w
  | .lclr w => .rm 0x50 0 .zero { a := true, ka := true, ea := true, l := true } w
  | .laddF32 w => .rm 0x51 0 .zero {} w
  | .laddBf16Lo w => .rm 0x51 1 .zero {} w
  | .laddBf16Hi w => .rm 0x51 2 .zero {} w
  | .laddF16Lo w => .rm 0x51 3 .zero {} w
  | .laddF16Hi w => .rm 0x51 4 .zero {} w
  | .laddS32 w => .rm 0x51 5 .zero {} w
  | .laddZ32 w => .rm 0x51 6 .zero {} w
  | .lfma w => .rr 0x52 .zero {} w
  | .lfmab w => .rr 0x53 .zero {} w
  | .lmerge w => .rr 0x54 .zero { b := true, kb := true, eb := true, l := true } w
  | .lnorm w => .rm 0x55 0 .zero { a := true, ka := true, ea := true, l := true } w
  | .lrndF32 w => .rm 0x56 0 .zero { ka := true, l := true } w
  | .lrndBf16 w => .rm 0x56 1 .zero { ka := true, l := true } w
  | .lrndF16 w => .rm 0x56 2 .zero { ka := true, l := true } w
  | .lrndF64 w => .rm 0x56 3 .zero { ka := true, l := true } w
  | .lrndS32 w => .rm 0x56 4 .zero { ka := true, l := true } w
  | .lsh w => .rr 0x57 .zero {} w
  | .lst w => .mem 0x58 .zero { sz := 1 } w
  | .lld w => .mem 0x59 .zero { sz := 1 } w
  | .lred w => .mem 0x5A .zero { sz := 0 } w
  | .lgred w => .rm 0x5B 0 .zero { ka := true, l := true } w
  | .lseg w => .rn 0x5C false .zero { ka := true, l := true } w
  | .ldg w => .mem 0x5D .any {} w
  | .stg w => .mem 0x5E .any {} w
  | .lds w => .mem 0x5F .any {} w
  | .sts w => .mem 0x60 .any {} w
  | .atgAdd w => .at 0x61 0 w
  | .atgSub w => .at 0x61 1 w
  | .atgMinS w => .at 0x61 2 w
  | .atgMinZ w => .at 0x61 3 w
  | .atgMaxS w => .at 0x61 4 w
  | .atgMaxZ w => .at 0x61 5 w
  | .atgAnd w => .at 0x61 6 w
  | .atgOr w => .at 0x61 7 w
  | .atgXor w => .at 0x61 8 w
  | .atgSwap w => .at 0x61 9 w
  | .atgCas w => .at 0x61 10 w
  | .atgIncWrap w => .at 0x61 11 w
  | .atgDecWrap w => .at 0x61 12 w
  | .atgArAdd w => .at 0x62 0 w
  | .atgArSub w => .at 0x62 1 w
  | .atgArMinS w => .at 0x62 2 w
  | .atgArMinZ w => .at 0x62 3 w
  | .atgArMaxS w => .at 0x62 4 w
  | .atgArMaxZ w => .at 0x62 5 w
  | .atgArAnd w => .at 0x62 6 w
  | .atgArOr w => .at 0x62 7 w
  | .atgArXor w => .at 0x62 8 w
  | .atgArSwap w => .at 0x62 9 w
  | .atgArCas w => .at 0x62 10 w
  | .atgArIncWrap w => .at 0x62 11 w
  | .atgArDecWrap w => .at 0x62 12 w
  | .atgSysAdd w => .at 0x63 0 w
  | .atgSysSub w => .at 0x63 1 w
  | .atgSysMinS w => .at 0x63 2 w
  | .atgSysMinZ w => .at 0x63 3 w
  | .atgSysMaxS w => .at 0x63 4 w
  | .atgSysMaxZ w => .at 0x63 5 w
  | .atgSysAnd w => .at 0x63 6 w
  | .atgSysOr w => .at 0x63 7 w
  | .atgSysXor w => .at 0x63 8 w
  | .atgSysSwap w => .at 0x63 9 w
  | .atgSysCas w => .at 0x63 10 w
  | .atgSysIncWrap w => .at 0x63 11 w
  | .atgSysDecWrap w => .at 0x63 12 w
  | .atsAdd w => .at 0x64 0 w
  | .atsSub w => .at 0x64 1 w
  | .atsMinS w => .at 0x64 2 w
  | .atsMinZ w => .at 0x64 3 w
  | .atsMaxS w => .at 0x64 4 w
  | .atsMaxZ w => .at 0x64 5 w
  | .atsAnd w => .at 0x64 6 w
  | .atsOr w => .at 0x64 7 w
  | .atsXor w => .at 0x64 8 w
  | .atsSwap w => .at 0x64 9 w
  | .atsCas w => .at 0x64 10 w
  | .atsIncWrap w => .at 0x64 11 w
  | .atsDecWrap w => .at 0x64 12 w
  | .acas16 w => .rr 0x65 .any { l := true } w
  | .fenceAcq w => .fn 1 w
  | .fenceRel w => .fn 2 w
  | .fenceFull w => .fn 3 w
  | .cacheL1inv w => .rm 0x67 0 .any { d := true, a := true, ka := true, ea := true, l := true } w
  | .cacheDrain w => .rm 0x67 1 .any { d := true, a := true, ka := true, ea := true, l := true } w
  | .cachePfl w => .rm 0x67 2 .any { d := true, l := true } w
  | .pfr w => .rr 0x68 .one {} w
  | .acqr w => .rm 0x69 0 .one { d := true } w
  | .cp w => .rr 0x6A .one {} w
  | .cpt w => .rr 0x6B .one { d := true } w
  | .cpo w => .rr 0x6C .one {} w
  | .sld w => .rr 0x6D .one {} w
  | .sknDecl w => .rm 0x6E 0 .one {} w
  | .sknJoin w => .rm 0x6E 1 .one {} w
  | .sknLeave w => .rm 0x6E 2 .one {} w
  | .sknStat w => .rm 0x6E 3 .one {} w
  | .latchInit w => .rm 0x6F 0 .one { l := true } w
  | .latchExpect w => .rm 0x6F 1 .one {} w
  | .latchArrive w => .rm 0x6F 2 .one { a := true, ka := true, ea := true, l := true } w
  | .latchArriveRemote w => .rm 0x6F 3 .one { d := true } w
  | .latchWait w => .rm 0x6F 4 .one {} w
  | .latchTest w => .rm 0x6F 5 .one { ka := true, ea := true, l := true } w
  | .latchInval w => .rm 0x6F 6 .one { a := true, ka := true, ea := true, l := true } w
  | .waitc w => .rn 0x70 false .one { d := true, m := 3 } w
  | .qopBind w => .rm 0x71 0 .one {} w
  | .qopUnbind w => .rm 0x71 1 .one { a := true, ka := true, ea := true, l := true } w
  | .qopStat w => .rm 0x71 2 .one { ka := true, ea := true, l := true } w
  | .qpush w => .rn 0x72 false .any { d := true, m := 7 } w
  | .qpop w => .rn 0x73 false .any { a := true, m := 7, ka := true, l := true } w
  | .amsg w => .rr 0x74 .one { d := true } w
  | .spawn w => .rm 0x75 0 .one { l := true } w
  | .spawnGang w => .rm 0x75 1 .one { l := true } w
  | .spawnJoin w => .rm 0x75 2 .one { l := true } w
  | .xferPut w => .rm 0x76 0 .one { d := true, l := true } w
  | .xferPutred w => .rm 0x76 1 .one { d := true, l := true } w
  | .xferGet w => .rm 0x76 2 .one { d := true, l := true } w
  | .xferArm w => .rm 0x76 3 .one {} w
  | .xferDisarm w => .rm 0x76 4 .one { a := true, ka := true, ea := true, l := true } w
  | .hypNew w => .rm 0x77 0 .one { a := true, ka := true, ea := true, l := true } w
  | .hypEnter w => .rm 0x77 1 .one {} w
  | .hypLeave w => .rm 0x77 2 .one { a := true, ka := true, ea := true, l := true } w
  | .hypConfirm w => .rm 0x77 3 .one {} w
  | .hypRefute w => .rm 0x77 4 .one {} w
  | .hypStat w => .rm 0x77 5 .one {} w
  | .mma w => .rr 0x78 .zero { l := true } w
  | .mloop w => .rr 0x79 .one { b := true, kb := true, eb := true, l := true } w
  | .mscale w => .rr 0x7A .one { ka := true, ea := true, l := true } w
  | .mdrainR w => .rm 0x7B 0 .zero { ka := true, ea := true, l := true } w
  | .mdrainSp w => .rm 0x7B 1 .any { l := true } w
  | .mdrainGl w => .rm 0x7B 2 .any { l := true } w
  | .mdrainPeer w => .rm 0x7B 3 .any {} w
  | .mdrainQ w => .rm 0x7B 4 .any { a := true, ka := true, ea := true, l := true } w
  | .mfactChol w => .rr 0x7C .one { d := true } w
  | .mzero w => .rm 0x7D 0 .any { a := true, ka := true, ea := true, l := true } w
  | .mcfg w => .rm 0x7D 1 .any { d := true } w
  | .mtrsm w => .rm 0x7D 2 .one { d := true, l := true } w
  | .mstat w => .rm 0x7D 3 .any { a := true, ka := true, ea := true, l := true } w
  | .csrRd w => .rn 0x7E false .any { a := true, ka := true, ea := true, l := true } w
  | .csrWr w => .rn 0x7E true .any { d := true } w
  | .sysEret w => .rm 0x7F 0 .any { c := true, d := true, a := true, ka := true, ea := true, l := true } w
  | .sysCtxsv w => .rm 0x7F 1 .any { c := true } w
  | .sysCtxld w => .rm 0x7F 2 .any { c := true } w
  | .sysTlbinv w => .rm 0x7F 3 .any { c := true, d := true } w
  | .sysL2flush w => .rm 0x7F 4 .any { c := true, d := true } w
  | .sysHalt w => .rm 0x7F 5 .any { c := true, d := true, a := true, ka := true, ea := true, l := true } w
  | .hostHomeAgentSnoop _ => .event
  | .powerLoss => .event

/-- U is 0 or 1 as the row demands (R227). -/
def URule.ok (r : URule) (u : Bool) : Bool :=
  match r with
  | .any => true
  | .zero => !u
  | .one => u

/-- Every reserved field of the row is zero and its U bit is allowed (R208, R218). -/
def View.ok (v : View) : Bool :=
  match v with
  | .rr _ u r w =>
    u.ok w.u && (!r.c || !w.c) && (!r.d || w.d == 0) && (!r.a || w.a == 0) && (!r.b || w.b == 0) && (!r.ka || !w.ka)
      && (!r.kb || !w.kb) && (!r.ea || !w.ea) && (!r.eb || !w.eb) && (!r.l || !w.l)
  | .rm _ _ u r w =>
    u.ok w.u && (!r.c || !w.c) && (!r.d || w.d == 0) && (!r.a || w.a == 0) && (!r.ka || !w.ka) && (!r.ea || !w.ea)
      && (!r.l || !w.l) && (!r.l1 || w.l)
  | .rn _ _ u r w =>
    u.ok w.u && (!r.c || !w.c) && (!r.d || w.d == 0) && (!r.a || w.a == 0) && (!r.ka || !w.ka) && (!r.ea || !w.ea)
      && (!r.l || !w.l) && decide (w.m.toNat ≤ r.m)
  | .fn _ _ => true
  | .ri _ _ => true
  | .br _ r w => (!r.c || !w.c) && (!r.a || w.a == 0) && (!r.t || w.t == 0)
  | .mem _ u r w => u.ok w.u && (!r.c || !w.c) && decide (w.sz.toNat ≤ r.sz)
  | .at _ _ _ => true
  | .event => false

/-- The bits of a word read as its format. -/
def View.pack (v : View) : Option Word :=
  match v with
  | .rr op _ _ w => some (RR.pack op w)
  | .rm op m _ _ w => some (RM.pack op m w)
  | .rn op wr _ _ w => some (RN.pack op wr w)
  | .fn k w => some (FN.pack k w)
  | .ri op w => some (RI.pack op w)
  | .br op _ w => some (BR.pack op w)
  | .mem op _ _ w => some (MEM.pack op w)
  | .at op ao w => some (AT.pack op ao w)
  | .event => none

/-- The word of an instruction, none for an operation of the device. -/
def encode (i : Instr) : Option Word := i.view.pack

/-! ## Decoding

The runtime of Lean cannot build a value of a constructor numbered above 244, so these definitions are evaluated by the
kernel only (log 23); Sys2Proof/Machine/Fast.lean gives the step an equal form that runs. -/

noncomputable section

/-- Major 0x00 by minor (R229). -/
def rowOf00 (m : Nat) (w : Word) : Option Instr :=
  match m with
  | 0 => some (.nop (RM.ofWord w))
  | 1 => some (.brk (RM.ofWord w))
  | 2 => some (.yield (RM.ofWord w))
  | 3 => some (.free (RM.ofWord w))
  | 4 => some (.wtime (RM.ofWord w))
  | _ => none

/-- Major 0x16 by minor (R229). -/
def rowOf16 (m : Nat) (w : Word) : Option Instr :=
  match m with
  | 0 => some (.not (RM.ofWord w))
  | 1 => some (.neg (RM.ofWord w))
  | 2 => some (.abs (RM.ofWord w))
  | 3 => some (.popc (RM.ofWord w))
  | 4 => some (.clz (RM.ofWord w))
  | 5 => some (.ctz (RM.ofWord w))
  | 6 => some (.brev (RM.ofWord w))
  | 7 => some (.sext8 (RM.ofWord w))
  | 8 => some (.sext16 (RM.ofWord w))
  | 9 => some (.zext8 (RM.ofWord w))
  | 10 => some (.zext16 (RM.ofWord w))
  | 11 => some (.mov (RM.ofWord w))
  | 12 => some (.bswap (RM.ofWord w))
  | _ => none

/-- Major 0x20 by minor (R229). -/
def rowOf20 (m : Nat) (w : Word) : Option Instr :=
  match m with
  | 0 => some (.movl (RM.ofWord w))
  | 1 => some (.movpc (RM.ofWord w))
  | 2 => some (.mov64 (RM.ofWord w))
  | _ => none

/-- Major 0x2A by minor (R229). -/
def rowOf2A (m : Nat) (w : Word) : Option Instr :=
  match m with
  | 0 => some (.any (RM.ofWord w))
  | 1 => some (.all (RM.ofWord w))
  | 2 => some (.ballotLo (RM.ofWord w))
  | 3 => some (.ballotHi (RM.ofWord w))
  | 4 => some (.count (RM.ofWord w))
  | 5 => some (.elect (RM.ofWord w))
  | 6 => some (.xmatch (RM.ofWord w))
  | 7 => some (.scanAdd (RM.ofWord w))
  | 8 => some (.sumAdd (RM.ofWord w))
  | _ => none

/-- Major 0x3F by minor (R229). -/
def rowOf3F (m : Nat) (w : Word) : Option Instr :=
  match m with
  | 0 => some (.fabs (RM.ofWord w))
  | 1 => some (.fneg (RM.ofWord w))
  | 2 => some (.rcp (RM.ofWord w))
  | 3 => some (.rsq (RM.ofWord w))
  | 4 => some (.sqrt (RM.ofWord w))
  | 5 => some (.exp2 (RM.ofWord w))
  | 6 => some (.log2 (RM.ofWord w))
  | 7 => some (.sin (RM.ofWord w))
  | 8 => some (.cos (RM.ofWord w))
  | 9 => some (.trunc (RM.ofWord w))
  | 10 => some (.floor (RM.ofWord w))
  | 11 => some (.ceil (RM.ofWord w))
  | 12 => some (.rint (RM.ofWord w))
  | 13 => some (.frac (RM.ofWord w))
  | 14 => some (.class (RM.ofWord w))
  | _ => none

/-- Major 0x4C by minor (R229). -/
def rowOf4C (m : Nat) (w : Word) : Option Instr :=
  match m with
  | 0 => some (.cvtF32F16 (RM.ofWord w))
  | 1 => some (.cvtF32F16Hi (RM.ofWord w))
  | 2 => some (.cvtF32Bf16 (RM.ofWord w))
  | 3 => some (.cvtF32Bf16Hi (RM.ofWord w))
  | 4 => some (.cvtF16F32 (RM.ofWord w))
  | 5 => some (.cvtBf16F32 (RM.ofWord w))
  | 6 => some (.cvtF16x2F32 (RM.ofWord w))
  | 7 => some (.cvtBf16x2F32 (RM.ofWord w))
  | 8 => some (.cvtF64F32 (RM.ofWord w))
  | 9 => some (.cvtF32F64 (RM.ofWord w))
  | 10 => some (.cvtF32S32 (RM.ofWord w))
  | 11 => some (.cvtF32Z32 (RM.ofWord w))
  | 12 => some (.cvtF32S64 (RM.ofWord w))
  | 13 => some (.cvtF32Z64 (RM.ofWord w))
  | 14 => some (.cvtF64S32 (RM.ofWord w))
  | 15 => some (.cvtF64Z32 (RM.ofWord w))
  | 16 => some (.cvtF64S64 (RM.ofWord w))
  | 17 => some (.cvtF64Z64 (RM.ofWord w))
  | 18 => some (.cvtS32F32 (RM.ofWord w))
  | 19 => some (.cvtZ32F32 (RM.ofWord w))
  | 20 => some (.cvtS32F32Rz (RM.ofWord w))
  | 21 => some (.cvtZ32F32Rz (RM.ofWord w))
  | 22 => some (.cvtS64F32 (RM.ofWord w))
  | 23 => some (.cvtZ64F32 (RM.ofWord w))
  | 24 => some (.cvtS32F64 (RM.ofWord w))
  | 25 => some (.cvtZ32F64 (RM.ofWord w))
  | 26 => some (.cvtS64F64 (RM.ofWord w))
  | 27 => some (.cvtZ64F64 (RM.ofWord w))
  | 28 => some (.cvtS32F64Rz (RM.ofWord w))
  | 29 => some (.cvtS64F64Rz (RM.ofWord w))
  | 30 => some (.cvtF16F64 (RM.ofWord w))
  | 31 => some (.cvtBf16F64 (RM.ofWord w))
  | 32 => some (.cvtF64F16 (RM.ofWord w))
  | 33 => some (.cvtF64Bf16 (RM.ofWord w))
  | 34 => some (.cvtBf16F16 (RM.ofWord w))
  | 35 => some (.cvtF16Bf16 (RM.ofWord w))
  | 36 => some (.cvtS8F32 (RM.ofWord w))
  | 37 => some (.cvtZ8F32 (RM.ofWord w))
  | 38 => some (.cvtS16F32 (RM.ofWord w))
  | 39 => some (.cvtZ16F32 (RM.ofWord w))
  | _ => none

/-- Major 0x50 by minor (R229). -/
def rowOf50 (m : Nat) (w : Word) : Option Instr :=
  match m with
  | 0 => some (.lclr (RM.ofWord w))
  | _ => none

/-- Major 0x51 by minor (R229). -/
def rowOf51 (m : Nat) (w : Word) : Option Instr :=
  match m with
  | 0 => some (.laddF32 (RM.ofWord w))
  | 1 => some (.laddBf16Lo (RM.ofWord w))
  | 2 => some (.laddBf16Hi (RM.ofWord w))
  | 3 => some (.laddF16Lo (RM.ofWord w))
  | 4 => some (.laddF16Hi (RM.ofWord w))
  | 5 => some (.laddS32 (RM.ofWord w))
  | 6 => some (.laddZ32 (RM.ofWord w))
  | _ => none

/-- Major 0x55 by minor (R229). -/
def rowOf55 (m : Nat) (w : Word) : Option Instr :=
  match m with
  | 0 => some (.lnorm (RM.ofWord w))
  | _ => none

/-- Major 0x56 by minor (R229). -/
def rowOf56 (m : Nat) (w : Word) : Option Instr :=
  match m with
  | 0 => some (.lrndF32 (RM.ofWord w))
  | 1 => some (.lrndBf16 (RM.ofWord w))
  | 2 => some (.lrndF16 (RM.ofWord w))
  | 3 => some (.lrndF64 (RM.ofWord w))
  | 4 => some (.lrndS32 (RM.ofWord w))
  | _ => none

/-- Major 0x5B by minor (R229). -/
def rowOf5B (m : Nat) (w : Word) : Option Instr :=
  match m with
  | 0 => some (.lgred (RM.ofWord w))
  | _ => none

/-- Major 0x61 by AO (R215). -/
def rowOf61 (ao : Nat) (w : Word) : Option Instr :=
  match ao with
  | 0 => some (.atgAdd (AT.ofWord w))
  | 1 => some (.atgSub (AT.ofWord w))
  | 2 => some (.atgMinS (AT.ofWord w))
  | 3 => some (.atgMinZ (AT.ofWord w))
  | 4 => some (.atgMaxS (AT.ofWord w))
  | 5 => some (.atgMaxZ (AT.ofWord w))
  | 6 => some (.atgAnd (AT.ofWord w))
  | 7 => some (.atgOr (AT.ofWord w))
  | 8 => some (.atgXor (AT.ofWord w))
  | 9 => some (.atgSwap (AT.ofWord w))
  | 10 => some (.atgCas (AT.ofWord w))
  | 11 => some (.atgIncWrap (AT.ofWord w))
  | 12 => some (.atgDecWrap (AT.ofWord w))
  | _ => none

/-- Major 0x62 by AO (R215). -/
def rowOf62 (ao : Nat) (w : Word) : Option Instr :=
  match ao with
  | 0 => some (.atgArAdd (AT.ofWord w))
  | 1 => some (.atgArSub (AT.ofWord w))
  | 2 => some (.atgArMinS (AT.ofWord w))
  | 3 => some (.atgArMinZ (AT.ofWord w))
  | 4 => some (.atgArMaxS (AT.ofWord w))
  | 5 => some (.atgArMaxZ (AT.ofWord w))
  | 6 => some (.atgArAnd (AT.ofWord w))
  | 7 => some (.atgArOr (AT.ofWord w))
  | 8 => some (.atgArXor (AT.ofWord w))
  | 9 => some (.atgArSwap (AT.ofWord w))
  | 10 => some (.atgArCas (AT.ofWord w))
  | 11 => some (.atgArIncWrap (AT.ofWord w))
  | 12 => some (.atgArDecWrap (AT.ofWord w))
  | _ => none

/-- Major 0x63 by AO (R215). -/
def rowOf63 (ao : Nat) (w : Word) : Option Instr :=
  match ao with
  | 0 => some (.atgSysAdd (AT.ofWord w))
  | 1 => some (.atgSysSub (AT.ofWord w))
  | 2 => some (.atgSysMinS (AT.ofWord w))
  | 3 => some (.atgSysMinZ (AT.ofWord w))
  | 4 => some (.atgSysMaxS (AT.ofWord w))
  | 5 => some (.atgSysMaxZ (AT.ofWord w))
  | 6 => some (.atgSysAnd (AT.ofWord w))
  | 7 => some (.atgSysOr (AT.ofWord w))
  | 8 => some (.atgSysXor (AT.ofWord w))
  | 9 => some (.atgSysSwap (AT.ofWord w))
  | 10 => some (.atgSysCas (AT.ofWord w))
  | 11 => some (.atgSysIncWrap (AT.ofWord w))
  | 12 => some (.atgSysDecWrap (AT.ofWord w))
  | _ => none

/-- Major 0x64 by AO (R215). -/
def rowOf64 (ao : Nat) (w : Word) : Option Instr :=
  match ao with
  | 0 => some (.atsAdd (AT.ofWord w))
  | 1 => some (.atsSub (AT.ofWord w))
  | 2 => some (.atsMinS (AT.ofWord w))
  | 3 => some (.atsMinZ (AT.ofWord w))
  | 4 => some (.atsMaxS (AT.ofWord w))
  | 5 => some (.atsMaxZ (AT.ofWord w))
  | 6 => some (.atsAnd (AT.ofWord w))
  | 7 => some (.atsOr (AT.ofWord w))
  | 8 => some (.atsXor (AT.ofWord w))
  | 9 => some (.atsSwap (AT.ofWord w))
  | 10 => some (.atsCas (AT.ofWord w))
  | 11 => some (.atsIncWrap (AT.ofWord w))
  | 12 => some (.atsDecWrap (AT.ofWord w))
  | _ => none

/-- Major 0x66 by KIND (R230). -/
def rowOf66 (kind : Nat) (w : Word) : Option Instr :=
  match kind with
  | 1 => some (.fenceAcq (FN.ofWord w))
  | 2 => some (.fenceRel (FN.ofWord w))
  | 3 => some (.fenceFull (FN.ofWord w))
  | _ => none

/-- Major 0x67 by minor (R229). -/
def rowOf67 (m : Nat) (w : Word) : Option Instr :=
  match m with
  | 0 => some (.cacheL1inv (RM.ofWord w))
  | 1 => some (.cacheDrain (RM.ofWord w))
  | 2 => some (.cachePfl (RM.ofWord w))
  | _ => none

/-- Major 0x69 by minor (R229). -/
def rowOf69 (m : Nat) (w : Word) : Option Instr :=
  match m with
  | 0 => some (.acqr (RM.ofWord w))
  | _ => none

/-- Major 0x6E by minor (R229). -/
def rowOf6E (m : Nat) (w : Word) : Option Instr :=
  match m with
  | 0 => some (.sknDecl (RM.ofWord w))
  | 1 => some (.sknJoin (RM.ofWord w))
  | 2 => some (.sknLeave (RM.ofWord w))
  | 3 => some (.sknStat (RM.ofWord w))
  | _ => none

/-- Major 0x6F by minor (R229). -/
def rowOf6F (m : Nat) (w : Word) : Option Instr :=
  match m with
  | 0 => some (.latchInit (RM.ofWord w))
  | 1 => some (.latchExpect (RM.ofWord w))
  | 2 => some (.latchArrive (RM.ofWord w))
  | 3 => some (.latchArriveRemote (RM.ofWord w))
  | 4 => some (.latchWait (RM.ofWord w))
  | 5 => some (.latchTest (RM.ofWord w))
  | 6 => some (.latchInval (RM.ofWord w))
  | _ => none

/-- Major 0x71 by minor (R229). -/
def rowOf71 (m : Nat) (w : Word) : Option Instr :=
  match m with
  | 0 => some (.qopBind (RM.ofWord w))
  | 1 => some (.qopUnbind (RM.ofWord w))
  | 2 => some (.qopStat (RM.ofWord w))
  | _ => none

/-- Major 0x75 by minor (R229). -/
def rowOf75 (m : Nat) (w : Word) : Option Instr :=
  match m with
  | 0 => some (.spawn (RM.ofWord w))
  | 1 => some (.spawnGang (RM.ofWord w))
  | 2 => some (.spawnJoin (RM.ofWord w))
  | _ => none

/-- Major 0x76 by minor (R229). -/
def rowOf76 (m : Nat) (w : Word) : Option Instr :=
  match m with
  | 0 => some (.xferPut (RM.ofWord w))
  | 1 => some (.xferPutred (RM.ofWord w))
  | 2 => some (.xferGet (RM.ofWord w))
  | 3 => some (.xferArm (RM.ofWord w))
  | 4 => some (.xferDisarm (RM.ofWord w))
  | _ => none

/-- Major 0x77 by minor (R229). -/
def rowOf77 (m : Nat) (w : Word) : Option Instr :=
  match m with
  | 0 => some (.hypNew (RM.ofWord w))
  | 1 => some (.hypEnter (RM.ofWord w))
  | 2 => some (.hypLeave (RM.ofWord w))
  | 3 => some (.hypConfirm (RM.ofWord w))
  | 4 => some (.hypRefute (RM.ofWord w))
  | 5 => some (.hypStat (RM.ofWord w))
  | _ => none

/-- Major 0x7B by minor (R229). -/
def rowOf7B (m : Nat) (w : Word) : Option Instr :=
  match m with
  | 0 => some (.mdrainR (RM.ofWord w))
  | 1 => some (.mdrainSp (RM.ofWord w))
  | 2 => some (.mdrainGl (RM.ofWord w))
  | 3 => some (.mdrainPeer (RM.ofWord w))
  | 4 => some (.mdrainQ (RM.ofWord w))
  | _ => none

/-- Major 0x7D by minor (R229). -/
def rowOf7D (m : Nat) (w : Word) : Option Instr :=
  match m with
  | 0 => some (.mzero (RM.ofWord w))
  | 1 => some (.mcfg (RM.ofWord w))
  | 2 => some (.mtrsm (RM.ofWord w))
  | 3 => some (.mstat (RM.ofWord w))
  | _ => none

/-- Major 0x7E by W (R341). -/
def rowOf7E (wr : Bool) (w : Word) : Option Instr :=
  match wr with
  | false => some (.csrRd (RN.ofWord w))
  | true => some (.csrWr (RN.ofWord w))

/-- Major 0x7F by minor (R229). -/
def rowOf7F (m : Nat) (w : Word) : Option Instr :=
  match m with
  | 0 => some (.sysEret (RM.ofWord w))
  | 1 => some (.sysCtxsv (RM.ofWord w))
  | 2 => some (.sysCtxld (RM.ofWord w))
  | 3 => some (.sysTlbinv (RM.ofWord w))
  | 4 => some (.sysL2flush (RM.ofWord w))
  | 5 => some (.sysHalt (RM.ofWord w))
  | _ => none

/-- Majors 0x00 to 0x0F (R227). -/
def rowsOf0 (op : Nat) (w : Word) : Option Instr :=
  match op with
  | 0 => rowOf00 (w.extractLsb' 5 6).toNat w
  | 1 => some (.add (RR.ofWord w))
  | 2 => some (.sub (RR.ofWord w))
  | 3 => some (.mullo (RR.ofWord w))
  | 4 => some (.mulhiS (RR.ofWord w))
  | 5 => some (.mulhiZ (RR.ofWord w))
  | 6 => some (.mad (RR.ofWord w))
  | 7 => some (.minS (RR.ofWord w))
  | 8 => some (.minZ (RR.ofWord w))
  | 9 => some (.maxS (RR.ofWord w))
  | 10 => some (.maxZ (RR.ofWord w))
  | 11 => some (.and (RR.ofWord w))
  | 12 => some (.or (RR.ofWord w))
  | 13 => some (.xor (RR.ofWord w))
  | 14 => some (.andn (RR.ofWord w))
  | 15 => some (.shl (RR.ofWord w))
  | _ => none

/-- Majors 0x10 to 0x1F (R227). -/
def rowsOf1 (op : Nat) (w : Word) : Option Instr :=
  match op with
  | 0 => some (.shr (RR.ofWord w))
  | 1 => some (.sar (RR.ofWord w))
  | 2 => some (.rot (RR.ofWord w))
  | 3 => some (.bfeZ (RR.ofWord w))
  | 4 => some (.bfeS (RR.ofWord w))
  | 5 => some (.bfi (RR.ofWord w))
  | 6 => rowOf16 (w.extractLsb' 5 6).toNat w
  | 7 => some (.sel (RR.ofWord w))
  | 8 => some (.cmpEq (RR.ofWord w))
  | 9 => some (.cmpNe (RR.ofWord w))
  | 10 => some (.cmpLtS (RR.ofWord w))
  | 11 => some (.cmpLeS (RR.ofWord w))
  | 12 => some (.cmpLtZ (RR.ofWord w))
  | 13 => some (.cmpLeZ (RR.ofWord w))
  | 14 => some (.lea (RR.ofWord w))
  | 15 => some (.addi (RI.ofWord w))
  | _ => none

/-- Majors 0x20 to 0x2F (R227). -/
def rowsOf2 (op : Nat) (w : Word) : Option Instr :=
  match op with
  | 0 => rowOf20 (w.extractLsb' 5 6).toNat w
  | 1 => some (.movg (RN.ofWord w))
  | 2 => some (.movtg (RN.ofWord w))
  | 3 => some (.add64 (RR.ofWord w))
  | 4 => some (.sub64 (RR.ofWord w))
  | 5 => some (.lea64 (RR.ofWord w))
  | 6 => some (.xidx (RR.ofWord w))
  | 7 => some (.xup (RR.ofWord w))
  | 8 => some (.xdown (RR.ofWord w))
  | 9 => some (.xxor (RR.ofWord w))
  | 10 => rowOf2A (w.extractLsb' 5 6).toNat w
  | 11 => some (.rget (RR.ofWord w))
  | 12 => some (.rput (RR.ofWord w))
  | 13 => some (.br (BR.ofWord w))
  | 14 => some (.bnz (BR.ofWord w))
  | 15 => some (.bz (BR.ofWord w))
  | _ => none

/-- Majors 0x30 to 0x3F (R227). -/
def rowsOf3 (op : Nat) (w : Word) : Option Instr :=
  match op with
  | 0 => some (.call (BR.ofWord w))
  | 1 => some (.jmpi (BR.ofWord w))
  | 2 => some (.meet (BR.ofWord w))
  | 3 => some (.exit (BR.ofWord w))
  | 4 => some (.trap (RN.ofWord w))
  | 5 => some (.fadd (RR.ofWord w))
  | 6 => some (.fsub (RR.ofWord w))
  | 7 => some (.fmul (RR.ofWord w))
  | 8 => some (.ffma (RR.ofWord w))
  | 9 => some (.fmin (RR.ofWord w))
  | 10 => some (.fmax (RR.ofWord w))
  | 11 => some (.fcmpEq (RR.ofWord w))
  | 12 => some (.fcmpLt (RR.ofWord w))
  | 13 => some (.fcmpLe (RR.ofWord w))
  | 14 => some (.fcmpUn (RR.ofWord w))
  | 15 => rowOf3F (w.extractLsb' 5 6).toNat w
  | _ => none

/-- Majors 0x40 to 0x4F (R227). -/
def rowsOf4 (op : Nat) (w : Word) : Option Instr :=
  match op with
  | 0 => some (.fdiv (RR.ofWord w))
  | 1 => some (.badd (RR.ofWord w))
  | 2 => some (.bmul (RR.ofWord w))
  | 3 => some (.bfma (RR.ofWord w))
  | 4 => some (.bmin (RR.ofWord w))
  | 5 => some (.bmax (RR.ofWord w))
  | 6 => some (.hadd (RR.ofWord w))
  | 7 => some (.hmul (RR.ofWord w))
  | 8 => some (.hfma (RR.ofWord w))
  | 9 => some (.dadd (RR.ofWord w))
  | 10 => some (.dmul (RR.ofWord w))
  | 11 => some (.dfma (RR.ofWord w))
  | 12 => rowOf4C (w.extractLsb' 5 6).toNat w
  | 13 => some (.ncvtP (RR.ofWord w))
  | 14 => some (.ncvtU (RR.ofWord w))
  | 15 => some (.fscale (RR.ofWord w))
  | _ => none

/-- Majors 0x50 to 0x5F (R227). -/
def rowsOf5 (op : Nat) (w : Word) : Option Instr :=
  match op with
  | 0 => rowOf50 (w.extractLsb' 5 6).toNat w
  | 1 => rowOf51 (w.extractLsb' 5 6).toNat w
  | 2 => some (.lfma (RR.ofWord w))
  | 3 => some (.lfmab (RR.ofWord w))
  | 4 => some (.lmerge (RR.ofWord w))
  | 5 => rowOf55 (w.extractLsb' 5 6).toNat w
  | 6 => rowOf56 (w.extractLsb' 5 6).toNat w
  | 7 => some (.lsh (RR.ofWord w))
  | 8 => some (.lst (MEM.ofWord w))
  | 9 => some (.lld (MEM.ofWord w))
  | 10 => some (.lred (MEM.ofWord w))
  | 11 => rowOf5B (w.extractLsb' 5 6).toNat w
  | 12 => some (.lseg (RN.ofWord w))
  | 13 => some (.ldg (MEM.ofWord w))
  | 14 => some (.stg (MEM.ofWord w))
  | 15 => some (.lds (MEM.ofWord w))
  | _ => none

/-- Majors 0x60 to 0x6F (R227). -/
def rowsOf6 (op : Nat) (w : Word) : Option Instr :=
  match op with
  | 0 => some (.sts (MEM.ofWord w))
  | 1 => rowOf61 (w.extractLsb' 1 4).toNat w
  | 2 => rowOf62 (w.extractLsb' 1 4).toNat w
  | 3 => rowOf63 (w.extractLsb' 1 4).toNat w
  | 4 => rowOf64 (w.extractLsb' 1 4).toNat w
  | 5 => some (.acas16 (RR.ofWord w))
  | 6 => rowOf66 (w.extractLsb' 9 2).toNat w
  | 7 => rowOf67 (w.extractLsb' 5 6).toNat w
  | 8 => some (.pfr (RR.ofWord w))
  | 9 => rowOf69 (w.extractLsb' 5 6).toNat w
  | 10 => some (.cp (RR.ofWord w))
  | 11 => some (.cpt (RR.ofWord w))
  | 12 => some (.cpo (RR.ofWord w))
  | 13 => some (.sld (RR.ofWord w))
  | 14 => rowOf6E (w.extractLsb' 5 6).toNat w
  | 15 => rowOf6F (w.extractLsb' 5 6).toNat w
  | _ => none

/-- Majors 0x70 to 0x7F (R227). -/
def rowsOf7 (op : Nat) (w : Word) : Option Instr :=
  match op with
  | 0 => some (.waitc (RN.ofWord w))
  | 1 => rowOf71 (w.extractLsb' 5 6).toNat w
  | 2 => some (.qpush (RN.ofWord w))
  | 3 => some (.qpop (RN.ofWord w))
  | 4 => some (.amsg (RR.ofWord w))
  | 5 => rowOf75 (w.extractLsb' 5 6).toNat w
  | 6 => rowOf76 (w.extractLsb' 5 6).toNat w
  | 7 => rowOf77 (w.extractLsb' 5 6).toNat w
  | 8 => some (.mma (RR.ofWord w))
  | 9 => some (.mloop (RR.ofWord w))
  | 10 => some (.mscale (RR.ofWord w))
  | 11 => rowOf7B (w.extractLsb' 5 6).toNat w
  | 12 => some (.mfactChol (RR.ofWord w))
  | 13 => rowOf7D (w.extractLsb' 5 6).toNat w
  | 14 => rowOf7E (bitAt w 3) w
  | 15 => rowOf7F (w.extractLsb' 5 6).toNat w
  | _ => none

/-- The row that OP and the minor of a word name, with the word's fields (R227, R229). -/
def candidate (w : Word) : Option Instr :=
  match (w.extractLsb' 27 3).toNat with
  | 0 => rowsOf0 (w.extractLsb' 23 4).toNat w
  | 1 => rowsOf1 (w.extractLsb' 23 4).toNat w
  | 2 => rowsOf2 (w.extractLsb' 23 4).toNat w
  | 3 => rowsOf3 (w.extractLsb' 23 4).toNat w
  | 4 => rowsOf4 (w.extractLsb' 23 4).toNat w
  | 5 => rowsOf5 (w.extractLsb' 23 4).toNat w
  | 6 => rowsOf6 (w.extractLsb' 23 4).toNat w
  | _ => rowsOf7 (w.extractLsb' 23 4).toNat w

/-- The instruction of a word; none is the ILLEGAL of R218. A word is refused when a reserved field of its row is not
zero, which is when the row's own encoding does not give the word back. -/
def decodeWord (w : Word) : Option Instr :=
  match candidate w with
  | none => none
  | some i => if i.view.ok && encode i == some w then some i else none

/-- The instruction read from the first `nbits` bits `w` of the table's numbering: every word has 32 bits (R202). -/
def decodeTableWord (nbits w : Nat) : Option Instr :=
  if nbits ≤ 32 && decide (w < 2 ^ 32) then decodeWord (BitVec.ofNat 32 w) else none

end

end Sys2Proof
end

