-- ==== Sys2Proof/Machine/Operands.lean ====
section
/-! DEFINITION. The operand forms of every row: which registers, accumulators, slots, latches, queues and csrs a word
reads and writes, with its K and E bits (R209 to R217, R244 to R345), its pipe (R227), and the legality of an encoding
that rests on the word alone (R214, R216, R218). -/

namespace Sys2Proof

/-- What an operand names. `reg` is a register field read by the U bit (R216), `g` a g register by its own number
(R250, R251), `allV` every v register (R257). -/
inductive Space where
  | reg
  | g
  | acc
  | slot
  | latch
  | queue
  | csr
  | allV
  deriving DecidableEq, Repr

/-- One operand: `num` and `count` consecutive objects, the register field that names it (R234), the alignment of the
base, whether it is read or written, its K and E bits. -/
structure Opd where
  space : Space
  num : Nat
  field : Nat := num
  count : Nat := 1
  align : Nat := 1
  rd : Bool := false
  wr : Bool := false
  k : Bool := false
  e : Bool := false
  deriving DecidableEq, Repr

/-- A source of `n` registers. -/
def srcOpd (f : BitVec 6) (n : Nat) (k e : Bool) : Opd :=
  { space := .reg, num := f.toNat, count := n, align := n, rd := true, k := k, e := e }
/-- A destination of `n` registers. -/
def dstOpd (f : BitVec 6) (n : Nat) : Opd := { space := .reg, num := f.toNat, count := n, align := n, wr := true }
/-- A destination of `n` registers that the word also reads (R236). -/
def accOpd (f : BitVec 6) (n : Nat) : Opd :=
  { space := .reg, num := f.toNat, count := n, align := n, rd := true, wr := true }
/-- A long accumulator (R282). -/
def lacOpd (f : BitVec 6) (rd wr k e : Bool) : Opd :=
  { space := .acc, num := f.toNat, rd := rd, wr := wr, k := k, e := e }
/-- A named object that counts as read and written (R311, R330). -/
def objOpd (sp : Space) (f : BitVec 6) (k e : Bool) : Opd :=
  { space := sp, num := f.toNat, rd := true, wr := true, k := k, e := e }

/-- Registers of a fragment for a group width (R168). -/
def fragRegs (width : Nat) : Nat := if width = 16 then 16 else if width = 32 then 8 else 4

/-- A fragment of `c` registers, base a multiple of 4 (R332, R336). -/
def fragOpd (f : BitVec 6) (width : Nat) (rd k e : Bool) : Opd :=
  { space := .reg, num := f.toNat, count := fragRegs width, align := 4, rd := rd, wr := !rd, k := k, e := e }

/-- Operands of RR words (R209). -/
def rrOps (width op : Nat) (w : RR) : List Opd :=
  let a := fun n => srcOpd w.a n w.ka w.ea
  let b := fun n => if w.l then [] else [srcOpd w.b n w.kb w.eb]
  match op with
  | 0x06 | 0x15 | 0x17 | 0x38 | 0x43 | 0x48 => accOpd w.d 1 :: a 1 :: b 1
  | 0x23 | 0x24 | 0x49 | 0x4A => dstOpd w.d 2 :: a 2 :: b 2
  | 0x25 => dstOpd w.d 2 :: a 2 :: b 1
  | 0x4B => accOpd w.d 2 :: a 2 :: b 2
  | 0x2B => { space := .allV, num := 0, rd := true } :: dstOpd w.d 1 :: a 1 :: b 1
  | 0x2C => { space := .allV, num := 0, wr := true } :: srcOpd w.d 1 false false :: a 1 :: b 1
  | 0x4D => dstOpd w.d 1 :: a 4 :: b 1
  | 0x4E => dstOpd w.d 4 :: a 1 :: b 1
  | 0x52 | 0x53 => lacOpd w.d true true false false :: a 1 :: b 1
  | 0x54 => [lacOpd w.d true true false false, lacOpd w.a true false w.ka w.ea]
  | 0x57 => lacOpd w.d false true false false :: lacOpd w.a true false w.ka w.ea :: b 1
  | 0x65 => [dstOpd w.d 4, a 2, srcOpd w.b 4 w.kb w.eb, { srcOpd w.b 4 w.kb w.eb with num := w.b.toNat + 4 }]
  | 0x68 => (if w.d = 0 then [] else [srcOpd w.d 1 false false]) ++ a 2 :: b 1
  | 0x6A | 0x6C | 0x6D => srcOpd w.d 2 false false :: a 2 :: b 1
  | 0x6B => a 8 :: b 1
  | 0x74 => a 2 :: b 1
  | 0x78 => [objOpd .slot w.d false false, fragOpd w.a width true w.ka w.ea, fragOpd w.b width true w.kb w.eb]
  | 0x79 => [objOpd .slot w.d false false, a 16]
  | 0x7A => [objOpd .slot w.d false false, objOpd .slot w.a w.ka w.ea, srcOpd w.b 8 w.kb w.eb]
  | 0x7C => a 1 :: b 1
  | _ => dstOpd w.d 1 :: a 1 :: b 1

/-- Registers of the destination and of the source of a cvt entry (R277). -/
def cvtWidths (m : Nat) : Nat × Nat :=
  (if m = 8 ∨ (14 ≤ m ∧ m ≤ 17) ∨ m = 22 ∨ m = 23 ∨ m = 26 ∨ m = 27 ∨ m = 29 ∨ m = 32 ∨ m = 33 then 2 else 1,
   if m = 6 ∨ m = 7 ∨ m = 9 ∨ m = 12 ∨ m = 13 ∨ m = 16 ∨ m = 17 ∨ (24 ≤ m ∧ m ≤ 31) then 2 else 1)

/-- Operands of RM words with a minor (R210). -/
def rmOps (width op m : Nat) (w : RM) : List Opd :=
  let a := fun n => if w.l then [] else [srcOpd w.a n w.ka w.ea]
  let d := fun n => dstOpd w.d n
  let slot := objOpd .slot w.d false false
  let latch := objOpd .latch w.d false false
  let queue := objOpd .queue w.d false false
  match op with
  | 0x00 => match m with
    | 3 => [{ dstOpd w.a 1 with wr := true }]
    | 4 => [d 2]
    | _ => []
  | 0x20 => match m with
    | 0 => [d 1]
    | 1 => [d 2]
    | _ => d 2 :: a 2
  | 0x4C => d (cvtWidths m).1 :: a (cvtWidths m).2
  | 0x50 => [lacOpd w.d false true false false]
  | 0x51 => lacOpd w.d true true false false :: a 1
  | 0x55 => [lacOpd w.d true true false false]
  | 0x56 => [d (if m = 3 then 2 else 1), lacOpd w.a true false w.ka w.ea]
  | 0x5B => [lacOpd w.d false true false false, lacOpd w.a true false w.ka w.ea]
  | 0x67 => if m = 2 then a 2 else []
  | 0x69 => a 1
  | 0x6E => d (if m = 3 then 2 else 1) :: a 1
  | 0x6F => match m with
    | 0 => latch :: a 2
    | 1 | 4 => latch :: a 1
    | 3 => a 1
    | 5 => [d 1, objOpd .latch w.a w.ka w.ea]
    | _ => [latch]
  | 0x71 => match m with
    | 0 => queue :: a 1
    | 1 => [queue]
    | _ => [d 1, objOpd .queue w.a w.ka w.ea]
  | 0x75 => d 1 :: a 2
  | 0x76 => match m with
    | 3 => latch :: a 1
    | 4 => [d 1]
    | _ => a 8
  | 0x77 => if m = 0 ∨ m = 2 then [d 1] else d 1 :: a 1
  | 0x7B => match m with
    | 0 => [fragOpd w.d width false false false, objOpd .slot w.a w.ka w.ea]
    | 1 => slot :: a 2
    | 2 => slot :: a 8
    | 3 => slot :: a 1
    | _ => [slot]
  | 0x7D => match m with
    | 0 => [slot]
    | 1 => a 1
    | 2 => a 4
    | _ => [d 1]
  | 0x7F => match m with
    | 1 | 2 => d 1 :: a 4
    | 3 => a 4
    | 4 => a 1
    | _ => []
  | _ => d 1 :: a 1

/-- Operands of RM words whose M is an operand. -/
def rnOps (op : Nat) (wr : Bool) (w : RN) : List Opd :=
  let a := fun n => if w.l then [] else [srcOpd w.a n w.ka w.ea]
  let n := if w.m = 17 then 2 else 1
  match op with
  | 0x21 => [dstOpd w.d 1, { space := .g, num := w.m.toNat, rd := true, k := w.ka, e := w.ea }]
  | 0x22 => a 1 ++ [{ space := .g, num := w.m.toNat, wr := true }]
  | 0x5C => [dstOpd w.d 2, lacOpd w.a true false w.ka w.ea]
  | 0x72 => a 1 ++ [objOpd .queue w.m false false]
  | 0x73 => [dstOpd w.d 1, objOpd .queue w.m false false]
  | 0x7E =>
    if wr then a n ++ [{ space := .csr, num := w.m.toNat, wr := true }]
    else [dstOpd w.d n, { space := .csr, num := w.m.toNat, rd := true }]
  | _ => a 1

/-- Registers that SZ of a MEM word names (R213, R298). -/
def szRegs (sz : BitVec 3) : Nat := if sz = 3 then 2 else if sz = 4 then 4 else 1

/-- Bytes that SZ of a MEM word names (R213). -/
def szBytes (sz : BitVec 3) : Nat :=
  if sz = 0 ∨ sz = 5 then 1 else if sz = 1 ∨ sz = 6 then 2 else if sz = 2 then 4 else if sz = 3 then 8 else 16

/-- Operands of MEM words (R213, R290, R297). -/
def memOps (op : Nat) (w : MEM) : List Opd :=
  let a := fun n => srcOpd w.a n w.ka w.ea
  let ac := a (if w.sz = 0 then 2 else 1)
  match op with
  | 0x58 | 0x5A => [lacOpd w.d true false false false, ac]
  | 0x59 => [lacOpd w.d false true false false, ac]
  | 0x5D => [dstOpd w.d (szRegs w.sz), a 2]
  | 0x5E => [srcOpd w.d (szRegs w.sz) false false, a 2]
  | 0x5F => [dstOpd w.d (szRegs w.sz), a 1]
  | _ => [srcOpd w.d (szRegs w.sz) false false, a 1]

/-- Operands of AT words; D = 63 discards (R215). -/
def atOps (op ao : Nat) (w : AT) : List Opd :=
  let n := if w.sz then 2 else 1
  (if w.d = 63 then [] else [dstOpd w.d n]) ++
    [srcOpd w.a (if op = 0x64 then 1 else 2) false false, srcOpd w.b (if ao = 10 then 2 * n else n) false false]

/-- The registers and objects of a word, destination field first (R207, R209 to R217); the stand-in of a word of no row,
with M = 63, names none (R218). -/
def View.ops (width : Nat) (v : View) : List Opd :=
  match v with
  | .rr op _ _ w => rrOps width op w
  | .rm op m _ _ w => if m = 63 then [] else rmOps width op m w
  | .rn op wr _ _ w => rnOps op wr w
  | .fn _ _ => []
  | .ri _ w => [dstOpd w.d 1, srcOpd w.a 1 w.ka false]
  | .br op _ w => match op with
    | 0x2E | 0x2F => [srcOpd w.a 1 false false]
    | 0x30 => [dstOpd w.a 2]
    | 0x31 => [srcOpd w.a 2 false false]
    | _ => []
  | .mem op _ _ w => memOps op w
  | .at op ao w => atOps op ao w
  | .event => []

/-- The pipe a major issues to (R227). -/
inductive Pipe where
  | alu
  | mem
  | xf
  | group
  deriving DecidableEq, Repr

/-- OP of a word. -/
def View.op (v : View) : Nat :=
  match v with
  | .rr op _ _ _ => op
  | .rm op _ _ _ _ => op
  | .rn op _ _ _ _ => op
  | .fn _ _ => 0x66
  | .ri op _ => op
  | .br op _ _ => op
  | .mem op _ _ _ => op
  | .at op _ _ => op
  | .event => 0

/-- The minor of an RM word, else 0. -/
def View.minor (v : View) : Nat :=
  match v with
  | .rm _ m _ _ _ => m
  | .rn _ _ _ _ w => w.m.toNat
  | _ => 0

/-- The uniform bit of a word. -/
def View.u (v : View) : Bool :=
  match v with
  | .rr _ _ _ w => w.u
  | .rm _ _ _ _ w => w.u
  | .rn _ _ _ _ w => w.u
  | .fn _ w => w.u
  | .ri _ w => w.u
  | .br _ _ w => w.u
  | .mem _ _ _ w => w.u
  | .at _ _ w => w.u
  | .event => false

/-- L of a word whose L marks a literal source. -/
def View.lit (v : View) : Bool :=
  match v with
  | .rr _ _ _ w => w.l
  | .rm _ _ _ _ w => w.l
  | .rn _ _ _ _ w => w.l
  | .mem _ _ _ w => w.l
  | _ => false

/-- The pipe column of the opcode map (R227). -/
def pipeOf (op : Nat) : Pipe :=
  if (0x2D ≤ op ∧ op ≤ 0x34) ∨ op = 0x7F then .group
  else if (0x26 ≤ op ∧ op ≤ 0x2C) ∨ (0x58 ≤ op ∧ op ≤ 0x5B) ∨ (0x5D ≤ op ∧ op ≤ 0x69) ∨ (0x71 ≤ op ∧ op ≤ 0x73) then .mem
  else if op = 0x3F ∨ op = 0x40 ∨ (0x4C ≤ op ∧ op ≤ 0x4E) ∨ op = 0x56 ∨ (0x6A ≤ op ∧ op ≤ 0x70) ∨ (0x74 ≤ op ∧ op ≤ 0x7D)
    then .xf
  else .alu

/-- A scope code of the core class for a team (R68). -/
def coreScope (scope : Nat) (hinged : Bool) : Bool := scope == 0 || scope == 2 || (scope == 1 && !hinged)

/-- An acquire of R77, R78, R305 to R307, R83, R84 or R159 that may move the freshness floor: one of the core class does
not (R77); a latch or queue word may. -/
def View.acquires (hinged : Bool) (v : View) : Bool :=
  match v with
  | .mem _ _ _ w => w.l && w.o.extractLsb' 3 2 == 1 && !coreScope (w.o.extractLsb' 0 3).toNat hinged
  | .fn k w => (k == 1 || k == 3) && !coreScope w.scope.toNat hinged
  | _ => v.op == 0x62 || v.op == 0x63 || v.op == 0x65 || v.op == 0x69 || v.op == 0x73
    || (v.op == 0x6F && (v.minor == 4 || v.minor == 5)) || (v.op == 0x77 && (v.minor == 3 || v.minor == 4))

/-- A word whose stores or atomics of global memory are acknowledged: it moves the fence horizon (R75). -/
def View.acknowledged (v : View) : Bool :=
  let op := v.op
  (match v with
    | .mem 0x58 _ _ w => w.sz == 0
    | _ => false) || op == 0x5A || op == 0x5E || op == 0x61 || op == 0x62 || op == 0x63 || op == 0x65
    || (op == 0x67 && v.minor == 1)

/-- An engine command whose flags are ORed into `fst` at its retirement (R45, R177, R317, R332 to R338). -/
def View.engineFlags (v : View) : Bool :=
  let op := v.op
  op == 0x6B || op == 0x78 || op == 0x79 || (op == 0x7B && v.minor != 3) || op == 0x7C || (op == 0x7D && v.minor == 2)

/-- A word that raises `fst` flags, at its issue or when its command retires (R45, R104). -/
def View.flags (v : View) : Bool :=
  let op := v.op
  v.engineFlags ||
  (0x35 ≤ op && op ≤ 0x3E) || (op == 0x3F && !(v.minor == 0 || v.minor == 1 || v.minor == 14))
    || (0x40 ≤ op && op ≤ 0x4F) || op == 0x51 || op == 0x52 || op == 0x53 || op == 0x56 || op == 0x57

/-- The entry of cvt rounds; the others are exact (R277). -/
def cvtRounds (m : Nat) : Bool := !(m ≤ 3 || m == 8 || m == 14 || m == 15 || m == 32 || m == 33)

/-- A word that rounds, so samples `round` (R105, R177, R186, R207). -/
def View.rounds (v : View) : Bool :=
  let op := v.op
  (0x35 ≤ op && op ≤ 0x38) || (op == 0x3F && ((2 ≤ v.minor && v.minor ≤ 8) || v.minor == 12)) || op == 0x40
    || (0x41 ≤ op && op ≤ 0x43) || (0x46 ≤ op && op ≤ 0x4F && (op != 0x4C || cvtRounds v.minor)) || op == 0x56 || op == 0x6B
    || (op == 0x7B && v.minor != 3) || op == 0x7C || (op == 0x7D && v.minor == 2)

/-- A matrix command (R330). -/
def View.matrix (v : View) : Bool :=
  (0x78 ≤ v.op && v.op ≤ 0x7C) || (v.op == 0x7D && (v.minor == 0 || v.minor == 2))

/-- A global access or an engine command, which takes its hypothesis from `hyp` (R147, R207). -/
def View.samplesHyp (v : View) : Bool :=
  let op := v.op
  op == 0x5D || op == 0x5E || (0x61 ≤ op && op ≤ 0x63) || op == 0x65 || (op == 0x67 && v.minor == 2) || op == 0x68
    || (0x6A ≤ op && op ≤ 0x6D) || op == 0x76 || op == 0x77 || v.matrix
    || (match v with
        | .mem o _ _ w => 0x58 ≤ o && o ≤ 0x5A && w.sz == 0
        | _ => false)

/-- The word has a row of the opcode table. -/
def View.assigned (v : View) : Bool :=
  match v with
  | .rm _ m _ _ _ => m != 63
  | _ => true

/-- The csrs a word samples (R207), with the pivot csrs that an `mfact` captures and the address that a `sys.eret` takes (R343). -/
def View.csrReads (v : View) : List Nat :=
  if !v.assigned then [] else (if v.rounds then [10] else []) ++ (if v.matrix then [19] else []) ++ (if v.samplesHyp then [18] else [])
    ++ (if v.op = 0x7C then [20, 21, 22] else []) ++ (if v.op = 0x7F ∧ v.minor = 0 then [26, 27] else [])

/-- The csrs a word writes without naming them in `csr` (R207). DESIGN CHOICE: `cnt`, which a command raises at its issue, is
none of them (log 58). -/
def View.csrWrites (v : View) : List Nat :=
  (if v.op = 0x7D ∧ v.minor = 1 then [19] else []) ++ (if v.op = 0x77 ∧ (v.minor = 1 ∨ v.minor = 2) then [18] else [])
    ++ (if v.op = 0x32 then [17] else [])

/-- The csrs whose change by a word counts only against a word that names them in `csr` (R207). -/
def View.csrSoft (hinged : Bool) (v : View) : List Nat :=
  if !v.assigned then [] else (if v.flags then [15] else []) ++ (if v.acquires hinged then [12] else []) ++ (if v.acknowledged then [13, 14] else [])

/-! ## Dependence within a chained set -/

/-- A register or object as R207 compares it. -/
inductive Res where
  | v (n : Nat)
  | g (n : Nat)
  | acc (n : Nat)
  | slot (n : Nat)
  | latch (n : Nat)
  | queue (n : Nat)
  | csr (n : Nat)
  | allV
  deriving DecidableEq, Repr

/-- The registers of one operand under the word's U bit (R216). -/
def Opd.res (u : Bool) (o : Opd) : List Res :=
  (List.range o.count).map fun i =>
    let n := o.num + i
    match o.space with
    | .reg => if u then .g n else if n < 56 then .v n else .g (n - 56)
    | .g => .g n
    | .acc => .acc n
    | .slot => .slot n
    | .latch => .latch n
    | .queue => .queue n
    | .csr => .csr n
    | .allV => .allV

/-- What a word reads (R207). -/
def View.reads (width : Nat) (v : View) : List Res :=
  ((v.ops width).filter (·.rd)).flatMap (Opd.res v.u) ++ v.csrReads.map .csr

/-- What a word writes (R207). -/
def View.writes (width : Nat) (v : View) : List Res :=
  ((v.ops width).filter (·.wr)).flatMap (Opd.res v.u) ++ v.csrWrites.map .csr

/-- Two resources are one for R207: rget reads and rput writes every v register (R257). -/
def Res.hits (a b : Res) : Bool :=
  match a, b with
  | .allV, .v _ => true
  | .v _, .allV => true
  | a, b => a == b

/-- `y` depends on the earlier word `x` (R207, condition 5). -/
def View.dependsOn (width : Nat) (hinged : Bool) (y x : View) : Bool :=
  ((y.reads width ++ y.writes width).any fun r => (x.writes width).any r.hits)
    || ((y.ops width).any fun o => o.space == .csr && (x.csrSoft hinged).contains o.num)
    || ((x.ops width).any fun o => o.space == .csr && o.wr && (y.csrSoft hinged).contains o.num)

/-- The word at `y` breaks a condition of R207 against the earlier words `before` of its set; `last` says that it ends
the set and `w2` that it is W2 of the packet. -/
def View.breaksSet (width : Nat) (hinged : Bool) (before : List View) (y : View) (last c : Bool) : Bool :=
  (pipeOf y.op == .group && !last) || (last && c)
    || before.any fun x => (pipeOf x.op == pipeOf y.op) || (x.u != y.u) || y.dependsOn width hinged x

/-! ## Legality of a word by itself -/

/-- Base alignment, extent, the U = 0 destination rule and the K rule of R216; the limits of object numbers of R282,
R311 and R330. -/
def Opd.ok (u : Bool) (o : Opd) : Bool :=
  match o.space with
  | .reg =>
    o.num % o.align == 0 && o.num + o.count ≤ 64 && (u || o.num + o.count ≤ 56 || (56 ≤ o.num && !o.wr && !o.k))
  | .g => u || !o.k
  | .acc => o.num < 4 && !o.k
  | .slot => o.num < 4 && !o.k && !o.e
  | .latch => o.num < 16 && !o.k && !o.e
  | .queue => o.num < 8 && !o.k && !o.e
  | .csr => o.num < 34
  | .allV => true

/-- The csrs that a write traps on (R342). -/
def csrReadOnly (n : Nat) : Bool := n ≤ 9 || n == 13 || n == 14 || n == 18 || n == 29 || n == 32

/-- The fields that L = 1 requires zero (R209, R210). -/
def View.litOk (v : View) : Bool :=
  match v with
  | .rr op _ _ w => !w.l || (!w.kb && !w.eb && (w.b == 0 || (0x26 ≤ op && op ≤ 0x29)))
  | .rm op m _ _ w => !w.l || (w.a == 0 && !w.ka && !w.ea && (op != 0x4C || (cvtWidths m).2 == 1))
  | .rn _ _ _ _ w => !w.l || (w.a == 0 && !w.ka && !w.ea)
  | _ => true

/-- ORD, SCOPE and SZ of a MEM word (R213, R214, R290). -/
def memOk (op : Nat) (w : MEM) : Bool :=
  let store := op == 0x5E || op == 0x60 || op == 0x58 || op == 0x5A
  let ord := w.o.extractLsb' 3 2
  w.sz != 7 && !(store && (w.sz == 5 || w.sz == 6))
    && (!w.l || (ord != 3 && (w.o.extractLsb' 0 3).toNat ≤ 5 && !(store && ord == 1) && !(!store && ord == 2)))

/-- What a row limits beside its reserved fields: scopes, read-only csrs, the segment index, fragments below 56,
`mscale` onto itself, `latch.init lk15` (R230, R289, R322, R332, R335, R342). -/
def View.rowOk (v : View) : Bool :=
  match v with
  | .rr op _ _ w =>
    if op = 0x7A then w.a != w.d
    else if op = 0x78 then w.a.toNat < 56 && w.b.toNat < 56
    else true
  | .rm op m _ _ w => !(op == 0x6F && m == 0 && w.d == 15)
  | .rn op wr _ _ w =>
    if op = 0x5C then w.m.toNat < 20
    else if op = 0x7E ∧ wr then !csrReadOnly w.m.toNat
    else true
  | .fn k w => 1 ≤ k && k ≤ 3 && w.scope.toNat ≤ 5
  | .mem op _ _ w => memOk op w
  | _ => true

/-- The legality of a word that rests on the word alone (R208 to R218, R235 step 2). -/
def View.wf (v : View) : Bool := v.ok && v.litOk && v.rowOk && (v.ops 64).all (Opd.ok v.u)

end Sys2Proof
end

