-- ==== Sys2Proof/WellFormed.lean ====
section
/-! DEFINITION. Well-formed instructions: a word whose fields the spec allows whatever the kernel's register counts
(R218); an operation of the device whose numbers exist on the device (R2, R399, R427). -/

namespace Sys2Proof

/-- The ranges of the numbers a device operation names: clusters 0 to 7, cores 0 to 255, process slots 0 to 63, ports 0
to 15, wavelengths 0 to 15. -/
def Instr.eventWf (i : Instr) : Bool :=
  match i with
  | .teamPlacement cl core => cl < 8 && core < 256
  | .carveReservation cl => cl < 8
  | .steal cl => cl < 8
  | .priorityRaise cl _ => cl < 8
  | .storeBufferEntryDrain cl core _ => cl < 8 && core < 256
  | .slotEnable p => p < 64
  | .slotHold p _ => p < 64
  | .slotTeardown p => p < 64
  | .launchDoorbell p _ => p < 64
  | .launchEntryTake p => p < 64
  | .completionConsumed p _ => p < 64
  | .fbciWrite p _ => p < 64
  | .fackRetry p _ => p < 64
  | .fackFail p _ => p < 64
  | .dlnow p => p < 64
  | .portEnable _ n => n < 16
  | .portDisable _ n => n < 16
  | .portTrained n _ => n < 16
  | .portTrainingTimeout n => n < 16
  | .wavelengthLost _ wave => wave < 16
  | .linkRetryExhausted n => n < 16
  | .porterrClear n => n < 16
  | _ => true

/-- A well-formed instruction. -/
def Instr.wf (i : Instr) : Bool :=
  match i.view with
  | .event => i.eventWf
  | v => v.wf

end Sys2Proof
end

