-- ==== Sys2Proof/Machine/Ops.lean ====
section
/-! DEFINITION. The issue of one word, which every word's meaning shares: the checks in the order of R235, the register
states of R39 and R40, the writes, the K marks, the program counters of R203; and taking a trap and returning from one
(R41 to R44). -/

namespace Sys2Proof

/-- A long-latency producer: its destination registers do not wait for an older producer (R39). A word that is one only
at times waits for its destination in its own body. -/
def View.producer (v : View) : Bool :=
  let op := v.op
  op == 0x5D || op == 0x5F || (0x61 ≤ op && op ≤ 0x65) || op == 0x73 || op == 0x2B || op == 0x56
    || (op == 0x7B && v.minor == 0)

/-- The operand exists in this kernel: v registers below `.regs`, declared accumulators and slots (R216, R218, R29). -/
def Opd.fits (o : Opd) (u : Bool) (t : Machine.Team) : Bool :=
  match o.space with
  | .reg => u || decide (56 ≤ o.num) || decide (o.num + o.count ≤ t.hdr.regs)
  | .acc => decide (o.num < t.hdr.accs)
  | .slot => decide (o.num < t.record.slots)
  | _ => true

/-- Step 2 of R235 but for the literal: the word's fields, its minor, its registers. -/
def View.legal (v : View) (t : Machine.Team) : Bool :=
  v.wf && (v.ops t.hdr.groupWidth).all fun o => o.ok v.u && o.fits v.u t

end Sys2Proof

namespace Sys2Proof.Machine

open Sys2Proof

/-! ## Causes (R234) -/

def cIllegal : Nat := 0x01
def cRegAbsent : Nat := 0x02
def cRegEmpty : Nat := 0x03
def cMisalign : Nat := 0x04
def cXlate : Nat := 0x05
def cPerm : Nat := 0x06
def cSpRange : Nat := 0x07
def cArith : Nat := 0x08
def cOrphan : Nat := 0x09
def cLatchFault : Nat := 0x0A
def cDeadline : Nat := 0x0B
def cQueue : Nat := 0x0C
def cPriv : Nat := 0x0D
def cBreak : Nat := 0x0E
def cAtomic : Nat := 0x0F
def cStruct : Nat := 0x10
def cPivot : Nat := 0x11
def cHypRemote : Nat := 0x12
def cEcc : Nat := 0x13
def cUser : Nat := 0x30

/-! ## Taking a trap and returning from it -/

/-- What a thread holds when it enters the handler (R42). -/
def Thread.trapped (th : Thread) (trapv : DWord) (cause : Nat) (datum : Word) (addr : DWord) (stamp : Nat) : Thread :=
  { th with trapc := BitVec.ofNat 32 cause, trapa := addr, trapd := datum, pc := pcWrap trapv, inHandler := true,
            wait := .none, passed := none, popping := none, cover := 0, lastIssue := stamp }

/-- Taking a trap (R42, R43): the registers of the entry, or without a vector, or in a handler, the kill of the team. An
ORPHAN is taken in a handler too, and without a vector it ends the thread. -/
def State.takeTrap (s : State) (uid gid t cause : Nat) (datum : Word) (addr : DWord) : State :=
  match s.team? uid with
  | none => s
  | some tm =>
    match (tm.groups[gid]?).bind fun g => g.threads[t]? with
    | none => s
    | some th =>
      if !th.live then s
      else if tm.hdr.trapv = 0 then
        if cause = cOrphan then s.exitThread uid gid t addr else s.killTeam uid cause addr
      else if th.inHandler ∧ cause ≠ cOrphan then s.killTeam uid cause addr
      else s.mapGroup uid gid fun g => g.mapThread t fun th => th.trapped tm.hdr.trapv cause datum addr s.nextId

/-- Return from a handler (R42, R346): a DEADLINE that fell due in it is taken before the word at the target, to which the
word's jump goes. -/
def Thread.returned (th : Thread) : Thread := { th with inHandler := false, atEret := th.dlPend.isSome }

/-! ## The issue in hand -/

/-- What a word's body may use: the word, the issue in hand, its team and group, and the threads that run it. -/
structure Issue where
  v : View
  c : Cur
  t : Team
  g : Group
  ts : List Nat
  base : Nat

/-- The lowest thread that runs the word; a uniform word runs once with it (R219). -/
def Issue.first (i : Issue) : Nat := i.ts.headD 0

/-- The thread whose registers a thread of the word reads: a uniform word reads once, with the lowest thread (R219). -/
def Issue.one (i : Issue) (t : Nat) : Nat := if i.v.u then i.first else t

/-- A register field of a thread as it stood before the chained set (R40). -/
def Issue.regState (i : Issue) (t n : Nat) : Reg := i.c.snap.reg i.v.u t n

/-- Rd of R219: the value of a register field; an ABSENT one gives the free value of log 6. -/
def Issue.rd (i : Issue) (t n : Nat) : Word :=
  let r := i.regState t n
  if r.st = .absent then i.c.snap.absentValue i.v.u t n (i.base + 64 * t + n) else r.val

/-- A pair, the low word first (R100). -/
def Issue.rd2 (i : Issue) (t n : Nat) : DWord := i.rd t (n + 1) ++ i.rd t n

/-- `k` registers from `n` up. -/
def Issue.rdN (i : Issue) (t n : Nat) : Nat → List Word
  | 0 => []
  | k + 1 => i.rd t n :: i.rdN t (n + 1) k

/-- A g register read by its own number (R250). -/
def Issue.rdG (i : Issue) (n : Nat) : Word :=
  let r := i.c.snap.g.getD n Reg.absent
  if r.st = .absent then i.c.snap.absentValue true 0 n (i.base + n) else r.val

/-- A long accumulator of a thread. -/
def Issue.acc (i : Issue) (t a : Nat) : AccCell :=
  ((i.c.snap.threads[t]?).bind fun th => th.acc[a]?).getD { acc := LongAcc.zero, prod := 0 }

/-- A thread of the group as it stands. -/
def Issue.thread? (i : Issue) (t : Nat) : Option Thread := i.g.threads[t]?

/-- A thread of the group as it stood before the chained set. -/
def Issue.before? (i : Issue) (t : Nat) : Option Thread := i.c.snap.threads[t]?

/-- The issue stall of the word in hand, once begun (R296). -/
def Issue.begun (i : Issue) : Option Stall := i.c.snap.stall.filter fun x => x.begun && x.pc == i.c.pc

/-- The literal word of the packet. -/
def Issue.lit (i : Issue) : Word := i.c.lit

/-- Source a of an RM word (R210). -/
def Issue.srcA (i : Issue) (w : RM) (t : Nat) : Word := if w.l then i.lit else i.rd t w.a.toNat
/-- Source b of an RR word (R236). -/
def Issue.srcB (i : Issue) (w : RR) (t : Nat) : Word := if w.l then i.lit else i.rd t w.b.toNat

/-- The low and the high word of a pair. -/
def pairOf (n : Nat) (x : DWord) : List (Nat × Word) := [(n, x.extractLsb' 0 32), (n + 1, x.extractLsb' 32 32)]

/-! ## What a word does -/

/-- Why a word does not complete now: a wait of R32, an issue stall (R296), or a parked access (R41). -/
inductive Hold where
  | wait (w : Wait)
  | stall (x : Stall)
  | park
  deriving DecidableEq, Repr

/-- The outcome of a word's body. `trap` names the threads that trap instead; for a uniform word the entry of its first
thread stands for the whole subset (R41), unless `each` says that the threads trap one by one (R45). -/
structure Done where
  st : State
  trap : Nat → Option (Nat × Word) := fun _ => none
  res : Nat → List (Nat × Word) := fun _ => []
  gres : List (Nat × Word) := []
  pend : Nat → List (Nat × Nat) := fun _ => []
  acc : Nat → List (Nat × AccCell) := fun _ => []
  flags : Nat → Word := fun _ => 0
  jump : Nat → Option DWord := fun _ => none
  edit : Nat → Thread → Thread := fun _ th => th
  hold : Option Hold := none
  quiet : Bool := false
  each : Bool := false

/-- Nothing but the state as it is. -/
def nothing (s : State) : Done := { st := s }

/-- A trap of every thread that runs the word. -/
def allTrap (s : State) (cause : Nat) (datum : Word) : Done := { st := s, trap := fun _ => some (cause, datum) }

/-- A wait. -/
def waitFor (s : State) (w : Wait) : Done := { st := s, hold := some (.wait w) }

/-- An issue stall with the word begun. -/
def stallFor (s : State) (i : Issue) (result : Word) (waitUntil : Nat) (holds : List Nat := []) : Done :=
  { st := s, hold := some (.stall { pc := i.c.pc, setPc := i.c.setPc, begun := true, result := result, waitUntil := waitUntil, holds := holds }) }

/-! ## Legality and register states -/

/-- `sys` 1 to 5 in a user context (R232). -/
def State.forbidden (s : State) (v : View) (t : Team) : Bool :=
  v.op == 0x7F && decide (1 ≤ v.minor) && !(s.slot t.slot).xctl.getLsbD 2

/-- The register-state check of one thread: ready, waiting, or the cause and the field of a trap. -/
inductive Ready where
  | ready
  | waiting
  | trap (cause : Nat) (field : Word)
  deriving DecidableEq, Repr

/-- One register as a source (R39). -/
def readable (absm : Word) (e : Bool) (field : Nat) (r : Reg) : Ready :=
  match r.st with
  | .full => .ready
  | .empty => if e then .trap cRegEmpty (BitVec.ofNat 32 field) else .waiting
  | .absent => if absm = 0 then .ready else .trap cRegAbsent (BitVec.ofNat 32 field)

/-- The first check of a list that is not ready. -/
def Ready.first : List Ready → Ready
  | [] => .ready
  | .ready :: rest => Ready.first rest
  | x :: _ => x

/-- An accumulator as a source (R282, R288). -/
def readableAcc (e : Bool) (field : Nat) (a : AccCell) : Ready :=
  if a.prod = 0 then .ready else if e then .trap cRegEmpty (BitVec.ofNat 32 field) else .waiting

/-- A source operand of a thread, as it stood before the chained set; a trap names its register field (R40, R234). -/
def Issue.source (i : Issue) (t : Nat) (o : Opd) : Ready :=
  match o.space with
  | .reg => .first ((List.range o.count).map fun k => readable i.c.snap.absm o.e o.field (i.regState t (o.num + k)))
  | .g => readable i.c.snap.absm o.e o.num (i.c.snap.g.getD o.num Reg.absent)
  | .acc => if i.v.op = 0x56 ∧ !o.e then .ready else readableAcc o.e o.num (i.acc t o.num)
  | _ => .ready

/-- A destination operand of a thread waits for older producers (R39, R282). -/
def Issue.dest (i : Issue) (t : Nat) (o : Opd) : Ready :=
  match o.space with
  | .reg =>
    if i.v.producer ∨ (List.range o.count).all (fun k => (i.regState t (o.num + k)).prod == 0) then .ready else .waiting
  | .g => if (i.c.snap.g.getD o.num Reg.absent).prod = 0 then .ready else .waiting
  | .acc => if (i.acc t o.num).prod = 0 then .ready else .waiting
  | _ => .ready

/-- The register-state check of a thread: its sources in the order D, A, B, then its destinations. DESIGN CHOICE: the first
of them that is not ready decides, so that a trap before a wait in that order is taken at once (log 11). -/
def Issue.check (i : Issue) (ops : List Opd) (t : Nat) : Ready :=
  .first ((ops.filter (·.rd)).map (i.source t) ++ (ops.filter (·.wr)).map (i.dest t))

/-- The check of a thread traps. -/
def Ready.trap? (r : Ready) : Option (Nat × Word) :=
  match r with
  | .trap c f => some (c, f)
  | _ => none

/-! ## Effects -/

/-- The register fields that K marks free (R40, R217). -/
def freesOf (ops : List Opd) : List Nat :=
  (ops.filter fun o => o.k && o.space == .reg).flatMap fun o => (List.range o.count).map (· + o.num)

/-- The g registers that K frees by their own number (R250). -/
def gFreesOf (ops : List Opd) : List Nat := (ops.filter fun o => o.k && o.space == .g).map (·.num)

/-- A register made ABSENT. -/
def Reg.freed (r : Reg) : Reg := { r with st := .absent, prod := 0 }

/-- The registers of a thread after a per-thread word: K marks, then results, then outstanding results (R40). -/
def Done.vRegs (d : Done) (frees : List Nat) (t : Nat) (th : Thread) : Thread :=
  let th := frees.foldl (fun th n => th.setV n Reg.freed) th
  let th := (d.res t).foldl (fun th w => th.setV w.1 fun _ => Reg.full w.2) th
  (d.pend t).foldl (fun th w => th.setV w.1 fun r => { r with st := .empty, prod := w.2 }) th

/-- The rest of a thread after a word: accumulators, flags, the program counter (R203). -/
def Done.common (d : Done) (pc : DWord) (stamp t : Nat) (th : Thread) : Thread :=
  let th := (d.acc t).foldl (fun th w => { th with acc := th.acc.set w.1 w.2 }) th
  d.edit t { th with fst := th.fst ||| d.flags t, pc := (d.jump t).getD (nextPc pc), wait := .none, passed := none, popping := none,
                     lastIssue := if d.quiet then th.lastIssue else stamp }

/-- The g registers after a word. -/
def Done.gRegs (d : Done) (u : Bool) (frees gFrees : List Nat) (t0 : Nat) (g : Group) : Group :=
  let g := gFrees.foldl (fun g n => g.setG n Reg.freed) g
  let g := if u then frees.foldl (fun g n => g.setG n Reg.freed) g else g
  let g := if u then (d.res t0).foldl (fun g w => g.setG w.1 fun _ => Reg.full w.2) g else g
  let g := d.gres.foldl (fun g w => g.setG w.1 fun _ => Reg.full w.2) g
  if u then (d.pend t0).foldl (fun g w => g.setG w.1 fun r => { r with st := .empty, prod := w.2 }) g else g

/-- The group after a word that threads `ok` complete. -/
def Done.group (d : Done) (u : Bool) (ops : List Opd) (pc setPc : DWord) (stamp : Nat) (ok : List Nat)
    (g : Group) : Group :=
  if ok = [] then g
  else
    let g := d.gRegs u (freesOf ops) (gFreesOf ops) (ok.headD 0) g
    { g.mapThreads ok fun t th => d.common pc stamp t (if u then th else d.vRegs (freesOf ops) t th) with
        stall := none, failed := if g.parkPc = setPc then [] else g.failed }

/-- A wait of the whole subset (R32, R39). -/
def State.waitAll (s : State) (c : Cur) (w : Wait) : State :=
  { s.mapGroup c.uid c.gid fun g => g.mapThreads c.active fun _ th => { th with wait := w } with
      cur := some { c with waiting := true } }

/-- A cause that a report point or an engine event gives (R41): the word before which it is taken is named by itself, and
the earlier words of its set keep their effects. -/
def reported (cause : Nat) : Bool := cause == cArith || cause == cLatchFault || cause == cPivot

/-- The address a trap of the word in hand saves: the first word of its chained set, or the reporting word (R42). -/
def Cur.trapPc (c : Cur) (cause : Nat) : DWord := if reported cause then c.pc else c.setPc

/-- The pages that the driver has failed for the set at `pc` have served their access (R419). -/
def State.servedFails (s : State) (uid gid : Nat) (pc : DWord) : State :=
  s.mapGroup uid gid fun g => if g.parkPc = pc then { g with failed := [] } else g

/-- Traps taken by some threads, and noted in the issue in hand (R42). -/
def State.deliver (s : State) (c : Cur) (traps : List TrapRec) : State :=
  let s := if traps = [] then s else s.servedFails c.uid c.gid c.setPc
  let s := traps.foldl (fun s x => s.takeTrap c.uid c.gid x.thread x.cause x.datum (c.trapPc x.cause)) s
  { s with cur := some { c with traps := c.traps ++ traps }, nextId := s.nextId + 1 }

/-- One trap for every active thread. -/
def Cur.allTraps (c : Cur) (cause : Nat) (datum : Word) : List TrapRec :=
  c.active.map fun t => { thread := t, cause := cause, datum := datum }

/-- The free values used by a word that read an ABSENT register (log 6). -/
def State.useFree (s : State) (i : Issue) (ops : List Opd) : State :=
  let absent := i.ts.any fun t => (ops.filter (·.rd)).any fun o =>
    match o.space with
    | .reg => (List.range o.count).any fun k => decide ((i.regState t (o.num + k)).st = .absent)
    | .g => decide ((i.c.snap.g.getD o.num Reg.absent).st = .absent)
    | .allV => true
    | _ => false
  if absent then { s with free := s.free + 4096 } else s

/-- The traps that a word's body gives: of a uniform word the first thread's stands for all, unless they trap one by
one (R41, R45). -/
def Done.late (d : Done) (i : Issue) : List TrapRec :=
  if i.v.u ∧ !d.each then
    match d.trap i.first with
    | some (cause, datum) => i.c.allTraps cause datum
    | none => []
  else i.ts.filterMap fun t => (d.trap t).map fun x => { thread := t, cause := x.1, datum := x.2 }

/-- The end of a word that completes: the threads that trapped take their traps, the others complete (R40, R41). -/
def Done.complete (d : Done) (i : Issue) (ops : List Opd) (early late : List TrapRec) (ok : List Nat) : State :=
  let s := if ok = [] then d.st else d.st.useFree i ops
  ({ s.mapGroup i.c.uid i.c.gid (d.group i.v.u ops i.c.pc i.c.setPc s.nextId ok) with nextId := s.nextId + 1 }).deliver i.c (early ++ late)

/-- The end of a word: the threads that trapped take their traps, the others complete (R40, R41). -/
def Done.finish (d : Done) (i : Issue) (ops : List Opd) (early : List TrapRec) : State :=
  let c := i.c
  match d.hold with
  | some (.wait w) => d.st.waitAll c w
  | some (.stall x) =>
    { d.st.mapGroup c.uid c.gid fun g => { g with stall := some x } with cur := some { c with waiting := true } }
  | some .park => { d.st with cur := some { c with waiting := true } }
  | none => d.complete i ops early (d.late i) (i.ts.filter fun t => !((d.late i).any fun x => x.thread == t))

/-- A word that reaches its body (steps 4 and 5 of R235). -/
def runBody (i : Issue) (ops : List Opd) (body : State → Issue → Done) (s : State) : State :=
  let checks := i.c.active.map fun t => (t, i.check ops t)
  if checks.any fun x => x.2 == .waiting then s.waitAll i.c .reg
  else
    let early := checks.filterMap fun x =>
      x.2.trap?.map fun y => { thread := x.1, cause := y.1, datum := y.2 : TrapRec }
    if early = [] then (body s i).finish i ops []
    else if i.v.u then
      match early with
      | x :: _ => s.deliver i.c (i.c.allTraps x.cause x.datum)
      | [] => s
    else
      let ts := i.c.active.filter fun t => !(early.any fun x => x.thread == t)
      if ts = [] then s.deliver i.c early else (body s { i with ts := ts }).finish { i with ts := ts } ops early

/-- The checks of a word in the order of R235, then its body. `litOk` is the check of a literal operand, `pick` the
operands the word reads and writes with the values at hand. -/
def runWord (v : View) (litOk : Issue → Word → Bool) (pick : Issue → List Opd → List Opd) (body : State → Issue → Done)
    (s : State) (c : Cur) (t : Team) (g : Group) : State :=
  let i : Issue := { v := v, c := c, t := t, g := g, ts := c.active, base := s.free }
  if !v.legal t ∨ (v.lit ∧ !litOk i c.lit) then s.deliver c (c.allTraps cIllegal c.word)
  else if s.forbidden v t then s.deliver c (c.allTraps cPriv c.word)
  else runBody i (pick i (v.ops t.hdr.groupWidth)) body s

/-- The issue of a word with a literal check and an operand choice. -/
def issueWith (v : View) (litOk : Issue → Word → Bool) (pick : Issue → List Opd → List Opd) (body : State → Issue → Done)
    (s : State) : Host.Outcome State Fault Refusal :=
  match s.cur with
  | none => .fault .noIssue
  | some c =>
    match s.team? c.uid with
    | none => .fault .noIssue
    | some t =>
      match t.groups[c.gid]? with
      | none => .fault .noIssue
      | some g => .next (runWord v litOk pick body s c t g)

/-- The issue of a word. -/
def issueWord (v : View) (body : State → Issue → Done) (s : State) : Host.Outcome State Fault Refusal :=
  issueWith v (fun _ _ => true) (fun _ l => l) body s

/-- A word that only computes registers and flags: per thread, the registers it writes and the flags it raises. -/
def compute (f : Issue → Nat → List (Nat × Word) × Word) (s : State) (i : Issue) : Done :=
  { st := s, res := fun t => (f i t).1, flags := fun t => (f i (i.one t)).2 }

end Sys2Proof.Machine
end

