-- ==== Sys2Proof/Machine/Forms.lean ====
section
/-! DEFINITION. The moulds that words which only compute share (R236, R242, R245, R247, R255, R269, R275, R277), and
the integer functions themselves. -/

namespace Sys2Proof.Machine

open Sys2Proof

/-- The registers a thread writes and the flags it raises. -/
abbrev Result := List (Nat × Word) × Word

/-- d from a and b (R242). -/
def binary (f : Word → Word → Word) (w : RR) (i : Issue) (t : Nat) : Result :=
  ([(w.d.toNat, f (i.rd t w.a.toNat) (i.srcB w t))], 0)

/-- d from a, b and the old d (R236). -/
def ternary (f : Word → Word → Word → Word) (w : RR) (i : Issue) (t : Nat) : Result :=
  ([(w.d.toNat, f (i.rd t w.a.toNat) (i.srcB w t) (i.rd t w.d.toNat))], 0)

/-- d from a (R245). -/
def unary (f : Word → Word) (w : RM) (i : Issue) (t : Nat) : Result := ([(w.d.toNat, f (i.srcA w t))], 0)

/-- The mode the word samples (R105). -/
def Issue.mode (i : Issue) : RMode := modeOf i.g.round
/-- The SAT bit the word samples (R105). -/
def Issue.sat (i : Issue) : Bool := satOf i.g.round

/-- d and flags from a and b (R269). -/
def fbinary (f : RMode → Word → Word → WordFl) (w : RR) (i : Issue) (t : Nat) : Result :=
  let r := f i.mode (i.rd t w.a.toNat) (i.srcB w t)
  ([(w.d.toNat, r.1)], r.2)

/-- d and flags from a, b and the old d (R269). -/
def fternary (f : RMode → Word → Word → Word → WordFl) (w : RR) (i : Issue) (t : Nat) : Result :=
  let r := f i.mode (i.rd t w.a.toNat) (i.srcB w t) (i.rd t w.d.toNat)
  ([(w.d.toNat, r.1)], r.2)

/-- d and flags from a (R273). -/
def funary (f : RMode → Word → WordFl) (w : RM) (i : Issue) (t : Nat) : Result :=
  let r := f i.mode (i.srcA w t)
  ([(w.d.toNat, r.1)], r.2)

/-- An FP64 operand b: a pair, or the FP32 value of the literal (R275). -/
def Issue.dsrcB (i : Issue) (w : RR) (t : Nat) : FVal :=
  if w.l then fp32.read i.lit.toNat else fp64.read (i.rd2 t w.b.toNat).toNat

/-- An FP64 pair from pairs a and b (R275). -/
def dbinary (f : RMode → FVal → FVal → DWordFl) (w : RR) (i : Issue) (t : Nat) : Result :=
  let r := f i.mode (fp64.read (i.rd2 t w.a.toNat).toNat) (i.dsrcB w t)
  (pairOf w.d.toNat r.1, r.2)

/-- An FP64 pair from pairs a, b and the old d (R275). -/
def dternary (f : RMode → FVal → FVal → FVal → DWordFl) (w : RR) (i : Issue) (t : Nat) : Result :=
  let r := f i.mode (fp64.read (i.rd2 t w.a.toNat).toNat) (i.dsrcB w t) (fp64.read (i.rd2 t w.d.toNat).toNat)
  (pairOf w.d.toNat r.1, r.2)

/-- A 64-bit result from pair a and b; `wide` says that b is a pair, sign-extended when a literal (R252). -/
def pairWise (f : DWord → DWord → DWord) (wide : Bool) (w : RR) (i : Issue) (t : Nat) : Result :=
  let b : DWord :=
    if wide then (if w.l then i.lit.signExtend 64 else i.rd2 t w.b.toNat) else (i.srcB w t).setWidth 64
  (pairOf w.d.toNat (f (i.rd2 t w.a.toNat) b), 0)

/-! ## Integer functions -/

/-- Bits [63:32] of the signed product (R242). -/
def mulHiS (a b : Word) : Word := BitVec.ofInt 32 (a.toInt * b.toInt / 2 ^ 32)
/-- Bits [63:32] of the unsigned product (R242). -/
def mulHiZ (a b : Word) : Word := BitVec.ofNat 32 (a.toNat * b.toNat / 2 ^ 32)

/-- shl (R243). -/
def shiftL (a b : Word) : Word := if b.toNat < 32 then a <<< b.toNat else 0
/-- shr (R243). -/
def shiftR (a b : Word) : Word := if b.toNat < 32 then a >>> b.toNat else 0
/-- sar (R243). -/
def shiftA (a b : Word) : Word := a.sshiftRight (min b.toNat 31)
/-- rot (R243). -/
def rotL (a b : Word) : Word := a.rotateLeft (b.toNat % 32)

/-- pos of a field descriptor (R244). -/
def fieldPos (b : Word) : Nat := b.toNat % 32
/-- w of a field descriptor: min(len, 32 - pos), len above 32 read as 32 (R244). -/
def fieldWidth (b : Word) : Nat := min (min (b.toNat / 256 % 64) 32) (32 - fieldPos b)
/-- mask of a field descriptor (R244). -/
def fieldMask (b : Word) : Word := BitVec.ofNat 32 ((2 ^ fieldWidth b - 1) * 2 ^ fieldPos b)
/-- bfe.z (R244). -/
def bitField (a b : Word) : Word := (a &&& fieldMask b) >>> fieldPos b
/-- bfe.s (R244). -/
def bitFieldS (a b : Word) : Word :=
  let w := fieldWidth b
  let x := (bitField a b).toNat
  if w = 0 then 0 else if 2 ^ (w - 1) ≤ x then BitVec.ofInt 32 ((x : Int) - 2 ^ w) else BitVec.ofNat 32 x
/-- bfi (R244). -/
def bitInsert (a b d : Word) : Word := (d &&& ~~~fieldMask b) ||| ((a <<< fieldPos b) &&& fieldMask b)

/-- Number of 1 bits (R245). -/
def popCount (a : Word) : Word := BitVec.ofNat 32 ((List.range 32).countP fun k => a.getLsbD k)
/-- Leading zeros (R245). -/
def leadingZeros (a : Word) : Word :=
  BitVec.ofNat 32 (((List.range 32).find? fun k => a.getLsbD (31 - k)).getD 32)
/-- Trailing zeros (R245). -/
def trailingZeros (a : Word) : Word := BitVec.ofNat 32 (((List.range 32).find? fun k => a.getLsbD k).getD 32)
/-- Bit i moved to bit 31 - i (R245). -/
def bitReverse (a : Word) : Word :=
  (List.range 32).foldl (fun x k => (x <<< 1) ||| (if a.getLsbD k then 1 else 0)) 0
/-- Bytes in reverse order (R245). -/
def byteSwap (a : Word) : Word :=
  a.extractLsb' 0 8 ++ a.extractLsb' 8 8 ++ a.extractLsb' 16 8 ++ a.extractLsb' 24 8
/-- abs (R245). -/
def absWord (a : Word) : Word := if a.msb then 0 - a else a

/-- The smaller as signed (R242). -/
def minSigned (a b : Word) : Word := if a.sle b then a else b
/-- The larger as signed (R242). -/
def maxSigned (a b : Word) : Word := if a.sle b then b else a
/-- The smaller as unsigned (R242). -/
def minUnsigned (a b : Word) : Word := if a ≤ b then a else b
/-- The larger as unsigned (R242). -/
def maxUnsigned (a b : Word) : Word := if a ≤ b then b else a

end Sys2Proof.Machine
end

