-- ==== Sys2Proof/Machine/Lanes.lean ====
section
/-! DEFINITION. The grouping stage: which threads may issue, the issue subsets and their turns (R34 to R36), the groups
of a lane and their exchange (R32, R33), and the long-latency results on their way to registers (R39). -/

namespace Sys2Proof.Machine

open Sys2Proof

/-- A thread whose PC is its meeting register is held (R35). -/
def Thread.isHeld (th : Thread) : Bool := th.live && th.meet != 0 && th.pc == th.meet

/-- A live, unheld thread that waits for nothing (R34). -/
def Thread.issuable (th : Thread) : Bool := th.live && th.wait == .none && !th.isHeld

/-- The threads of a group that satisfy a test, ascending. -/
def Group.threadsWith (g : Group) (p : Thread → Bool) : List Nat :=
  (List.range g.threads.length).filter fun t => (g.threads[t]?.map p).getD false

/-- The group has a word to issue and is not parked (R32, R41). -/
def Group.ready (g : Group) : Bool := g.parked.isEmpty && g.threads.any Thread.issuable

/-- The group waits: a live thread waits and none may issue, or it is parked (R32, R41; log 25). -/
def Group.isWaiting (g : Group) : Bool :=
  !g.parked.isEmpty || (g.threads.any (fun th => th.live && th.wait != .none) && !g.threads.any Thread.issuable)

/-- The issue subset whose turn it is (R34): of the threads with equal PC, where those that a phase completion has
released from the `latch.wait` there go on without those that come to it later (R126), the ones that issued least
recently, ties to the lowest thread. The issue time of a subset is the latest of its members. -/
def Group.subset (g : Group) : Option (DWord × List Nat) :=
  let ts := g.threadsWith Thread.issuable
  let pc := fun t => (g.threads[t]?.map (·.pc)).getD 0
  let passed := fun t => (g.threads[t]?.bind (·.passed)).isSome
  let mine := fun u => ts.filter fun t => pc t == pc u && passed t == passed u
  let turn := fun t => ((mine t).map fun u => (g.threads[u]?.map (·.lastIssue)).getD 0).foldl max 0
  (leastBy turn ts).map fun t => (pc t, mine t)

/-- The groups of a lane, each with its team. -/
def State.laneGroups (s : State) (cl core lane : Nat) : List (Nat × Nat × Group) :=
  s.teams.flatMap fun t =>
    ((List.range t.groups.length).filterMap fun k =>
      match t.groups[k]? with
      | some g => if t.cl = cl ∧ t.coreOf k = core ∧ g.lane = lane then some (t.uid, k, g) else none
      | none => none)

/-- The oldest ready pending group of the lane of a group (R32). -/
def State.oldestReady (s : State) (t : Team) (gid : Nat) (g : Group) : Option (Nat × Nat × Group) :=
  leastBy (fun x => x.2.2.age)
    ((s.laneGroups t.cl (t.coreOf gid) g.lane).filter fun x => !x.2.2.active && x.2.2.ready && !(x.1 == t.uid && x.2.1 == gid))

/-- The exchange of an active group for the oldest ready pending group of its lane; nothing when there is none
(R32, R33, R239). -/
def State.exchange (s : State) (uid gid : Nat) : State :=
  match s.team? uid with
  | none => s
  | some t =>
    match t.groups[gid]? with
    | none => s
    | some g =>
      match s.oldestReady t gid g with
      | none => s
      | some (u, k, _) =>
        (s.mapGroup uid gid fun g => { g with active := false }).mapGroup u k fun g =>
          { g with active := true, since := s.now }

/-- The target of a control word (R212). -/
def branchTarget (pc : DWord) (t : BitVec 17) : DWord := pcWrap (packetOf pc + 16 * t.signExtend 64)

/-- Threads that waited on a condition look again: those whose wait satisfies `p`. -/
def Group.wake (g : Group) (p : Wait → Bool) : Group :=
  { g with threads := g.threads.map fun th => if p th.wait then { th with wait := .none } else th }

/-- A wait for registers. -/
def Wait.isReg (w : Wait) : Bool := w == .reg

/-- The thread waits in a `qpop` of a g register. -/
def Thread.popsG (th : Thread) : Bool :=
  match th.popping with
  | some (true, _, _) => true
  | _ => false

/-- Threads that wait for a register look again when a `qpop` of a g register has ended since `old` (R39, R325). -/
def Group.afterPops (g old : Group) : Group :=
  if (old.threads.zip g.threads).any fun x => x.1.popsG && x.2.popping != x.1.popping then g.wake Wait.isReg else g

/-! ## Long-latency results (R39) -/

/-- A result on its way to the registers of thread `t` of the issuing group; `k` numbers the flights of one word. -/
def Issue.flight (i : Issue) (s : State) (t k : Nat) (what : Access) : Flight :=
  { id := s.nextId + k, batch := s.nextId, uid := i.c.uid, gid := i.c.gid, thread := t, uni := i.v.u, slot := i.t.slot,
    cl := i.t.cl, core := i.t.coreOf i.c.gid, tgt := .sp 0 0, size := 0, what := what, hyp := 0, cls := .core, acq := false,
    direct := false, lease := 0, l1ok := false, tracked := false, spCore := i.t.coreOf i.c.gid, data := [],
    l1At := i.t.coreOf i.c.gid, seen := false, bad := false, done := true, acked := true, ctime := 0 }

/-- Flights added, with their numbers used. -/
def State.addFlights (s : State) (fs : List Flight) : State :=
  { s with flights := s.flights ++ fs, nextId := s.nextId + fs.length + 64 }

/-- The destination registers of a word that is no producer this time wait for older producers (R39). -/
def Issue.destBusy (i : Issue) (t n count : Nat) : Bool :=
  (List.range count).any fun k => (i.regState t (n + k)).prod != 0

end Sys2Proof.Machine
end

