-- ==== Sys2Proof/Machine/Accum.lean ====
section
/-! DEFINITION. Long accumulators in registers (R282 to R289). -/

namespace Sys2Proof.Machine

open Sys2Proof

/-- An accumulator written. -/
def accOf (n : BitVec 6) (x : LongAcc) : List (Nat × AccCell) := [(n.toNat, { acc := x, prod := 0 })]

/-- A word that maps an accumulator to a new one with flags, per thread (R282). -/
def accWord (d : BitVec 6) (f : Issue → Nat → LongAcc × Word) (s : State) (i : Issue) : Done :=
  { nothing s with acc := fun t => accOf d (f i t).1, flags := fun t => (f i t).2 }

/-- One term of `ladd` (R284). -/
def laddTerm (m : Nat) (a : Word) : FVal :=
  match m with
  | 0 => fp32.read a.toNat
  | 1 => bf16.read (a.toNat % 2 ^ 16)
  | 2 => bf16.read (a.toNat / 2 ^ 16)
  | 3 => fp16.read (a.toNat % 2 ^ 16)
  | 4 => fp16.read (a.toNat / 2 ^ 16)
  | 5 => .ofInt a.toInt
  | _ => .ofInt a.toNat

/-- `ladd` (R284). -/
def ladd (m : Nat) (w : RM) (i : Issue) (t : Nat) : LongAcc × Word :=
  (i.acc t w.d.toNat).acc.addVal (laddTerm m (i.srcA w t))

/-- `lfma` (R285). -/
def lfma (w : RR) (i : Issue) (t : Nat) : LongAcc × Word :=
  (i.acc t w.d.toNat).acc.addProd (fp32.read (i.rd t w.a.toNat).toNat) (fp32.read (i.srcB w t).toNat)

/-- `lfmab` (R285): the product of the low halves, then that of the high halves. -/
def lfmab (w : RR) (i : Issue) (t : Nat) : LongAcc × Word :=
  let a := (i.rd t w.a.toNat).toNat
  let b := (i.srcB w t).toNat
  let x := (i.acc t w.d.toNat).acc.addProd (bf16.read (a % 2 ^ 16)) (bf16.read (b % 2 ^ 16))
  let y := x.1.addProd (bf16.read (a / 2 ^ 16)) (bf16.read (b / 2 ^ 16))
  (y.1, x.2 ||| y.2)

/-- The final rounding of `lrnd` as register words, with its flags (R121, R288). -/
def roundAcc (m : Nat) (round : Word) (c : LongAcc) : List Word × Word :=
  let one := fun r : Nat × Word => ([BitVec.ofNat 32 r.1], r.2)
  match m with
  | 0 => one (c.round fp32 (modeOf round) (satOf round))
  | 1 => one (c.round bf16 (modeOf round) (satOf round))
  | 2 => one (c.round fp16 (modeOf round) (satOf round))
  | 3 =>
    let r := c.round fp64 (modeOf round) (satOf round)
    ([BitVec.ofNat 32 r.1, BitVec.ofNat 32 (r.1 / 2 ^ 32)], r.2)
  | _ =>
    let r := c.roundS32 (modeOf round) (satOf round)
    ([r.1], r.2)

/-- Words placed in consecutive registers. -/
def regsFrom (n : Nat) (l : List Word) : List (Nat × Word) := l.mapIdx fun k x => (n + k, x)

/-- `lrnd` (R288): on an accumulator still EMPTY it becomes a long-latency producer. -/
def lrndDone (m : Nat) (w : RM) (s : State) (i : Issue) : Done :=
  let n := if m = 3 then 2 else 1
  let d := w.d.toNat
  let late := fun t => (i.acc t w.a.toNat).prod != 0
  let r := fun t => roundAcc m i.g.round (i.acc t w.a.toNat).acc
  if i.ts.any fun t => !late t && i.destBusy t d n then waitFor s .reg
  else
    let fl := (i.ts.filter late).mapIdx fun k t =>
      { i.flight s t k (.round d w.a.toNat m i.g.round) with done := false }
    { nothing (s.addFlights fl) with
        res := fun t => if late t then [] else regsFrom d (r t).1,
        flags := fun t => if late t then 0 else (r t).2,
        pend := fun t => ((fl.filter fun f => f.thread == t).flatMap fun f => (List.range n).map fun k => (d + k, f.id)) }

/-- `lgred` (R287): the merge of every cA of the subset, on its way to every cD. DESIGN CHOICE: they are merged into zero in
ascending order of the threads, on which the held segments can depend (R118, log 24). -/
def lgredDone (w : RM) (s : State) (i : Issue) : Done :=
  let all := i.ts.foldl (fun x t => x.merge (i.acc t w.a.toNat).acc) LongAcc.zero
  let fl := i.ts.mapIdx fun k t => i.flight s t k (.accs w.d.toNat all)
  { nothing (s.addFlights fl) with
      acc := fun t => ((fl.filter fun f => f.thread == t).map fun f =>
        (w.d.toNat, { acc := (i.acc t w.d.toNat).acc, prod := f.id : AccCell })) }

/-- `lseg` (R289): a held segment as a signed 64-bit pair. -/
def lsegDone (w : RN) (s : State) (i : Issue) : Done :=
  { nothing s with
      res := fun t => pairOf w.d.toNat (BitVec.ofInt 64 ((i.acc t w.a.toNat).acc.seg.getD w.m.toNat 0)) }

/-- LCLR (R283): Clears a long accumulator's value and status. -/
def execLclr (w : RM) (s : State) : Host.Outcome State Fault Refusal :=
  issueWord (.rm 0x50 0 .zero { a := true, ka := true, ea := true, l := true } w)
    (accWord w.d (fun _ _ => (LongAcc.zero, 0))) s

/-- LADD_F32 (R284): Adds an FP32 term to an accumulator. -/
def execLaddF32 (w : RM) (s : State) : Host.Outcome State Fault Refusal :=
  issueWord (.rm 0x51 0 .zero {} w) (accWord w.d (ladd 0 w)) s

/-- LADD_BF16_LO (R284): Adds the low BF16 term to an accumulator. -/
def execLaddBf16Lo (w : RM) (s : State) : Host.Outcome State Fault Refusal :=
  issueWord (.rm 0x51 1 .zero {} w) (accWord w.d (ladd 1 w)) s

/-- LADD_BF16_HI (R284): Adds the high BF16 term to an accumulator. -/
def execLaddBf16Hi (w : RM) (s : State) : Host.Outcome State Fault Refusal :=
  issueWord (.rm 0x51 2 .zero {} w) (accWord w.d (ladd 2 w)) s

/-- LADD_F16_LO (R284): Adds the low FP16 term to an accumulator. -/
def execLaddF16Lo (w : RM) (s : State) : Host.Outcome State Fault Refusal :=
  issueWord (.rm 0x51 3 .zero {} w) (accWord w.d (ladd 3 w)) s

/-- LADD_F16_HI (R284): Adds the high FP16 term to an accumulator. -/
def execLaddF16Hi (w : RM) (s : State) : Host.Outcome State Fault Refusal :=
  issueWord (.rm 0x51 4 .zero {} w) (accWord w.d (ladd 4 w)) s

/-- LADD_S32 (R284): Adds a signed integer term to an accumulator. -/
def execLaddS32 (w : RM) (s : State) : Host.Outcome State Fault Refusal :=
  issueWord (.rm 0x51 5 .zero {} w) (accWord w.d (ladd 5 w)) s

/-- LADD_Z32 (R284): Adds an unsigned integer term to an accumulator. -/
def execLaddZ32 (w : RM) (s : State) : Host.Outcome State Fault Refusal :=
  issueWord (.rm 0x51 6 .zero {} w) (accWord w.d (ladd 6 w)) s

/-- LFMA (R285): Adds an exact FP32 product to an accumulator. -/
def execLfma (w : RR) (s : State) : Host.Outcome State Fault Refusal :=
  issueWord (.rr 0x52 .zero {} w) (accWord w.d (lfma w)) s

/-- LFMAB (R285): Adds two exact BF16 products to an accumulator. -/
def execLfmab (w : RR) (s : State) : Host.Outcome State Fault Refusal :=
  issueWord (.rr 0x53 .zero {} w) (accWord w.d (lfmab w)) s

/-- LMERGE (R286): Merges one accumulator into another. -/
def execLmerge (w : RR) (s : State) : Host.Outcome State Fault Refusal :=
  issueWord (.rr 0x54 .zero { b := true, kb := true, eb := true, l := true } w)
    (accWord w.d (fun i t => ((i.acc t w.d.toNat).acc.merge (i.acc t w.a.toNat).acc, 0))) s

/-- LNORM (R283): Fully resolves an accumulator. -/
def execLnorm (w : RM) (s : State) : Host.Outcome State Fault Refusal :=
  issueWord (.rm 0x55 0 .zero { a := true, ka := true, ea := true, l := true } w)
    (accWord w.d (fun i t => ((i.acc t w.d.toNat).acc.resolve, 0))) s

/-- LRND_F32 (R288): Rounds an accumulator once to FP32. -/
def execLrndF32 (w : RM) (s : State) : Host.Outcome State Fault Refusal :=
  issueWord (.rm 0x56 0 .zero { ka := true, l := true } w) (lrndDone 0 w) s

/-- LRND_BF16 (R288): Rounds an accumulator once to BF16. -/
def execLrndBf16 (w : RM) (s : State) : Host.Outcome State Fault Refusal :=
  issueWord (.rm 0x56 1 .zero { ka := true, l := true } w) (lrndDone 1 w) s

/-- LRND_F16 (R288): Rounds an accumulator once to FP16. -/
def execLrndF16 (w : RM) (s : State) : Host.Outcome State Fault Refusal :=
  issueWord (.rm 0x56 2 .zero { ka := true, l := true } w) (lrndDone 2 w) s

/-- LRND_F64 (R288): Rounds an accumulator once to FP64. -/
def execLrndF64 (w : RM) (s : State) : Host.Outcome State Fault Refusal :=
  issueWord (.rm 0x56 3 .zero { ka := true, l := true } w) (lrndDone 3 w) s

/-- LRND_S32 (R288): Converts an accumulator to a signed 32-bit integer. -/
def execLrndS32 (w : RM) (s : State) : Host.Outcome State Fault Refusal :=
  issueWord (.rm 0x56 4 .zero { ka := true, l := true } w) (lrndDone 4 w) s

/-- LSH (R286): Writes an accumulator scaled by 2^e. -/
def execLsh (w : RR) (s : State) : Host.Outcome State Fault Refusal :=
  issueWord (.rr 0x57 .zero {} w) (accWord w.d (fun i t => (i.acc t w.a.toNat).acc.shift (i.srcB w t).toInt)) s

/-- LGRED (R287): Merges the accumulators of the issuing subset and writes the result to each. -/
def execLgred (w : RM) (s : State) : Host.Outcome State Fault Refusal :=
  issueWord (.rm 0x5B 0 .zero { ka := true, l := true } w) (lgredDone w) s

/-- LSEG (R289): Reads one held segment of an accumulator into a pair. -/
def execLseg (w : RN) (s : State) : Host.Outcome State Fault Refusal :=
  issueWord (.rn 0x5C false .zero { ka := true, l := true } w) (lsegDone w) s

end Sys2Proof.Machine
end

