-- ==== Sys2Proof/Machine/Scratch.lean ====
section
/-! DEFINITION. Scratchpad addresses (R50 to R53, R26): the places a range covers, checked at issue with the generation
of each, and the bytes of a place. -/

namespace Sys2Proof.Machine

open Sys2Proof

/-- Bytes of one place on one core for the core's carve (R51). -/
def Core.placeBytes (c : Core) : Nat :=
  match c.carve with
  | some (_, sp) => sp * 1024
  | none => 0

/-- Bytes of the scratchpad region of a core (R51). -/
def Core.region (c : Core) : Nat :=
  match c.carve with
  | some (slots, sp) => places slots sp * sp * 1024
  | none => 0

/-- The piece of a cluster-absolute range that lies in the place at region offset `o`, at most `n` bytes; none when the
place holds no team of the launch (R51). -/
def State.markAt (s : State) (launch cl core start o n : Nat) : Option (Mark × Nat) :=
  let b := (s.core cl core).placeBytes
  if b = 0 then none
  else
    match s.teamAt cl core (o / b) with
    | none => none
    | some t =>
      if t.launch ≠ launch then none
      else
        let half := if t.core = core then 0 else b
        some ({ start := start, uid := t.uid, off := half + o % b }, min n (b - o % b))

/-- The pieces of a cluster-absolute range, place by place. -/
def State.marksAt (s : State) (launch cl core : Nat) : Nat → Nat → Nat → Nat → Option (List Mark)
  | 0, _, _, n => if n = 0 then some [] else none
  | fuel + 1, start, o, n =>
    if n = 0 then some []
    else
      match s.markAt launch cl core start o n with
      | none => none
      | some (m, k) => (s.marksAt launch cl core fuel (start + k) (o + k) (n - k)).map (m :: ·)

/-- The check of a scratchpad range at issue (R50, R51): the pieces it covers, or none for SP_RANGE. -/
def State.spMarks (s : State) (t : Team) (addr : Word) (n : Nat) : Option (List Mark) :=
  let o := addr.toNat % 2 ^ 30
  match (addr.extractLsb' 30 2).toNat with
  | 0 => if o < t.spBytes ∧ o + n ≤ t.spBytes then some [{ start := 0, uid := t.uid, off := o }] else none
  | 1 =>
    let core := o / 2 ^ 22
    let b := o % 2 ^ 22
    if b < (s.core t.cl core).region ∧ b + n ≤ (s.core t.cl core).region then
      if n = 0 then s.marksAt t.launch t.cl core 1 0 b 1 |>.map fun _ => [] else s.marksAt t.launch t.cl core 33 0 b n
    else none
  | _ => none

/-- The piece that holds byte `k` of a range, with the scratchpad offset of that byte. -/
def markOf (l : List Mark) (k : Nat) : Option (Nat × Nat) :=
  ((l.filter fun m => m.start ≤ k).getLast?).map fun m => (m.uid, m.off + (k - m.start))

/-- The core that holds a scratchpad byte of a team (R26). -/
def Team.coreOfByte (t : Team) (off : Nat) : Nat := if t.record.sp * 1024 ≤ off then t.core + 1 else t.core

/-- Bytes of a team's scratchpad; a team that has exited gives zeros (R53), and so does one that is saved (DESIGN CHOICE, log
67). -/
def State.spRead (s : State) (uid off n : Nat) : List Byte :=
  match s.team? uid with
  | some t => Memory.readN t.scratch off n
  | none => List.replicate n 0

/-- Bytes written to a team's scratchpad; dropped when the team has exited (R53), and when it is saved (DESIGN CHOICE, log
67). -/
def State.spWrite (s : State) (uid off : Nat) (bytes : List Byte) : State :=
  s.mapTeam uid fun t => { t with scratch := Memory.writeN t.scratch off bytes }

/-- Bytes of a range that may lie in several places. -/
def State.spReadRange (s : State) (l : List Mark) (k n : Nat) : List Byte :=
  (List.range n).map fun j =>
    match markOf l (k + j) with
    | some (uid, off) => ((s.spRead uid off 1).headD 0)
    | none => 0

/-- Bytes written to a range that may lie in several places. -/
def State.spWriteRange (s : State) (l : List Mark) : Nat → List Byte → State
  | _, [] => s
  | k, b :: rest =>
    (match markOf l k with
      | some (uid, off) => s.spWrite uid off [b]
      | none => s).spWriteRange l (k + 1) rest

end Sys2Proof.Machine
end

