-- ==== Sys2Proof/Machine/Traffic.lean ====
section
/-! DEFINITION. Accesses between issue and completion: the store buffer (R70), L1 and its leases (R59, R61, R73), the
performing of loads, stores, atomics and merges (R69 to R76, R87 to R91, R94), and their completion. -/

namespace Sys2Proof.Machine

open Sys2Proof

/-! ## Scope classes (R67, R68) -/

/-- The class of a scope code for a team. -/
def classOf (scope : Nat) (hinged : Bool) : ScopeClass :=
  if scope = 5 then .system
  else if coreScope scope hinged then .core
  else .device

/-- Device or system class. -/
def ScopeClass.wide (c : ScopeClass) : Bool := c != .core

/-! ## L1 (R59 to R61) -/

/-- The core whose L1 holds a line for a core, by its fusion domain (R27). -/
def State.l1Core (s : State) (cl core pa : Nat) : Nat :=
  let d := (s.core cl core).fusion
  if d = 0 then core else core / d * d + pa / 256 % d

/-- A valid L1 copy of a sector. -/
def State.l1Sector (s : State) (cl core sec : Nat) : Option L1Sector :=
  (s.core cl (s.l1Core cl core (64 * sec))).l1.find? fun x => x.sector == sec

/-- Lines of a core's L1: what the carve leaves of 512 KiB, in lines of 256 bytes (R24, R59). -/
def Core.l1Lines (c : Core) : Nat :=
  match c.carve with
  | some (slots, sp) => (512 - places slots sp * (32 * slots + sp)) * 4
  | none => 512 * 4

/-- The lines a core's L1 holds. -/
def Core.heldLines (c : Core) : List Nat := (c.l1.map fun x => x.sector / 4).dedup

/-- The line that gives way to a sector of a new line in a full L1: a free choice (log 62). -/
def Core.l1Out (c : Core) (sec free : Nat) : Option Nat :=
  if c.heldLines.contains (sec / 4) ∨ c.heldLines.length < c.l1Lines then none
  else c.heldLines[Config.l1Victim free % c.heldLines.length]?

/-- A copy put into the L1, a line of a full one giving way to it (R24, R59). -/
def State.l1Put (s : State) (cl core : Nat) (x : L1Sector) : State :=
  let home := s.l1Core cl core (64 * x.sector)
  match (s.core cl home).l1Out x.sector s.free with
  | none => s.mapCore cl home fun c => { c with l1 := x :: c.l1.filter fun y => y.sector != x.sector }
  | some line =>
    { s.mapCore cl home fun c => { c with l1 := x :: c.l1.filter fun y => y.sector / 4 != line } with free := s.free + 1 }

/-- Copies of the sectors of a range dropped from the L1 that serves a core. -/
def State.l1Drop (s : State) (cl core pa n : Nat) : State :=
  (sectorsOf pa n).foldl (fun s sec =>
    if (s.l1Sector cl core sec).isSome then
      s.mapCore cl (s.l1Core cl core (64 * sec)) fun c => { c with l1 := c.l1.filter fun y => y.sector != sec }
    else s) s

/-- Bytes of a range laid over a sector's bytes. -/
def layOver (sec : Nat) (old : List Byte) (cells : List Host.Cell) : List Byte :=
  cells.foldl (fun l c => if c.1 / 64 = sec then l.set (c.1 - 64 * sec) c.2 else l) old

/-- A store writes its bytes into any valid L1 copy on its own core, the grant time kept (R59). -/
def State.l1Write (s : State) (cl core pa : Nat) (bytes : List Byte) : State :=
  (sectorsOf pa bytes.length).foldl (fun s sec =>
    match s.l1Sector cl core sec with
    | some x => s.l1Put cl core { x with bytes := layOver sec x.bytes (cellsOf pa bytes) }
    | none => s) s

/-- The bytes of a flight that stores to memory. -/
def Flight.storeCells (f : Flight) : List Host.Cell :=
  match f.tgt, f.what with
  | .mem pa, .store b => cellsOf pa b
  | _, _ => []

/-- An L1 copy of a sector of the range is there. -/
def State.l1Has (s : State) (cl core pa n : Nat) : Bool := (sectorsOf pa n).any fun sec => (s.l1Sector cl core sec).isSome

/-- Two cores of a cluster use one L1 for an address (R27). -/
def State.sharesL1 (s : State) (cl core pa c : Nat) : Bool := s.l1Core cl c pa == s.l1Core cl core pa

/-- An untagged store on its way writes a sector that the L1 of core `home` serves. -/
def Flight.storesTo (f : Flight) (cl home sec : Nat) : Bool :=
  !f.done && f.hyp == 0 && f.cl == cl && f.l1At == home && f.storeCells.any fun c => c.1 / 64 == sec

/-- What the cores of an L1 have issued for a sector and not yet performed, which a newly fetched copy must not hide
(R72): the stores on their way, then what each core has buffered. -/
def State.unperformed (s : State) (cl core sec : Nat) : List (List Host.Cell) :=
  let home := s.l1Core cl core (64 * sec)
  let here := fun (l : List Host.Cell) => l.filter fun c => c.1 / 64 == sec
  here ((s.flights.filter fun f => f.storesTo cl home sec).flatMap Flight.storeCells)
    :: (s.cores.filter fun c => c.cl == cl && s.sharesL1 cl core (64 * sec) c.num).map fun c => here (c.sb.flatMap (·.bytes))

/-- Two of some lists write a common byte. -/
def clash : List (List Host.Cell) → Bool
  | [] => false
  | l :: rest => (rest.any fun m => l.any fun c => m.any fun d => d.1 == c.1) || clash rest

/-- A sector granted to an L1 (R59, R73), with what its cores have issued for it, the stores on their way marked as seen. A
sector in the ACC state is not granted (R90); nor is one whose bytes wait in two places, since the copy could not show the
order in which they will be performed (R72, R81, log 62). -/
def State.l1Grant (s : State) (cl core lease sec : Nat) : State :=
  let waits := s.unperformed cl core sec
  if s.accUnits.contains (sec / 2) ∨ clash waits then s
  else
    let t := s.times sec
    let expiry := s.now + lease
    let home := s.l1Core cl core (64 * sec)
    let bytes := layOver sec (Memory.readN s.mem (64 * sec) 64) waits.flatten
    let s := (s.l1Put cl core { sector := sec, bytes := bytes, grant := s.now, expiry := expiry }).setTimes
      { t with expiry := max t.expiry expiry }
    { s with flights := s.flights.map fun f => if f.storesTo cl home sec then { f with seen := true } else f }

/-! ## The group of a flight -/

/-- The fence horizon raised (R75). -/
def State.raiseFhz (s : State) (uid gid c : Nat) : State := s.mapGroup uid gid fun g => { g with fhz := max g.fhz c }

/-- The freshness floor raised (R77). -/
def State.raiseFfl (s : State) (uid gid c : Nat) : State := s.mapGroup uid gid fun g => { g with ffl := max g.ffl c }

/-- The freshness floor of a group; a group that is gone has none. -/
def State.fflOf (s : State) (uid gid : Nat) : Nat := ((s.group? uid gid).map (·.ffl)).getD 0

/-! ## The store buffer (R70) -/

/-- A drained entry of a sector that only waits for its acknowledgement. -/
def State.ackFlight (s : State) (slot uid gid cl core sec c : Nat) : State :=
  { s with
    flights := s.flights ++
      [{ id := s.nextId, batch := s.nextId, uid := uid, gid := gid, thread := 0, uni := false, slot := slot, cl := cl,
         core := core, tgt := .mem (64 * sec), size := 0, what := .store [], hyp := 0, cls := .device, acq := false, direct := true,
         lease := 0, l1ok := false, tracked := false, spCore := core, l1At := core, seen := false, data := [], bad := false, done := true, acked := false, ctime := c }],
    nextId := s.nextId + 1 }

/-- One entry performed at its home slice, its acknowledgement on the way. -/
def State.drainOne (s : State) (cl core : Nat) (e : SbEntry) : State :=
  let r := (s.gainSectors e.tracked (64 * e.sector) 64).commitCells e.sector e.bytes
  (r.1.mapCore cl core fun c => { c with sb := c.sb.filter fun x => x.id != e.id }).ackFlight e.slot e.uid e.gid cl core e.sector r.2

/-- The older entry `x` is performed before `e`: entries of one group, and entries that hold a common byte (R70, R81). -/
def SbEntry.before (x e : SbEntry) : Bool :=
  (x.uid == e.uid && x.gid == e.gid) || x.bytes.any fun c => e.bytes.any fun d => d.1 == c.1

/-- The entries that satisfy `p` with those that are performed before them, oldest first; the list is youngest first. -/
def entriesFor (p : SbEntry → Bool) : List SbEntry → List SbEntry → List SbEntry
  | [], need => need
  | x :: older, need => entriesFor p older (if p x || need.any x.before then x :: need else need)

/-- The entries of a core's buffer that satisfy a test are drained, with those that come before them (R70, R81). -/
def State.drainWhere (s : State) (cl core : Nat) (p : SbEntry → Bool) : State :=
  (entriesFor p (s.core cl core).sb.reverse []).foldl (fun s e => s.drainOne cl core e) s

/-- The entry holds a byte of a range. -/
def SbEntry.touches (e : SbEntry) (pa n : Nat) : Bool := e.bytes.any fun c => decide (pa ≤ c.1) && decide (c.1 < pa + n)

/-- The entries of a group in a core's buffer. -/
def State.groupEntries (s : State) (cl core uid gid : Nat) : List SbEntry :=
  (s.core cl core).sb.filter fun e => e.uid == uid && e.gid == gid

/-- The entries that overlap a range are drained from the cores that share an L1 with a core for it: from the core itself
when `own` says so, and from the others (R27, R81). -/
def State.drainSharers (s : State) (cl core pa n : Nat) (own : Bool) : State :=
  (s.cores.filter fun c => c.cl == cl && s.sharesL1 cl core pa c.num && (own || c.num != core)).foldl
    (fun s c => s.drainWhere cl c.num fun e => e.touches pa n) s

/-- The group's entries that overlap a range are drained (R69). -/
def State.drainOverlap (s : State) (cl core uid gid pa n : Nat) : State :=
  s.drainWhere cl core fun e => e.uid == uid && e.gid == gid && e.touches pa n

/-- Every entry of a group drained. -/
def State.drainGroup (s : State) (cl core uid gid : Nat) : State := s.drainWhere cl core fun e => e.uid == uid && e.gid == gid

/-- A drained entry of the group that held bytes of the sectors of a range is not acknowledged yet (R92, R94). -/
def State.ackPending (s : State) (uid gid pa n : Nat) : Bool :=
  s.flights.any fun f => f.uid == uid && f.gid == gid && f.size == 0 && f.done && !f.acked
    && (match f.tgt with
      | .mem p => (sectorsOf pa n).contains (p / 64)
      | .sp _ _ => false)

/-- An entry of another group for some of these bytes that is younger than the group's entry for their sector: the bytes
must not be put before it (R81). -/
def youngerOther (l : List SbEntry) (e : SbEntry) (cells : List Host.Cell) : Bool :=
  ((l.dropWhile fun x => x.id != e.id).drop 1).any fun x =>
    !(x.uid == e.uid && x.gid == e.gid) && cells.any fun c => x.bytes.any fun d => d.1 == c.1

/-- A new entry at the end of a core's buffer; a full buffer first drains its oldest entry (R70). -/
def State.sbAppend (s : State) (cl core uid gid sec : Nat) (tracked : Bool) (cells : List Host.Cell) : State :=
  let s := if (s.core cl core).sb.length < Config.storeBufferEntries then s
    else ((s.core cl core).sb.head?).elim s fun e => s.drainOne cl core e
  let e : SbEntry := { id := s.nextId, slot := ((s.team? uid).map (·.slot)).getD 0, uid := uid, gid := gid, sector := sec,
                       tracked := tracked, bytes := overlayCells [] cells, issued := s.now }
  { s.mapCore cl core fun c => { c with sb := c.sb ++ [e] } with nextId := s.nextId + 1 }

/-- The bytes of one sector put into the group's youngest entry for it, or into a new entry (R70). Where another group has
since buffered some of these bytes, the entries that hold them are drained first, so that entries for one byte stay in issue
order (R72, R81). -/
def State.sbPut (s : State) (cl core uid gid sec : Nat) (tracked : Bool) (cells : List Host.Cell) : State :=
  let mine := fun (s : State) => ((s.groupEntries cl core uid gid).filter fun e => e.sector == sec).getLast?
  let s := if (mine s).any fun e => youngerOther (s.core cl core).sb e cells then
      s.drainWhere cl core fun x => cells.any fun c => x.bytes.any fun d => d.1 == c.1
    else s
  match mine s with
  | some e => s.mapCore cl core fun c =>
      { c with sb := c.sb.map fun x => if x.id = e.id then { x with bytes := overlayCells x.bytes cells } else x }
  | none => s.sbAppend cl core uid gid sec tracked cells

/-- A core-class store enters the buffer (R69). -/
def State.sbStore (s : State) (cl core uid gid pa : Nat) (tracked : Bool) (bytes : List Byte) : State :=
  (sectorsOf pa bytes.length).foldl (fun s sec =>
    s.sbPut cl core uid gid sec tracked ((cellsOf pa bytes).filter fun c => c.1 / 64 == sec)) s

/-- The byte a core's buffer holds at an address, in its youngest entry (R71). -/
def sbByte (l : List SbEntry) (a : Nat) : Option Byte :=
  l.reverse.findSome? fun e => (e.bytes.find? fun c => c.1 == a).map (·.2)

/-! ## Loads (R71) -/

/-- The L1 copy of a sector that a group's load may hit (R61). -/
def State.l1Hit (s : State) (cl core uid gid sec : Nat) : Option L1Sector :=
  (s.l1Sector cl core sec).filter fun x => decide (s.now < x.expiry) && decide (s.fflOf uid gid ≤ x.grant)

/-- The bytes of the L1 copy of a sector that a load hits. -/
def State.loadHit (s : State) (f : Flight) (sec : Nat) : Option (List Byte) :=
  if f.l1ok then (s.l1Hit f.cl f.core f.uid f.gid sec).map (·.bytes) else none

/-- The bytes that a load finds: in the store buffer, then in L1, then at the home slice (R71). -/
def State.loadView (s : State) (f : Flight) (pa : Nat) : List Byte :=
  let sb := if f.direct then [] else (s.core f.cl f.core).sb
  (List.range f.size).map fun k =>
    let a := pa + k
    match sbByte sb a with
    | some b => b
    | none => match s.loadHit f (a / 64) with
      | some l => l.getD (a % 64) 0
      | none => Memory.read s.mem a

/-- The bytes of a load; a miss that may allocate is granted the sector (R59, R71, R73). What the other cores of its L1 have
buffered of them goes to its home slice first, as a copy that is gone may have shown it (R27, R81). -/
def State.loadBytes (s : State) (f : Flight) (pa : Nat) : State × List Byte :=
  let s := (s.drainSharers f.cl f.core pa f.size false).normalise pa f.size
  let misses := (sectorsOf pa f.size).filter fun sec => (s.loadHit f sec).isNone
  (if f.l1ok then misses.foldl (fun s sec => s.l1Grant f.cl f.core f.lease sec) s else s, s.loadView f pa)

/-- The latest write time stamp of the sectors of a range (R77). -/
def State.stampOf (s : State) (pa n : Nat) : Nat := (sectorsOf pa n).foldl (fun c sec => max c (s.times sec).stamp) 0

/-- The acquire of a load or an atomic of device or system class (R77, R305): the floor rises to the write time stamp
read, or to the time that the rule gives instead of one. -/
def State.acquireAt (s : State) (f : Flight) (stamp : Nat) : State :=
  if f.acq ∧ f.cls.wide then s.raiseFfl f.uid f.gid stamp else s

/-! ## Tagged accesses -/

/-- The ID of a hypothesis that a tagged access still runs under: current and live. -/
def State.liveHyp (s : State) (slot : Nat) (h : Word) : Option Nat :=
  let sl := s.slot slot
  if sl.current h ∧ (sl.hyp (hypId h)).st = .live then some (hypId h) else none

/-- The view of a handle for a read: that of its ID, or committed bytes for the root. -/
def State.viewOf (s : State) (slot : Nat) (h : Word) (pa n : Nat) : List Byte := s.viewRead slot (hypId h) pa n

/-- A tagged write of bytes; false when the version store is full (R151, R161). A write under a hypothesis that is no
longer live changes nothing. -/
def State.tagWrite (s : State) (slot : Nat) (h : Word) (pa : Nat) (bytes : List Byte) : State × Bool :=
  match s.liveHyp slot h with
  | none => (s, true)
  | some id =>
    (unitsOf pa bytes.length).foldl (fun r u =>
      if !r.2 then r
      else
        let lo := max pa (128 * u)
        let hi := min (pa + bytes.length) (128 * u + 128)
        match r.1.tagUnit slot id lo ((bytes.drop (lo - pa)).take (hi - lo)) with
        | some s => (s, true)
        | none => (r.1, false)) (s, true)

/-! ## Performing one access -/

/-- The flight has a destination still to be written. -/
def Flight.hasDest (f : Flight) : Bool :=
  match f.what with
  | .load _ _ => true
  | .lload _ _ _ => true
  | .atomic _ _ _ d => d.isSome
  | .cas16 _ _ _ => true
  | .regs _ _ => true
  | .accs _ _ => true
  | .round _ _ _ _ => true
  | _ => false

/-- A flight changed to performed. -/
def State.performed (s : State) (f : Flight) (data : List Byte) (c : Nat) : State :=
  s.mapFlight f.id fun x => { x with data := data, done := true, ctime := c }

/-- A read of memory changed to performed, with the poison of its sectors (R439). -/
def State.performedRead (s : State) (f : Flight) (pa : Nat) (data : List Byte) (c : Nat) : State :=
  s.mapFlight f.id fun x => { x with data := data, bad := s.isPoisoned pa f.size, done := true, ctime := c }

/-- The view of a unit holds a whole image: the unit is in the ACC state, or a hypothesis of the chain has a DELTA for it
(R91, R150). -/
def State.imageUnit (s : State) (slot : Nat) (h : Word) (u : Nat) : Bool :=
  s.accUnits.contains u || ((s.slot slot).hypChain 32 (hypId h)).any fun id => (s.deltaOf slot id u).isSome

/-- An `lld` of a unit in the ACC state reads one normalised snapshot at its home slice: all its parts are performed at
once (R91, R292). -/
def State.performImage (s : State) (f : Flight) (m pa : Nat) : State :=
  let u := pa / 128
  let all := if f.hyp = 0 then (s.sliceRead (128 * u) 128).2 else s.viewOf f.slot f.hyp (128 * u) 128
  let s := s.normaliseUnit u
  { s with flights := s.flights.map fun x =>
      match x.what, x.tgt with
      | .lload _ _ k, .mem p =>
        if k = m ∧ !x.done then
          { x with data := (all.drop (p % 128)).take 16, bad := s.isPoisoned (128 * u) 128, done := true, ctime := s.now }
        else x
      | _, _ => x }

/-- The parts of the `lld` whose first part is flight `m`, in order. -/
def State.partsOf (s : State) (m : Nat) : List Flight :=
  s.flights.filter fun x =>
    match x.what with
    | .lload _ _ k => k == m
    | _ => false

/-- A load performed at the source that supplies its bytes (R71, R77, R94, R150). -/
def State.performLoad (s : State) (f : Flight) (pa : Nat) : State :=
  let r := if f.hyp = 0 then s.loadBytes f pa else (s, s.viewOf f.slot f.hyp pa f.size)
  (r.1.acquireAt f (s.stampOf pa f.size)).performedRead f pa r.2 s.now

/-- What the parts of an `lld` would read now is noted in each of them: a part that is performed after a merge has brought
the unit into the ACC state takes it from there, so that the `lld` shows no part of that merge (R91, R292). -/
def State.noteParts (s : State) (m : Nat) : State :=
  { s with flights := s.flights.map fun x =>
      match x.what, x.tgt with
      | .lload _ _ k, .mem p =>
        if k = m then { x with data := if x.hyp = 0 then (s.normalise p x.size).loadView x p else s.viewOf x.slot x.hyp p x.size }
        else x
      | _, _ => x }

/-- A part of an `lld`. The first one fixes what the others show: a unit that holds a whole image gives one snapshot, the
bytes of it that the core has buffered drained first, which takes it out of the ACC state; other memory is read part by
part (R71, R91, R292). -/
def State.performPart (s : State) (f : Flight) (m pa : Nat) : State :=
  let u := pa / 128
  let image := fun (s : State) => if f.hyp = 0 then s.accUnits.contains u else s.imageUnit f.slot f.hyp u
  let parts := s.partsOf m
  if parts.any (·.done) then
    if image s then
      (s.acquireAt f (s.stampOf (128 * u) 128)).performedRead f pa
        (((parts.find? fun x => x.id == f.id).map (·.data)).getD []) s.now
    else s.performLoad f pa
  else
    let s := if f.hyp = 0 ∧ !f.direct ∧ image s then s.drainWhere f.cl f.core fun e => e.touches (128 * u) 128 else s
    if image s then (s.acquireAt f (s.stampOf (128 * u) 128)).performImage f m pa else (s.noteParts m).performLoad f pa

/-- An access under a hypothesis performed in the version store (R94, R150, R151); false when the store was full. -/
def State.performTagged (s : State) (f : Flight) (pa : Nat) : State × Bool :=
  let old := s.viewOf f.slot f.hyp pa f.size
  let acquired := fun (s' : State) => (s'.acquireAt f (s.stampOf pa f.size)).performedRead f pa old s.now
  match f.what with
  | .load _ _ => (s.performLoad f pa, true)
  | .lload _ _ m => (s.performPart f m pa, true)
  | .store b =>
    let r := s.tagWrite f.slot f.hyp pa b
    (r.1.performed f [] s.now, r.2)
  | .atomic op b c _ =>
    let r := match op.apply f.size (leNat old) b c with
      | some n => s.tagWrite f.slot f.hyp pa (leBytes f.size n)
      | none => (s, true)
    (acquired r.1, r.2)
  | .cas16 c n _ =>
    let r := if leNat old = c then s.tagWrite f.slot f.hyp pa (leBytes 16 n) else (s, true)
    (acquired r.1, r.2)
  | .merge img =>
    match s.liveHyp f.slot f.hyp with
    | none => (s.performed f [] s.now, true)
    | some id => match s.tagMerge f.slot id pa img with
      | some s' => (s'.performed f [] s.now, true)
      | none => (s.performed f [] s.now, false)
  | _ => (s.performed f [] s.now, true)

/-- An untagged access performed at its source or home slice (R69, R71, R74, R88 to R91). -/
def State.performMem (s : State) (f : Flight) (pa : Nat) : State :=
  let stamp := s.stampOf pa f.size
  let own := (s.l1Drop f.cl f.core pa f.size).gainSectors f.tracked pa f.size
  match f.what with
  | .load _ _ => s.performLoad f pa
  | .lload _ _ m => s.performPart f m pa
  | .store b =>
    let r := (s.gainSectors f.tracked pa b.length).commit pa b
    r.1.performed f [] r.2
  | .atomic op b c _ =>
    let r := own.sliceAtomic op pa f.size b c
    (r.1.acquireAt f stamp).performedRead f pa r.2.1 r.2.2
  | .cas16 c n _ =>
    let r := own.sliceAtomic .cas pa 16 n c
    (r.1.acquireAt f stamp).performedRead f pa r.2.1 r.2.2
  | .merge img =>
    let r := own.sliceMerge pa img
    r.1.performed f [] r.2
  | _ => s.performed f [] s.now

/-- An access performed at a scratchpad SRAM (R53, R85, R88, R301). -/
def State.performSp (s : State) (f : Flight) (uid off : Nat) : State :=
  match f.what with
  | .load _ _ => (s.acquireAt f s.now).performed f (s.spRead uid off f.size) s.now
  | .lload _ _ _ => (s.acquireAt f s.now).performed f (s.spRead uid off f.size) s.now
  | .store b => (s.spWrite uid off b).performed f [] s.now
  | .atomic op b c _ =>
    let old := s.spRead uid off f.size
    (match op.apply f.size (leNat old) b c with
      | some n => s.spWrite uid off (leBytes f.size n)
      | none => s).performed f old s.now
  | _ => s.performed f [] s.now

/-- A flight that is not performed yet. -/
def State.waitsToPerform (s : State) (f : Flight) : Bool := s.flights.any fun x => x.id == f.id && !x.done

/-- One access performed; false when it found the version store full (R161). A scratchpad store leaves no flight. -/
def State.performCore (s : State) (f : Flight) : State × Bool :=
  if !s.waitsToPerform f then (s, true)
  else match f.tgt with
  | .sp uid off =>
    let s := s.performSp f uid off
    (if f.hasDest then s else { s with flights := s.flights.filter fun x => x.id != f.id }, true)
  | .mem pa => if f.hyp = 0 then (s.performMem f pa, true) else s.performTagged f pa

/-! ## Program order of one thread (R72, R85, R87) -/

/-- The bytes of global memory that the access of a flight at `pa` covers: a part of an `lld` stands for its whole unit
(R292). -/
def Flight.span (f : Flight) (pa : Nat) : Nat × Nat :=
  match f.what with
  | .lload _ _ _ => (pa / 128 * 128, 128)
  | _ => (pa, f.size)

/-- Two parts of one `lld`, which are performed in no stated order (R86). -/
def Flight.sameImage (a b : Flight) : Bool :=
  match a.what, b.what with
  | .lload _ _ m, .lload _ _ n => m == n
  | _, _ => false

/-- Two flights touch a common byte. -/
def Flight.overlaps (a b : Flight) : Bool :=
  match a.tgt, b.tgt with
  | .mem p, .mem q =>
    let x := a.span p
    let y := b.span q
    !a.sameImage b && decide (x.1 < y.1 + y.2) && decide (y.1 < x.1 + x.2)
  | .sp u o, .sp v p => u == v && decide (o < p + b.size) && decide (p < o + a.size)
  | _, _ => false

/-- The flights are of one thread, or of one word (R72, R87). -/
def Flight.together (a b : Flight) : Bool :=
  a.uid == b.uid && a.gid == b.gid && ((a.thread == b.thread && !a.uni && !b.uni) || a.uni || b.uni || a.batch == b.batch)

/-- An access to scratchpad, of some bytes. -/
def Flight.isSp (f : Flight) : Bool :=
  match f.tgt with
  | .sp _ _ => f.size != 0
  | .mem _ => false

/-- Both accesses go to the scratchpad SRAM of one core. -/
def Flight.sameSram (a b : Flight) : Bool := a.isSp && b.isSp && a.cl == b.cl && a.spCore == b.spCore

/-- The younger `b` is an untagged access of a core that may have read the bytes of `a` in the L1 the two cores use (R59,
R81). -/
def Flight.shownTo (a b : Flight) : Bool := a.seen && b.hyp == 0 && a.cl == b.cl && a.l1At == b.l1At && a.overlaps b

/-- `a` must be performed before the younger `b`: accesses of one thread, or of one word, to common bytes (R72, R87); a
store whose bytes an L1 copy has taken, before what its cores issue to them later (R81); accesses of one thread to the
scratchpad of one core; and all accesses of a core to its own scratchpad (R85). -/
def Flight.orderedBefore (a b : Flight) : Bool :=
  !a.done && (a.shownTo b || (a.together b && (a.overlaps b || a.sameSram b))
    || (a.sameSram b && a.core == a.spCore && b.core == b.spCore))

/-- The flights that must be performed before those of `need`, oldest first; `older` is youngest first. -/
def mustPrecede : List Flight → List Flight → List Flight
  | [], need => need
  | a :: older, need => if need.any fun b => a.orderedBefore b then mustPrecede older (a :: need) else mustPrecede older need

/-- The flights issued before one. -/
def State.olderThan (s : State) (f : Flight) : List Flight := (s.flights.takeWhile fun x => x.id != f.id).reverse

end Sys2Proof.Machine
end

