-- ==== Sys2Proof/Machine/Resolve.lean ====
section
/-! DEFINITION. The hypothesis tree: subtrees, refutation with its mark and discard, capacity, confirmation, the return
of an ID (R145 to R161); and the performing of an access with all that must precede it. -/

namespace Sys2Proof.Machine

open Sys2Proof

/-- Status codes (R153). -/
def hOk : Nat := 0
def hConfirmed : Nat := 1
def hRefuted : Nat := 2
def hCapacity : Nat := 3
def hStale : Nat := 4
def hRoot : Nat := 5
def hFull : Nat := 6
def hDepth : Nat := 7

/-- The live IDs of the subtree of an ID, itself included (R157). -/
def Slot.subtree (sl : Slot) (id : Nat) : List Nat :=
  ((List.range 256).filter fun k => k != 0 && (sl.hyp k).st == .live && (sl.hypChain 32 k).contains id)

/-- The handle an ID has now. -/
def Slot.handleOf (sl : Slot) (id : Nat) : Word := if id = 0 then 0 else hypHandle id (sl.hyp id).gen

/-- The status of a handle (R153). DESIGN CHOICE: a free ID that was never created, named with the generation it has,
gives STALE, and so does ID 0 with a nonzero generation (log 65). -/
def Slot.hypStatus (sl : Slot) (h : Word) : Nat :=
  if h = 0 then hRoot
  else if !sl.current h then hStale
  else match (sl.hyp (hypId h)).st with
    | .live => hOk
    | .confirmed => hConfirmed
    | .refuted => hRefuted
    | .capacity => hCapacity
    | .free => hStale

/-- A handle names one of some IDs now. -/
def Slot.namesOneOf (sl : Slot) (ids : List Nat) (h : Word) : Bool := ids.contains (hypId h) && sl.current h

/-- Threads of a team changed. -/
def Team.mapThreads (t : Team) (f : Thread → Thread) : Team :=
  { t with groups := t.groups.map fun g => { g with threads := g.threads.map f } }

/-- Threads of the resident teams of a process changed; a saved team is checked when it resumes (R156, R157, R160). -/
def State.mapSlotThreads (s : State) (slot : Nat) (f : Thread → Thread) : State :=
  { s with teams := s.teams.map fun t => if t.slot = slot then t.mapThreads f else t }

/-- A thread that has become an orphan leaves any wait (R160). -/
def Thread.orphaned (th : Thread) : Thread := { th with orphan := true, wait := .none, passed := none, popping := none }

/-- An engine command that reads a view or writes tagged versions (R162). -/
def EngOp.speculative (o : EngOp) : Bool :=
  o.hyp != 0 && (match o.body with
    | .copy _ _ _ _ => true
    | .tile _ _ => true
    | .skein _ => true
    | .mloop _ => true
    | .mdrain _ (.global _ _ _ _ _) _ _ => true
    | _ => false)

/-- An engine command stopped at its boundary (R46, R162); one that has finished stays as it is. -/
def EngOp.stopAt (o : EngOp) (why : Nat) : EngOp :=
  if o.stage = .finished then o else { o with stop := why, stage := .finished, parked := false }

/-- The mark and the discard of a refutation (R157), once the tagged accesses of its subtree are performed. -/
def State.frog (s : State) (slot id : Nat) (st : HypState) : State × Nat :=
  let ids := (s.slot slot).subtree id
  let sl := s.slot slot
  let s := s.mapSlotThreads slot fun th =>
    if th.live && sl.namesOneOf ids th.hyp then th.orphaned else th
  let ops := s.ops.map fun (o : EngOp) =>
    if o.slot = slot ∧ o.speculative ∧ sl.namesOneOf ids o.hyp then o.stopAt 3 else o
  let kept := s.versions.filter fun v => !(v.slotOf == slot && ids.contains v.hypOf)
  let mark := fun (h : Hyp) => if ids.contains h.id then { h with st := st } else h
  ({ s with ops := ops, versions := kept }.mapSlot slot fun sl => { sl with hyps := sl.hyps.map mark }, ids.length)

/-- The tagged accesses of a process issued under an ID or below it, not performed yet (R157). -/
def State.taggedUnder (s : State) (slot id : Nat) : List Flight :=
  s.flights.filter fun f =>
    !f.done && f.slot == slot && f.hyp != 0 && (s.slot slot).namesOneOf ((s.slot slot).subtree id) f.hyp

/-- Refutation of an ID and its subtree (R157), with `n` refutations inside it allowed for: the tagged accesses of the
subtree are performed, each after those of its thread that must precede it (R72); one that needs room takes effect only
if there is some, and one of another hypothesis that finds none refutes that one first (R161). Then the mark and the
discard. The state recorded is `st`; the number discarded. -/
def State.refuteWith : Nat → State → Nat → Nat → HypState → State × Nat
  | 0, s, slot, id, st => s.frog slot id st
  | n + 1, s, slot, id, st =>
    let ids := (s.slot slot).subtree id
    let full := fun (s : State) (f : Flight) =>
      if (s.slot slot).namesOneOf ids f.hyp then s
      else match s.liveHyp f.slot f.hyp with
        | some k => (State.refuteWith n s f.slot k .capacity).1
        | none => s
    let one := fun (s : State) (f : Flight) => let r := s.performCore f; if r.2 then r.1 else full r.1 f
    ((s.taggedUnder slot id).foldl (fun s f => (mustPrecede (s.olderThan f) [f]).foldl one s) s).frog slot id st

/-- Refutation of an ID and its subtree (R157): each refutation inside it ends a live hypothesis, of which there are at
most 255. -/
def State.refuteTree (s : State) (slot id : Nat) (st : HypState) : State × Nat := s.refuteWith 256 slot id st

/-- A tagged write found no room: its hypothesis and subtree are refuted with CAPACITY (R161). -/
def State.overflow (s : State) (slot : Nat) (h : Word) : State :=
  match s.liveHyp slot h with
  | some id => (s.refuteTree slot id .capacity).1
  | none => s

/-- One access performed, with the refutation it may cause (R161). -/
def State.performOne (s : State) (f : Flight) : State :=
  let r := s.performCore f
  if r.2 then r.1 else r.1.overflow f.slot f.hyp

/-- An access performed after those of its thread that must precede it (R72). -/
def State.perform (s : State) (f : Flight) : State := (mustPrecede (s.olderThan f) [f]).foldl State.performOne s

/-- The accesses a new access must follow are performed: what a store entering the buffer needs (R72). -/
def State.settleBefore (s : State) (f : Flight) : State :=
  ((mustPrecede s.flights.reverse [f]).filter fun x => x.id != f.id).foldl State.performOne s

/-! ## Confirmation (R156) -/

/-- The image of a DELTA as a unit's bytes added to `bytes`. DESIGN CHOICE: the BYTES that result hold the sum fully
resolved (log 65). -/
def addImage (bytes : List Byte) (img : LongAcc) : List Byte := ((LongAcc.ofImageRaw bytes).merge img).resolve.image

/-- One unit of h folded into the entries of p, for p not the root (R156). -/
def State.foldUnit (s : State) (slot h p u : Nat) : State :=
  let secs := [2 * u, 2 * u + 1]
  let vp := s.viewUnit slot p u
  let dh := s.deltaOf slot h u
  let dp := s.deltaOf slot p u
  let bh := secs.filterMap fun sec => (s.bytesOf slot h sec).map fun d => (sec, d)
  let bp := secs.filterMap fun sec => (s.bytesOf slot p sec).map fun d => (sec, d)
  let s := { s with versions := dropUnit s.versions slot h u }
  match dh with
  | some x =>
    match dp with
    | some y => { s with versions := dropUnit s.versions slot p u ++ [.delta slot p u (y.merge x)] }
    | none =>
      if bp = [] then { s with versions := s.versions ++ [.delta slot p u x] } else s.setWhole slot p u (addImage vp x)
  | none =>
    match dp with
    | some _ =>
      s.setWhole slot p u ((bh.flatMap (·.2)).foldl (fun l c => l.set (c.1 - 128 * u) c.2) vp)
    | none =>
      let put := fun (s : State) (e : Nat × List Host.Cell) =>
        let old := (bp.find? fun x => x.1 == e.1).map (·.2)
        { s with versions := s.versions.filter (fun v =>
            match v with
            | .bytes q i w _ => !(q == slot && i == p && w == e.1)
            | .delta _ _ _ _ => true) ++ [.bytes slot p e.1 (overlayCells (old.getD []) e.2)] }
      bh.foldl put s

/-- One entry of h written into committed memory; the largest completion time so far (R156, R94). -/
def commitVersion (r : State × Nat) (v : Version) : State × Nat :=
  match v with
  | .bytes _ _ sec d => let x := r.1.commitCells sec d; (x.1, max r.2 x.2)
  | .delta _ _ u img => let x := r.1.sliceMerge (128 * u) img; (x.1, max r.2 x.2)

/-- The sectors of committed memory that the entries of an ID write when it is confirmed into the root (R156). -/
def State.hypSectors (s : State) (slot id : Nat) : List Nat :=
  (s.versions.filter fun v => v.slotOf == slot && v.hypOf == id).flatMap fun v =>
    match v with
    | .bytes _ _ sec _ => [sec]
    | .delta _ _ u _ => [2 * u, 2 * u + 1]

/-- Confirmation of a live ID into its parent: the state, the number affected, and the largest completion time of what
was committed (R156). -/
def State.confirm (s : State) (slot id : Nat) : State × Nat × Nat :=
  let sl := s.slot slot
  let h := sl.handleOf id
  let ph := (sl.hyp id).parent
  let p := hypId ph
  let s := (s.flights.filter fun f => !f.done && f.slot == slot && f.hyp == h).foldl State.perform s
  if (s.liveHyp slot h).isNone then (s, 0, s.now)
  else
    let s := s.mapSlotThreads slot fun th => if th.live ∧ th.hyp = h then { th with hyp := ph } else th
    let ops := s.ops.map fun (o : EngOp) => if o.slot = slot ∧ o.hyp = h then { o with hyp := ph } else o
    let s := { s with ops := ops }
    let mine := s.versions.filter fun v => v.slotOf == slot && v.hypOf == id
    let kept := s.versions.filter fun v => !(v.slotOf == slot && v.hypOf == id)
    let r : State × Nat :=
      if p = 0 then mine.foldl commitVersion ({ s with versions := kept }, s.now)
      else
        let units := (mine.map fun v => match v with
          | .bytes _ _ sec _ => sec / 2
          | .delta _ _ u _ => u).dedup
        (units.foldl (fun s u => s.foldUnit slot id p u) s, s.now)
    let below := sl.subtree id
    let kids := below.filter fun k => k != id && hypId (sl.hyp k).parent == id
    let mark := fun (x : Hyp) =>
      if x.id = id then { x with st := .confirmed }
      else if below.contains x.id then { x with depth := x.depth - 1, parent := if kids.contains x.id then ph else x.parent }
      else x
    (r.1.mapSlot slot fun sl => { sl with hyps := sl.hyps.map mark }, 1 + kids.length, r.2)

/-- The nearest live ancestor of an ID along the recorded parents, within `n` of them; the root is always live (R160). -/
def Slot.liveAncestor (sl : Slot) : Nat → Word → Word
  | 0, _ => 0
  | n + 1, h => if hypId h = 0 ∨ (sl.hyp (hypId h)).st = .live then h else sl.liveAncestor n (sl.hyp (hypId h)).parent

/-- A thread of a team that resumes (R48, R160): with a confirmed handle it takes the nearest live ancestor; with a
refuted one, or with one that the domain no longer holds (log 27), it becomes an orphan. -/
def Slot.resumed (sl : Slot) (th : Thread) : Thread :=
  if !th.live ∨ th.orphan ∨ th.hyp = 0 then th
  else if !sl.current th.hyp then th.orphaned
  else match (sl.hyp (hypId th.hyp)).st with
    | .live => th
    | .confirmed => { th with hyp := sl.liveAncestor 256 th.hyp }
    | _ => th.orphaned

/-- Threads of the process, resident or saved, whose `hyp` holds a handle of an ID (R146). -/
def State.holders (s : State) (slot id : Nat) : Nat :=
  ((s.teams ++ s.saved.map (·.1)).filter fun t => t.slot == slot).foldl (fun n t =>
    t.groups.foldl (fun n g => n + (g.threads.filter fun th => th.live && hypId th.hyp == id).length) n) 0

/-- An ID may return to free (R146). -/
def State.idIdle (s : State) (slot id : Nat) : Bool :=
  let sl := s.slot slot
  let h := sl.hyp id
  (h.st == .confirmed || h.st == .refuted || h.st == .capacity) && s.holders slot id == 0
    && !(s.versions.any fun v => v.slotOf == slot && v.hypOf == id)
    && !(sl.hyps.any fun x => x.st == .live && hypId x.parent == id)

/-- A record of the domain that names `me` as its parent takes `p` for it. -/
def Hyp.reparent (x : Hyp) (me p : Word) : Hyp := if x.parent = me then { x with parent := p } else x

/-- An ID returns to free with the next generation (R146). A resolved ID that records it as its parent records its parent
from then on, so that the recorded parents of R160 stay at hand. -/
def State.freeId (s : State) (slot id : Nat) : State :=
  s.mapSlot slot fun sl =>
    let h := sl.hyp id
    let me := sl.handleOf id
    { sl with hyps := sl.hyps.map fun (x : Hyp) => x.reparent me h.parent }.setHyp
      { id := id, gen := if h.gen = 4095 then 1 else h.gen + 1, st := .free, parent := 0, depth := 0 }

end Sys2Proof.Machine
end

