-- ==== Sys2Proof/Machine/Complete.lean ====
section
/-! DEFINITION. The completion of long-latency results (R39, R288, R292, R298, R299, R304) and the acknowledgement of
stores, atomics and merges (R75). -/

namespace Sys2Proof.Machine

open Sys2Proof

/-- Bytes of a load widened to registers by its SZ (R298). -/
def widen (sz : Nat) (data : List Byte) : List Word :=
  if sz = 5 then [(data.headD 0).signExtend 32]
  else if sz = 6 then [((data.getD 1 0) ++ (data.getD 0 0) : BitVec 16).signExtend 32]
  else if sz = 3 then leWords 2 data
  else if sz = 4 then leWords 4 data
  else [BitVec.ofNat 32 (leNat data)]

/-- Registers that became FULL with a flight's values, unless a younger producer is outstanding (R39). -/
def Group.completeRegs (g : Group) (u : Bool) (t d prod : Nat) (vals : List Word) : Group :=
  (regsFrom d vals).foldl (fun g w => g.completeReg u t w.1 prod w.2) g

/-- An accumulator that became FULL (R282). -/
def Group.completeAcc (g : Group) (t d prod : Nat) (x : LongAcc) : Group :=
  g.mapThread t fun th =>
    { th with acc := th.acc.mapIdx fun k a => if k = d ∧ a.prod = prod ∧ prod ≠ 0 then { acc := x, prod := 0 } else a }

/-- The roundings of `lrnd` that waited for an accumulator: their results and flags (R288). -/
def roundFlight (uid gid t d : Nat) (x : LongAcc) (f : Flight) : Flight :=
  match f.what with
  | .round r a m mode =>
    if f.uid = uid ∧ f.gid = gid ∧ f.thread = t ∧ a = d ∧ !f.done then
      { f with what := .regs r (roundAcc m mode x).1, done := true }
    else f
  | _ => f

/-- Flags of the roundings that waited for an accumulator. -/
def roundFlags (uid gid t d : Nat) (x : LongAcc) (f : Flight) : Word :=
  match f.what with
  | .round _ a m mode => if f.uid = uid ∧ f.gid = gid ∧ f.thread = t ∧ a = d ∧ !f.done then (roundAcc m mode x).2 else 0
  | _ => 0

/-- An accumulator result delivered, with the roundings that waited for it. -/
def State.deliverAcc (s : State) (f : Flight) (d : Nat) (x : LongAcc) : State :=
  let fl := s.flights.foldl (fun w g => w ||| roundFlags f.uid f.gid f.thread d x g) 0
  { s.mapGroup f.uid f.gid fun g => ((g.completeAcc f.thread d f.id x).orFlags [f.thread] fl).wake Wait.isReg with
      flights := s.flights.map (roundFlight f.uid f.gid f.thread d x) }

/-- Register results delivered. -/
def State.deliverRegs (s : State) (f : Flight) (d : Nat) (vals : List Word) : State :=
  s.mapGroup f.uid f.gid fun g => (g.completeRegs f.uni f.thread d f.id vals).wake Wait.isReg

/-- The value of a performed flight put into its destination; a team that is gone takes nothing. -/
def State.deliverFlight (s : State) (f : Flight) : State :=
  match f.what with
  | .load d sz => s.deliverRegs f d (widen sz f.data)
  | .atomic _ _ _ (some d) => s.deliverRegs f d (leWords (f.size / 4) f.data)
  | .cas16 _ _ d => s.deliverRegs f d (leWords 4 f.data)
  | .regs d vals => s.deliverRegs f d vals
  | .accs d x => s.deliverAcc f d x
  | _ => s

/-- A load from global memory, which is performed when it completes (log 17). -/
def Flight.isLoad (f : Flight) : Bool :=
  match f.what, f.tgt with
  | .load _ _, .mem _ => true
  | .lload _ _ _, .mem _ => true
  | _, _ => false

/-- A flight on its way to a scratchpad SRAM (R85). -/
def Flight.remoteSp (f : Flight) : Bool := f.isSp && !f.done

/-- A flight that has written its destination and has been acknowledged leaves. -/
def State.retireFlight (s : State) (f : Flight) : State :=
  if f.acked then { s with flights := s.flights.filter fun x => x.id != f.id }
  else s.mapFlight f.id fun x => { x with what := .store [] }

/-- A producer may complete now (R39). -/
def Flight.completable (f : Flight) : Bool := f.hasDest && (f.done || f.isLoad)

/-- A performed read that met poison kills its team with ECC (R439). -/
def State.poisonCheck (s : State) (f : Flight) : State := if f.bad ∧ f.hasDest then s.killTeam f.uid cEcc 0 else s

/-- The value of a performed flight goes to its destination; an accumulator takes an image once all its parts have landed
(R292). -/
def State.land (s : State) (f : Flight) : State :=
  match f.what with
  | .lload d _ m =>
    let parts := s.partsOf m
    if parts.all (·.done) then
      { s.deliverAcc { f with id := m } d (LongAcc.ofImage (parts.flatMap (·.data))) with
          flights := s.flights.filter fun x => !parts.contains x }
    else s
  | _ => (s.deliverFlight f).retireFlight f

/-- A confirm into the root holds a sector of these bytes until it returns (R159, R364). -/
def State.publishing (s : State) (pa n : Nat) : Bool :=
  s.teams.any fun t => t.groups.any fun g => g.stall.any fun x =>
    x.begun && x.holds.any fun sec => decide (64 * sec < pa + n) && decide (pa < 64 * sec + 64)

/-- An untagged read waits at its slice for such a confirm. -/
def State.publishHeld (s : State) (f : Flight) : Bool :=
  match f.tgt with
  | .mem pa => f.hyp == 0 && f.hasDest && !f.done && s.publishing pa f.size
  | .sp _ _ => false

/-- An access, or one that must be performed before it, waits for such a confirm. -/
def State.readHeld (s : State) (f : Flight) : Bool := (mustPrecede (s.olderThan f) [f]).any s.publishHeld

/-- An access that a new one must follow waits for such a confirm (R72). -/
def State.beforeHeld (s : State) (f : Flight) : Bool := (mustPrecede s.flights.reverse [f]).any s.publishHeld

/-- A producer completes: it is performed if it is a load still on its way, its value goes to its destination (R39). -/
def State.complete (s : State) (fid : Nat) : State :=
  match s.flights.find? fun f => f.id == fid with
  | none => s
  | some f =>
    if !f.completable ∨ (!f.done ∧ s.readHeld f) then s
    else
      let s := if f.done then s else s.perform f
      match s.flights.find? fun f => f.id == fid with
      | none => s
      | some f => (s.poisonCheck f).land f

/-- An acknowledgement for a team that has gone counts toward the release that the launches of its process make before
their completions (R406). -/
def State.lateAck (s : State) (f : Flight) : State :=
  if (s.team? f.uid).isSome then s
  else { s with launches := s.launches.map fun l => if l.slot = f.slot then { l with fhz := max l.fhz f.ctime } else l }

/-- An acknowledgement arrives for the group: its horizon rises to the completion time (R75). -/
def State.acknowledge (s : State) (fid : Nat) : State :=
  match s.flights.find? fun f => f.id == fid with
  | none => s
  | some f =>
    if !f.done ∨ f.acked then s
    else
      let s := (s.raiseFhz f.uid f.gid f.ctime).lateAck f
      if f.hasDest then s.mapFlight fid fun x => { x with acked := true }
      else { s with flights := s.flights.filter fun x => x.id != fid }

/-- A store, atomic or merge reaches its home slice (R74). -/
def State.reachSlice (s : State) (fid : Nat) : State :=
  match s.flights.find? fun f => f.id == fid with
  | none => s
  | some f =>
    match f.tgt with
    | .mem _ =>
      if f.done ∨ f.isLoad ∨ s.readHeld f then s
      else
        let s := s.perform f
        ((s.flights.find? fun x => x.id == fid).map s.poisonCheck).getD s
    | .sp _ _ => s

/-- An access reaches its scratchpad SRAM (R53, R85); a store there is acknowledged with it. -/
def State.reachSram (s : State) (fid : Nat) : State :=
  match s.flights.find? fun f => f.id == fid with
  | none => s
  | some f => if f.remoteSp ∧ (f.core = f.spCore ∨ s.netUp f.cl) then s.perform f else s

/-! ## Releases and fences (R76, R78) -/

/-- A flight that moves memory, as distinct from a result computed in the lane. -/
def Flight.isAccess (f : Flight) : Bool :=
  match f.what with
  | .regs _ _ => f.size != 0
  | .accs _ _ => false
  | .round _ _ _ _ => false
  | _ => true

/-- The group's accesses still on their way. -/
def State.groupFlights (s : State) (uid gid : Nat) : List Flight :=
  s.flights.filter fun f => f.uid == uid && f.gid == gid && f.isAccess

/-- Every earlier load of the group has completed (R76). -/
def State.loadsDone (s : State) (uid gid : Nat) : Bool := (s.groupFlights uid gid).all fun f => !f.hasDest

/-- The conditions of a release of a class (R76, R95): for the core class every earlier access has completed or is
acknowledged; for the wider classes the group's buffer entries are drained and Now() is 2 ns past the fence horizon. -/
def State.released (s : State) (cl core uid gid : Nat) (c : ScopeClass) : Bool :=
  (s.groupFlights uid gid).isEmpty &&
    (!c.wide || ((s.groupEntries cl core uid gid).isEmpty &&
      decide (((s.group? uid gid).map (·.fhz)).getD 0 + Config.skew ≤ s.now)))

/-- The drain that a release of the wider classes begins (R76). -/
def State.beginRelease (s : State) (cl core uid gid : Nat) (c : ScopeClass) : State :=
  if c.wide then s.drainGroup cl core uid gid else s

/-- A command that has not read its handles yet (R58). -/
def EngOp.handleUnread (o : EngOp) : Bool :=
  o.stage != .finished && (match o.body with
    | .tile b _ => b.raw.isNone
    | .mloop l => l.aRaw.isNone || l.bRaw.isNone
    | .mdrain _ (.global _ _ raw _ _) _ _ => raw.isNone
    | _ => false)

/-- Accesses of the subset are not performed yet: a word that reads a handle waits for them (R58). -/
def State.accessing (s : State) (i : Issue) : Bool :=
  s.flights.any fun f => f.uid == i.c.uid && f.gid == i.c.gid && f.isAccess && !f.done
    && (f.uni || i.v.u || i.ts.contains f.thread)

/-- A thread of the group has an acquire that is not performed, or a command whose handles are not read: its later
accesses wait (R58, R77). -/
def State.acquiring (s : State) (i : Issue) : Bool :=
  (s.flights.any fun f => f.uid == i.c.uid && f.gid == i.c.gid && f.acq && !f.done
    && (f.uni || i.v.u || i.ts.contains f.thread))
    || s.ops.any fun o => o.uid == i.c.uid && o.gid == i.c.gid && o.handleUnread

end Sys2Proof.Machine
end

