-- ==== Sys2Proof/Machine/MemInstr.lean ====
section
/-! DEFINITION. Loads, stores, atomics, fences and cache words (R290 to R310). -/

namespace Sys2Proof.Machine

open Sys2Proof

/-! ## Checks of global addresses (R294) -/

/-- Which rule of R88 and R89 an access falls under: none, an atomic of dev scope, or one of system scope (`ok` when an
untracked page takes it). -/
inductive AtomKind where
  | plain
  | dev
  | sys (ok : Bool)
  deriving DecidableEq, Repr

/-- The outcome of the checks of one address. -/
inductive Check where
  | ok (pa bits : Nat) (e : TlbEntry)
  | trap (cause : Nat) (datum : Word)
  | park (va kind level : Nat)
  deriving DecidableEq, Repr

/-- Address bits [31:0] as a datum. -/
def lowWord (va : DWord) : Word := va.extractLsb' 0 32

/-- The hypothesis of a thread (R147). -/
def Issue.hypOf (i : Issue) (t : Nat) : Word := ((i.thread? t).map (·.hyp)).getD 0

/-- Checks 5 and 6 of R294 on a translated address. -/
def checkKind (acc : AccessKind) (atom : AtomKind) (h : Word) (refused : Bool) (va : DWord) (pa bits : Nat) (e : TlbEntry) :
    Check :=
  let host := isHost pa
  if h ≠ 0 ∧ acc ≠ .read ∧ (host ∨ bits.testBit 5) then .trap cHypRemote (lowWord va)
  else match atom with
    | .plain => .ok pa bits e
    | .dev => if host then .trap cAtomic (lowWord va) else .ok pa bits e
    | .sys ok => if host ∧ !bits.testBit 4 ∧ (!ok ∨ refused) then .trap cAtomic (lowWord va) else .ok pa bits e

/-- The kind of a fault that the driver has failed on the page of an address, if it has: the access is unresolvable,
whatever the tables say by then (R419). -/
def failedKind (l : List (Nat × Nat)) (va : Nat) : Option Nat := (l.find? fun x => x.1 == va / 4096).map (·.2)

/-- The same for the set in hand. -/
def Issue.failedKind (i : Issue) (va : Nat) : Option Nat :=
  if i.g.parkPc = i.c.setPc then Machine.failedKind i.g.failed va else none

/-- The checks of R294 for a global address, in order. -/
def State.checkGlobal (s : State) (i : Issue) (va : DWord) (size : Nat) (acc : AccessKind) (atom : AtomKind) (h : Word)
    (refused : Bool) : Check :=
  let n := va.toNat
  if n / 2 ^ 48 ≠ 0 then .trap cXlate (va.extractLsb' 32 32)
  else if n % size ≠ 0 then .trap cMisalign (lowWord va)
  else match i.failedKind n with
  | some kind => .trap (if kind = kPerm then cPerm else cXlate) (lowWord va)
  | none =>
    match s.translate (s.slot i.t.slot) n acc with
    | .bad kind level => .park n kind level
    | .untracked => .trap cPerm (lowWord va)
    | .ok pa bits e => checkKind acc atom h refused va pa bits e

/-- An access of a thread that passed its checks. -/
structure Hit where
  t : Nat
  pa : Nat
  bits : Nat
  deriving DecidableEq, Repr

/-- The threads that make an access: the lowest one for a uniform word (R302). -/
def Issue.runners (i : Issue) : List Nat := if i.v.u then [i.first] else i.ts

/-- A fault that parks a group: address, kind, level, and whether the access was tagged (R418). -/
structure Blocked where
  va : Nat
  kind : Nat
  level : Nat
  tagged : Bool
  deriving DecidableEq, Repr

/-- The first fault of each page and kind: the others join it (R418). -/
def firstOfPages : List Blocked → List Blocked
  | [] => []
  | x :: l => x :: (firstOfPages l).filter fun y => !(y.va / 4096 == x.va / 4096 && y.kind == x.kind)

/-- The group parked on the faults it waits for (R41, R295, R418); `eng` marks the access of an engine. -/
def State.park (s : State) (i : Issue) (acc : AccessKind) (eng : Bool) (fs : List Blocked) : State :=
  let who : Accessor := .group i.c.uid i.c.gid
  let s := (firstOfPages fs).foldl (fun s x =>
    s.raiseFault i.t.slot x.va x.kind (accBits acc eng x.tagged) x.level (i.t.groupSource i.c.gid) who) s
  s.mapGroup i.c.uid i.c.gid fun g =>
    { g with parked := (s.faults.filter fun f => f.who.contains who).map (·.id), parkPc := i.c.setPc,
             replay := i.c.active, failed := if g.parkPc = i.c.setPc then g.failed else [] }

/-- A retry of the word at the next instant: an issue stall (R296). -/
def retry (s : State) (i : Issue) : Done :=
  { st := s, hold := some (.stall { pc := i.c.pc, setPc := i.c.setPc, begun := false, result := 0, waitUntil := s.now + 1 }) }

/-- A host memory completer refuses the atomic of a thread (log 20). -/
def State.refusal (s : State) (atom : AtomKind) (t : Nat) : Bool :=
  match atom with
  | .sys true => Config.completerRefuses (s.free + t)
  | _ => false

/-- The checks of the threads that make an access. -/
def State.checks (s : State) (i : Issue) (va : Nat → DWord) (size : Nat) (acc : AccessKind) (atom : AtomKind) :
    List (Nat × Check) :=
  i.runners.map fun t => (t, s.checkGlobal i (va t) size acc atom (i.hypOf t) (s.refusal atom t))

/-- The accesses that passed. -/
def hitsOf (l : List (Nat × Check)) : List Hit :=
  l.filterMap fun x =>
    match x.2 with
    | .ok pa bits _ => some { t := x.1, pa := pa, bits := bits : Hit }
    | _ => none

/-- The translations that passed are kept (R414). -/
def State.translated (s : State) (atom : AtomKind) (l : List (Nat × Check)) : State :=
  let s := l.foldl (fun s x =>
    match x.2 with
    | .ok _ _ e => s.tlbFill e
    | _ => s) s
  if atom = .plain ∨ atom = .dev then s else { s with free := s.free + 64 }

/-- The accesses of a word to global memory: a thread's earlier acquire goes first (R77); a replayable fault parks the
group and nothing is done; a thread that fails a check traps; the others go on with `k` (R295). -/
def globalWord (i : Issue) (s : State) (va : Nat → DWord) (size : Nat) (acc : AccessKind) (atom : AtomKind)
    (k : State → List Hit → Done) : Done :=
  if s.acquiring i then retry s i
  else
    let checks := s.checks i va size acc atom
    let parks := checks.filterMap fun x =>
      match x.2 with
      | .park a kind level => some { va := a, kind := kind, level := level, tagged := i.hypOf x.1 != 0 : Blocked }
      | _ => none
    if parks ≠ [] then { st := s.park i acc false parks, hold := some .park }
    else
      { k (s.translated atom checks) (hitsOf checks) with trap := fun t => (checks.find? fun x => x.1 == t).bind fun x =>
          match x.2 with
          | .trap c d => some (c, d)
          | _ => none }

/-! ## Loads and stores -/

/-- The byte offset of a MEM word (R213, R214, R290). -/
def memOffset (w : MEM) (lit : Word) (size : Nat) : DWord :=
  if w.l then lit.signExtend 64 else w.o.signExtend 64 * BitVec.ofNat 64 size

/-- ORD of a MEM word: 0 relaxed, 1 acquire, 2 release (R214). -/
def memOrd (w : MEM) : Nat := if w.l then (w.o.extractLsb' 3 2).toNat else 0

/-- The class of a MEM word; without ordering it is relaxed at dev scope (R67, R213). -/
def memClass (w : MEM) (t : Team) : ScopeClass :=
  if w.l then classOf (w.o.extractLsb' 0 3).toNat t.record.hinged else .device

/-- The class of the issuing core's L1 use: the effective policy allows L1 and the lease is not 0 (R59, R60). -/
def Issue.mayAllocate (i : Issue) (pa bits : Nat) (h : Word) : Bool :=
  i.c.snap.lease != 0 && (i.c.snap.cpol == 0 || i.c.snap.cpol == 4) && bits / 64 % 4 == 0 && h == 0 && !isHost pa

/-- The hypothesis an access is tagged with; host and no-hypothesis pages are not (R148). -/
def tagOf (h : Word) (pa bits : Nat) : Word := if isHost pa ∨ bits.testBit 5 then 0 else h

/-- A global access on its way. -/
def Issue.access (i : Issue) (s : State) (k : Nat) (x : Hit) (size : Nat) (what : Access) (cls : ScopeClass) (acq : Bool) :
    Flight :=
  let h := i.hypOf x.t
  { i.flight s x.t k what with
      tgt := .mem x.pa, size := size, hyp := tagOf h x.pa x.bits, cls := cls, acq := acq,
      l1At := s.l1Core i.t.cl (i.t.coreOf i.c.gid) x.pa, direct := (acq && cls.wide) || h != 0, lease := i.c.snap.lease.toNat, tracked := x.bits.testBit 4,
      l1ok := i.mayAllocate x.pa x.bits h && !acq, done := false, acked := true }

/-- The group's buffered stores that overlap some flights are drained (R69, R71, R88, R94); this uses numbers, so the
flights of the word are numbered after it. -/
def State.drainFor (s : State) (i : Issue) (fs : List Flight) : State :=
  fs.foldl (fun s f =>
    match f.tgt with
    | .mem pa => s.drainOverlap f.cl f.core i.c.uid i.c.gid pa f.size
    | .sp _ _ => s) s

/-- Some flights still wait for the acknowledgement of buffered stores that they had drained (R69, R94). -/
def State.acksOut (s : State) (i : Issue) (fs : List Flight) : Bool :=
  fs.any fun f =>
    match f.tgt with
    | .mem pa => s.ackPending i.c.uid i.c.gid pa f.size
    | .sp _ _ => false

/-- The group's buffered stores that overlap some accesses are drained, and the word stalls until they are acknowledged
(R69, R71, R88, R94); then it goes on. -/
def drainedFirst (i : Issue) (s : State) (fs : List Flight) (k : State → Done) : Done :=
  let s := s.drainFor i fs
  if s.acksOut i fs then retry s i else k s

/-- The loads of one word, and those of them that go past the store buffer. -/
def Issue.loads (i : Issue) (s : State) (hits : List Hit) (size : Nat) (what : Nat → Nat → Access) (cls : ScopeClass)
    (acq : Bool) : List Flight :=
  hits.mapIdx fun k x => i.access s k x size (what s.nextId k) cls acq

/-- Loads of one word on their way: the state, and the flights. `what` gives each its access from the number of the first
flight and its own place. -/
def State.sendLoads (s : State) (i : Issue) (hits : List Hit) (size : Nat) (what : Nat → Nat → Access) (cls : ScopeClass)
    (acq : Bool) : State × List Flight :=
  (s.addFlights (i.loads s hits size what cls acq), i.loads s hits size what cls acq)

/-- The writes, atomics or merges of one word. -/
def Issue.writes (i : Issue) (s : State) (hits : List Hit) (size : Nat) (what : Hit → Access) (cls : ScopeClass) (acq : Bool) :
    List Flight :=
  hits.mapIdx fun k x => { i.access s k x size (what x) cls acq with acked := false }

/-- Writes, atomics and merges of one word on their way to their home slices. -/
def State.sendWrites (s : State) (i : Issue) (hits : List Hit) (size : Nat) (what : Hit → Access) (cls : ScopeClass)
    (acq : Bool) : State × List Flight :=
  (s.addFlights (i.writes s hits size what cls acq), i.writes s hits size what cls acq)

/-- The load words of a size: the drains come first, then the loads are on their way. -/
def loadWord (i : Issue) (s : State) (hits : List Hit) (size : Nat) (what : Nat → Nat → Access) (cls : ScopeClass) (acq : Bool)
    (k : State × List Flight → Done) : Done :=
  drainedFirst i s ((i.loads s hits size what cls acq).filter (·.direct)) fun s => k (s.sendLoads i hits size what cls acq)

/-- The words that write at the home slices: the drains come first, then the writes are on their way. -/
def writeWord (i : Issue) (s : State) (hits : List Hit) (size : Nat) (what : Hit → Access) (cls : ScopeClass) (acq : Bool)
    (k : State × List Flight → Done) : Done :=
  drainedFirst i s (i.writes s hits size what cls acq) fun s => k (s.sendWrites i hits size what cls acq)

/-- Registers `d` to `d + n - 1` of each flight's thread wait for it (R299). -/
def pendRegs (fl : List Flight) (u : Bool) (d n : Nat) (t : Nat) : List (Nat × Nat) :=
  (fl.filter fun f => u || f.thread == t).flatMap fun f => (List.range n).map fun k => (d + k, f.id)

/-- Address of a global MEM word (R299). -/
def Issue.globalAddr (i : Issue) (w : MEM) (size : Nat) (t : Nat) : DWord :=
  i.rd2 t w.a.toNat + memOffset w i.lit size

/-- `ldg` (R299). -/
def ldgDone (w : MEM) (s : State) (i : Issue) : Done :=
  let size := szBytes w.sz
  let cls := memClass w i.t
  globalWord i s (i.globalAddr w size) size .read .plain fun s hits =>
    loadWord i s hits size (fun _ _ => .load w.d.toNat w.sz.toNat) cls (memOrd w == 1) fun r =>
      { nothing r.1 with pend := pendRegs r.2 i.v.u w.d.toNat (szRegs w.sz) }

/-- The bytes a store takes from its data registers (R298, R300). -/
def Issue.storeBytes (i : Issue) (t d size : Nat) : List Byte :=
  (wordsBytes (i.rdN t d (if size = 8 then 2 else if size = 16 then 4 else 1))).take size

/-- Entries that stores would add to a core's buffer (R70). -/
def State.sbNeed (s : State) (i : Issue) (l : List (Hit × List Byte)) : Nat :=
  let core := i.t.coreOf i.c.gid
  let secs := (l.flatMap fun x => sectorsOf x.1.pa x.2.length).dedup
  (secs.filter fun sec => !((s.groupEntries i.t.cl core i.c.uid i.c.gid).any fun e => e.sector == sec)).length

/-- A core-class store enters the buffer after the thread's older accesses to its bytes (R69, R72), and after what the other
cores of its L1 have buffered of them (R27, R81). -/
def State.bufferStore (s : State) (i : Issue) (x : Hit × List Byte) : State :=
  let core := i.t.coreOf i.c.gid
  let probe := i.access s 0 x.1 x.2.length (.store x.2) .core false
  let s := (s.settleBefore probe).drainSharers i.t.cl core x.1.pa x.2.length false
  let s := s.sbStore i.t.cl core i.c.uid i.c.gid x.1.pa (x.1.bits.testBit 4) x.2
  s.l1Write i.t.cl core x.1.pa x.2

/-- The bytes of a store that goes past the store buffer written into the L1 copies of its core, after what the cores of
that L1 have buffered of them (R59, R69, R81). -/
def State.l1Store (s : State) (cl core pa : Nat) (bytes : List Byte) : State :=
  if s.l1Has cl core pa bytes.length then (s.drainSharers cl core pa bytes.length true).l1Write cl core pa bytes else s

/-- A store on its way to its home slice writes its bytes into the L1 of its core at issue, after the thread's older
accesses to them; a tagged one writes none (R59, R69, R72, R300). -/
def State.wideStore (s : State) (i : Issue) (cls : ScopeClass) (x : Hit × List Byte) : State :=
  if i.hypOf x.1.t = 0 then
    (s.settleBefore (i.access s 0 x.1 x.2.length (.store x.2) cls false)).l1Store i.t.cl (i.t.coreOf i.c.gid) x.1.pa x.2
  else s

/-- The store goes into the store buffer: core class and untagged (R69, R94). -/
def Issue.buffers (i : Issue) (cls : ScopeClass) (x : Hit × List Byte) : Bool := cls == .core && i.hypOf x.1.t == 0

/-- The stores of a word that go to their home slices; those whose bytes an L1 copy takes are marked (R69). -/
def Issue.stores (i : Issue) (s : State) (cls : ScopeClass) (l : List (Hit × List Byte)) : List Flight :=
  (l.filter fun x => !i.buffers cls x).mapIdx fun k x =>
    { i.access s k x.1 x.2.length (.store x.2) cls false with
        acked := false, seen := i.hypOf x.1.t == 0 && s.l1Has i.t.cl (i.t.coreOf i.c.gid) x.1.pa x.2.length }

/-- An access that an untagged store of the word must follow waits for a confirm into the root (R72, R364). -/
def State.storesHeld (s : State) (i : Issue) (cls : ScopeClass) (l : List (Hit × List Byte)) : Bool :=
  l.any fun x => i.hypOf x.1.t == 0 && s.beforeHeld (i.access s 0 x.1 x.2.length (.store x.2) cls false)

/-- The stores of a word issued: those for the buffer, then the L1 copies of the others, which are on their way. -/
def State.issueStores (s : State) (i : Issue) (cls : ScopeClass) (l : List (Hit × List Byte)) : State :=
  let s := (l.filter fun x => i.buffers cls x).foldl (fun s x => s.bufferStore i x) s
  let s := (l.filter fun x => !i.buffers cls x).foldl (fun s x => s.wideStore i cls x) s
  s.addFlights (i.stores s cls l)

/-- The stores of a word: into the buffer for untagged ones of core class, else on their way to the home slices (R69, R94,
R300); a release first waits for its class (R76). -/
def storeWord (i : Issue) (s : State) (cls : ScopeClass) (rel : Bool) (l : List (Hit × List Byte)) : Done :=
  let core := i.t.coreOf i.c.gid
  let held := (s.core i.t.cl core).sb.length
  if rel ∧ !s.released i.t.cl core i.c.uid i.c.gid cls then
    retry (s.beginRelease i.t.cl core i.c.uid i.c.gid cls) i
  else if held ≠ 0 ∧ Config.storeBufferEntries < held + s.sbNeed i (l.filter fun x => i.buffers cls x) then retry s i
  else drainedFirst i s (i.stores s cls l) fun s =>
    if s.storesHeld i cls l then retry s i else nothing (s.issueStores i cls l)

/-- `stg` (R300). -/
def stgDone (w : MEM) (s : State) (i : Issue) : Done :=
  let size := szBytes w.sz
  globalWord i s (i.globalAddr w size) size .write .plain fun s hits =>
    storeWord i s (memClass w i.t) (memOrd w == 2) (hits.map fun x => (x, i.storeBytes x.t w.d.toNat size))

/-! ## Scratchpad (R50, R85, R299 to R301) -/

/-- A scratchpad address of a thread that passed its checks: the team, the offset, the core that holds the byte, and
whether it is another core. -/
structure SpHit where
  t : Nat
  uid : Nat
  off : Nat
  core : Nat
  far : Bool
  deriving DecidableEq, Repr

/-- Address of a scratchpad MEM word (R214). -/
def Issue.spAddr (i : Issue) (w : MEM) (size t : Nat) : Word := i.rd t w.a.toNat + (memOffset w i.lit size).extractLsb' 0 32

/-- Checks 1 and 2 of R294 for a scratchpad address. -/
def State.checkSp (s : State) (i : Issue) (a : Word) (size t : Nat) : SpHit ⊕ (Nat × Word) :=
  match s.spMarks i.t a size with
  | none => .inr (cSpRange, a)
  | some l =>
    if a.toNat % size ≠ 0 then .inr (cMisalign, a)
    else match l with
      | [] => .inr (cSpRange, a)
      | m :: _ =>
        match s.team? m.uid with
        | none => .inr (cSpRange, a)
        | some tm =>
          let core := tm.coreOfByte m.off
          .inl { t := t, uid := m.uid, off := m.off, core := core, far := core != i.t.coreOf i.c.gid }

/-- The checks of the threads that make an access to scratchpad. -/
def State.spChecks (s : State) (i : Issue) (addr : Nat → Word) (size : Nat) : List (Nat × (SpHit ⊕ (Nat × Word))) :=
  i.runners.map fun t => (t, s.checkSp i (addr t) size t)

/-- The accesses of a word to scratchpad. -/
def spWord (i : Issue) (s : State) (addr : Nat → Word) (size : Nat) (k : State → List SpHit → Done) : Done :=
  if s.acquiring i then retry s i
  else
    let checks := s.spChecks i addr size
    { k s (checks.filterMap fun x => x.2.getLeft?) with trap := fun t => (checks.find? fun x => x.1 == t).bind fun x => x.2.getRight? }

/-- A scratchpad access (R85). -/
def Issue.spFlight (i : Issue) (s : State) (k : Nat) (x : SpHit) (size : Nat) (what : Access) (cls : ScopeClass) (acq : Bool) :
    Flight :=
  { i.flight s x.t k what with
      tgt := .sp x.uid x.off, size := size, cls := cls, acq := acq, spCore := x.core, done := false, acked := true }

/-- The scratchpad accesses of a word; `what` gives each its access from its own place in the word. -/
def Issue.spFlights (i : Issue) (s : State) (hits : List SpHit) (size : Nat) (what : Nat → SpHit → Access) (cls : ScopeClass)
    (acq : Bool) : List (SpHit × Flight) :=
  hits.mapIdx fun k x => (x, i.spFlight s k x size (what k x) cls acq)

/-- The access is a store. -/
def Flight.isStore (f : Flight) : Bool :=
  match f.what with
  | .store _ => true
  | _ => false

/-- Loads and atomics of the own core's scratchpad are performed at issue, in ascending thread order, after what the core
has issued to it before; stores, and accesses of other cores' scratchpads, are on their way (R85, R87, R185). -/
def State.sendSp (s : State) (l : List (SpHit × Flight)) : State :=
  ((l.filter fun x => !x.1.far && !x.2.isStore).map (·.2)).foldl State.perform (s.addFlights (l.map (·.2)))

/-- `lds` (R299, R301). -/
def ldsDone (w : MEM) (s : State) (i : Issue) : Done :=
  let size := szBytes w.sz
  spWord i s (i.spAddr w size) size fun s hits =>
    let l := i.spFlights s hits size (fun _ _ => .load w.d.toNat w.sz.toNat) (memClass w i.t) (memOrd w == 1)
    { nothing (s.sendSp l) with pend := pendRegs (l.map (·.2)) i.v.u w.d.toNat (szRegs w.sz) }

/-- Stores of a word to scratchpad, a release first waiting for its class (R76, R301). -/
def spStoreWord (i : Issue) (s : State) (cls : ScopeClass) (rel : Bool) (l : List (SpHit × List Byte)) : Done :=
  let core := i.t.coreOf i.c.gid
  if rel ∧ !s.released i.t.cl core i.c.uid i.c.gid cls then
    retry (s.beginRelease i.t.cl core i.c.uid i.c.gid cls) i
  else
    nothing (s.sendSp (l.mapIdx fun k x => (x.1, i.spFlight s k x.1 x.2.length (.store x.2) cls false)))

/-- `sts` (R300, R301). -/
def stsDone (w : MEM) (s : State) (i : Issue) : Done :=
  let size := szBytes w.sz
  spWord i s (i.spAddr w size) size fun s hits =>
    spStoreWord i s (memClass w i.t) (memOrd w == 2) (hits.map fun x => (x, i.storeBytes x.t w.d.toNat size))

/-! ## Accumulators in memory (R290 to R293) -/

/-- The eight 16-byte parts of an image in memory (R290). -/
def Hit.parts (x : Hit) : List Hit := (List.range 8).map fun k => { x with pa := x.pa + 16 * k }
/-- The eight 16-byte parts of an image in scratchpad (R290). -/
def SpHit.parts (x : SpHit) : List SpHit := (List.range 8).map fun k => { x with off := x.off + 16 * k }
/-- Those parts with their bytes (R291). -/
def imageParts {α : Type} (l : List α) (img : List Byte) : List (α × List Byte) :=
  l.mapIdx fun k x => (x, (img.drop (16 * k)).take 16)
/-- The part of an image that the `k`-th flight of an `lld` reads, when the first one has number `base` (R292). -/
def partLoad (d base k : Nat) : Access := .lload d (k % 8) (base + k / 8 * 8)

/-- `lst` (R291). -/
def lstDone (w : MEM) (s : State) (i : Issue) : Done :=
  let img := fun t => (i.acc t w.d.toNat).acc.image
  if w.sz = 0 then
    globalWord i s (i.globalAddr w 128) 128 .write .plain fun s hits =>
      storeWord i s (memClass w i.t) (memOrd w == 2) (hits.flatMap fun x => imageParts x.parts (img x.t))
  else
    spWord i s (i.spAddr w 128) 128 fun s hits =>
      spStoreWord i s (memClass w i.t) (memOrd w == 2) (hits.flatMap fun x => imageParts x.parts (img x.t))

/-- The accumulators of each flight's thread become EMPTY, and wait for the thread's first flight (R292). -/
def Issue.pendAcc (i : Issue) (fl : List Flight) (d t : Nat) : List (Nat × AccCell) :=
  ((fl.find? fun f => f.thread == t).map fun f => (d, { acc := (i.acc t d).acc, prod := f.id })).toList

/-- `lld` (R292). -/
def lldDone (w : MEM) (s : State) (i : Issue) : Done :=
  let cls := memClass w i.t
  let d := w.d.toNat
  if w.sz = 0 then
    globalWord i s (i.globalAddr w 128) 128 .read .plain fun s hits =>
      loadWord i s (hits.flatMap Hit.parts) 16 (partLoad d) cls (memOrd w == 1) fun r =>
        { nothing r.1 with acc := i.pendAcc r.2 d }
  else
    spWord i s (i.spAddr w 128) 128 fun s hits =>
      let l := i.spFlights s (hits.flatMap SpHit.parts) 16 (fun k _ => partLoad d s.nextId k) cls (memOrd w == 1)
      { nothing (s.sendSp l) with acc := i.pendAcc (l.map (·.2)) d }

/-- `lred` (R293). -/
def lredDone (w : MEM) (s : State) (i : Issue) : Done :=
  let core := i.t.coreOf i.c.gid
  globalWord i s (i.globalAddr w 128) 128 .write .dev fun s hits =>
    if memOrd w = 2 ∧ !s.released i.t.cl core i.c.uid i.c.gid (memClass w i.t) then
      retry (s.beginRelease i.t.cl core i.c.uid i.c.gid (memClass w i.t)) i
    else
      writeWord i s hits 128 (fun x => .merge (i.acc x.t w.d.toNat).acc) .device false fun r => nothing r.1

/-! ## Atomics (R303 to R306) -/

/-- Ordering of an atomic major (R303). -/
inductive AtomOrder where
  | relaxed
  | acqRel
  | system
  deriving DecidableEq, Repr

/-- The class an atomic releases and acquires at. -/
def AtomOrder.cls (o : AtomOrder) : ScopeClass :=
  match o with
  | .system => .system
  | _ => .device

/-- AO values that an untracked host page takes (R89). -/
def AtomOp.hostOk (op : AtomOp) : Bool :=
  match op with
  | .add | .sub | .swap | .cas => true
  | _ => false

/-- The rule an atomic of an order falls under. -/
def AtomOrder.kind (o : AtomOrder) (op : AtomOp) : AtomKind :=
  match o with
  | .system => .sys op.hostOk
  | _ => .dev

/-- Operand and compare value of an AT word (R303). -/
def Issue.atomArgs (i : Issue) (op : AtomOp) (w : AT) (t : Nat) : Nat × Nat :=
  let b := w.b.toNat
  let num := fun n => if w.sz then (i.rd2 t n).toNat else (i.rd t n).toNat
  if op = .cas then (num (b + if w.sz then 2 else 1), num b) else (num b, 0)

/-- The destination of an AT word; 63 discards (R215). -/
def atDest (w : AT) : Option Nat := if w.d = 63 then none else some w.d.toNat

/-- `atg`, `atg.ar` and `atg.sys` (R304, R305). -/
def atgDone (op : AtomOp) (o : AtomOrder) (w : AT) (s : State) (i : Issue) : Done :=
  let size := if w.sz then 8 else 4
  let core := i.t.coreOf i.c.gid
  globalWord i s (fun t => i.rd2 t w.a.toNat) size .readWrite (o.kind op) fun s hits =>
    if o ≠ .relaxed ∧ !s.released i.t.cl core i.c.uid i.c.gid o.cls then
      retry (s.beginRelease i.t.cl core i.c.uid i.c.gid o.cls) i
    else
      writeWord i s hits size (fun x => .atomic op (i.atomArgs op w x.t).1 (i.atomArgs op w x.t).2 (atDest w)) o.cls
        (o != .relaxed) fun r =>
          { nothing r.1 with pend := match atDest w with
              | some d => pendRegs r.2 i.v.u d (if w.sz then 2 else 1)
              | none => fun _ => [] }

/-- `ats` (R304, R305). -/
def atsDone (op : AtomOp) (w : AT) (s : State) (i : Issue) : Done :=
  let size := if w.sz then 8 else 4
  spWord i s (fun t => i.rd t w.a.toNat) size fun s hits =>
    let l := i.spFlights s hits size
      (fun _ x => .atomic op (i.atomArgs op w x.t).1 (i.atomArgs op w x.t).2 (atDest w)) .core false
    { nothing (s.sendSp l) with pend := match atDest w with
        | some d => pendRegs (l.map (·.2)) i.v.u d (if w.sz then 2 else 1)
        | none => fun _ => [] }

/-- `acas16` (R306). -/
def acas16Done (w : RR) (s : State) (i : Issue) : Done :=
  let core := i.t.coreOf i.c.gid
  let quad := fun t n => leNat (wordsBytes (i.rdN t n 4))
  globalWord i s (fun t => i.rd2 t w.a.toNat) 16 .readWrite (.sys true) fun s hits =>
    if !s.released i.t.cl core i.c.uid i.c.gid .system then
      retry (s.beginRelease i.t.cl core i.c.uid i.c.gid .system) i
    else
      writeWord i s hits 16 (fun x => .cas16 (quad x.t w.b.toNat) (quad x.t (w.b.toNat + 4)) w.d.toNat) .system true fun r =>
        { nothing r.1 with pend := pendRegs r.2 i.v.u w.d.toNat 4 }

/-! ## fence, cache, acqr (R307, R308, R310) -/

/-- `fence` (R78, R307): KIND 1 acq, 2 rel, 3 full. -/
def fenceDone (kind : Nat) (w : FN) (s : State) (i : Issue) : Done :=
  let core := i.t.coreOf i.c.gid
  let cls := classOf w.scope.toNat i.t.record.hinged
  if kind ≠ 1 ∧ !s.released i.t.cl core i.c.uid i.c.gid cls then
    retry (s.beginRelease i.t.cl core i.c.uid i.c.gid cls) i
  else if !s.loadsDone i.c.uid i.c.gid then retry s i
  else if kind ≠ 2 ∧ cls.wide then nothing (s.raiseFfl i.c.uid i.c.gid s.now)
  else nothing s

/-- The cores whose L1s serve a core: its own, or those of its fusion domain (R27). -/
def State.l1Cores (s : State) (cl core : Nat) : List Nat :=
  let d := (s.core cl core).fusion
  if d = 0 then [core] else (List.range d).map (· + core / d * d)

/-- Every line of the L1 of a core, or of its fusion domain, dropped. -/
def State.dropL1 (s : State) (cl core : Nat) : State :=
  (s.l1Cores cl core).foldl
    (fun s c => if (s.core cl c).l1 = [] then s else s.mapCore cl c fun c => { c with l1 := [] }) s

/-- `cache.l1inv` (R308). -/
def l1invDone (s : State) (i : Issue) : Done := nothing (s.dropL1 i.t.cl (i.t.coreOf i.c.gid))

/-- A drained entry of the group still waits for its acknowledgement. -/
def State.drainPending (s : State) (uid gid : Nat) : Bool :=
  (s.groupFlights uid gid).any fun f => f.size == 0 && f.done && !f.acked

/-- `cache.drain` (R308). -/
def cacheDrainDone (s : State) (i : Issue) : Done :=
  let core := i.t.coreOf i.c.gid
  let s := s.drainGroup i.t.cl core i.c.uid i.c.gid
  if s.drainPending i.c.uid i.c.gid then retry s i else nothing s

/-- The prefetch of one sector (R308): no trap, and no data changes. -/
def State.prefetchLine (s : State) (i : Issue) (t : Nat) (va : DWord) : State :=
  if va.toNat / 2 ^ 48 ≠ 0 ∨ i.hypOf t ≠ 0 then s
  else match s.translate (s.slot i.t.slot) va.toNat .read with
    | .ok pa bits e =>
      let s := s.tlbFill e
      if i.mayAllocate pa bits 0 ∧ (s.l1Hit i.t.cl (i.t.coreOf i.c.gid) i.c.uid i.c.gid (pa / 64)).isNone then
        s.l1Grant i.t.cl (i.t.coreOf i.c.gid) i.c.snap.lease.toNat (pa / 64)
      else s
    | _ => s

/-- `cache.pfl` (R308). -/
def pflDone (w : RM) (s : State) (i : Issue) : Done :=
  nothing (i.runners.foldl (fun s t => s.prefetchLine i t (i.rd2 t w.a.toNat)) s)

/-- The stores of a core that an `acqr` arriving now waits for (R84). -/
def State.cutOf (s : State) (cl core : Nat) : List Nat × List Nat :=
  ((s.flights.filter fun f => f.cl == cl && f.core == core && !f.acked).map (·.id), (s.core cl core).sb.map (·.id))

/-- The request of an `acqr` that the group has stalled in (R310). -/
def State.acqrOf (s : State) (i : Issue) : Option Acqr :=
  if i.begun.isNone then none else s.acqrs.find? fun a => a.uid == i.c.uid && a.gid == i.c.gid && a.pc == i.c.pc

/-- The group waits for no report of an `acqr`; an earlier one that it left goes nowhere. -/
def State.endAcqr (s : State) (i : Issue) : State :=
  { s with acqrs := s.acqrs.filter fun a => !(a.uid == i.c.uid && a.gid == i.c.gid) }

/-- `acqr` (R84, R310): the request is sent at the first issue; the word completes once the report has come. -/
def acqrDone (w : RM) (s : State) (i : Issue) : Done :=
  let x := i.srcA w i.first
  let core := i.t.coreOf i.c.gid
  let cl := (x.extractLsb' 8 3).toNat
  let num := (x.extractLsb' 0 8).toNat
  if x.toNat / 2 ^ 11 ≠ 0 then allTrap s cIllegal i.c.word
  else if cl = i.t.cl ∧ num = core then
    if !s.released i.t.cl core i.c.uid i.c.gid .device then
      retry (s.beginRelease i.t.cl core i.c.uid i.c.gid .device) i
    else nothing (s.raiseFfl i.c.uid i.c.gid s.now)
  else if s.coreRetired cl num then
    if s.loadsDone i.c.uid i.c.gid then nothing ((s.endAcqr i).raiseFfl i.c.uid i.c.gid s.now) else retry s i
  else
    match s.acqrOf i with
    | some a =>
      if a.reported then nothing ((s.endAcqr i).raiseFfl i.c.uid i.c.gid s.now)
      else stallFor s i 0 (s.now + 1)
    | none =>
      let a : Acqr := { id := s.nextId, uid := i.c.uid, gid := i.c.gid, pc := i.c.pc, cl := cl, core := num,
                        arrived := false, cutFlights := [], cutEntries := [], drained := false, reported := false }
      stallFor { s with acqrs := (s.endAcqr i).acqrs ++ [a], nextId := s.nextId + 1 } i 0 (s.now + 1)

/-- LST (R291): Stores an accumulator's spill image as held. -/
def execLst (w : MEM) (s : State) : Host.Outcome State Fault Refusal :=
  issueWord (.mem 0x58 .zero { sz := 1 } w) (lstDone w) s

/-- LLD (R292): Loads a spill image into an accumulator. -/
def execLld (w : MEM) (s : State) : Host.Outcome State Fault Refusal :=
  issueWord (.mem 0x59 .zero { sz := 1 } w) (lldDone w) s

/-- LRED (R293): Merges an accumulator into a global ACC unit at its home slice. -/
def execLred (w : MEM) (s : State) : Host.Outcome State Fault Refusal :=
  issueWord (.mem 0x5A .zero { sz := 0 } w) (lredDone w) s

/-- LDG (R299): Loads from global memory. -/
def execLdg (w : MEM) (s : State) : Host.Outcome State Fault Refusal :=
  issueWord (.mem 0x5D .any {} w) (ldgDone w) s

/-- STG (R300): Stores to global memory. -/
def execStg (w : MEM) (s : State) : Host.Outcome State Fault Refusal :=
  issueWord (.mem 0x5E .any {} w) (stgDone w) s

/-- LDS (R299): Loads from scratchpad. -/
def execLds (w : MEM) (s : State) : Host.Outcome State Fault Refusal :=
  issueWord (.mem 0x5F .any {} w) (ldsDone w) s

/-- STS (R300): Stores to scratchpad. -/
def execSts (w : MEM) (s : State) : Host.Outcome State Fault Refusal :=
  issueWord (.mem 0x60 .any {} w) (stsDone w) s

/-- ATG_ADD (R304): Relaxed dev-scope atomic add. -/
def execAtgAdd (w : AT) (s : State) : Host.Outcome State Fault Refusal :=
  issueWord (.at 0x61 0 w) (atgDone .add .relaxed w) s

/-- ATG_SUB (R304): Relaxed dev-scope atomic subtract. -/
def execAtgSub (w : AT) (s : State) : Host.Outcome State Fault Refusal :=
  issueWord (.at 0x61 1 w) (atgDone .sub .relaxed w) s

/-- ATG_MIN_S (R304): Relaxed dev-scope atomic signed minimum. -/
def execAtgMinS (w : AT) (s : State) : Host.Outcome State Fault Refusal :=
  issueWord (.at 0x61 2 w) (atgDone .minS .relaxed w) s

/-- ATG_MIN_Z (R304): Relaxed dev-scope atomic unsigned minimum. -/
def execAtgMinZ (w : AT) (s : State) : Host.Outcome State Fault Refusal :=
  issueWord (.at 0x61 3 w) (atgDone .minZ .relaxed w) s

/-- ATG_MAX_S (R304): Relaxed dev-scope atomic signed maximum. -/
def execAtgMaxS (w : AT) (s : State) : Host.Outcome State Fault Refusal :=
  issueWord (.at 0x61 4 w) (atgDone .maxS .relaxed w) s

/-- ATG_MAX_Z (R304): Relaxed dev-scope atomic unsigned maximum. -/
def execAtgMaxZ (w : AT) (s : State) : Host.Outcome State Fault Refusal :=
  issueWord (.at 0x61 5 w) (atgDone .maxZ .relaxed w) s

/-- ATG_AND (R304): Relaxed dev-scope atomic and. -/
def execAtgAnd (w : AT) (s : State) : Host.Outcome State Fault Refusal :=
  issueWord (.at 0x61 6 w) (atgDone .and .relaxed w) s

/-- ATG_OR (R304): Relaxed dev-scope atomic or. -/
def execAtgOr (w : AT) (s : State) : Host.Outcome State Fault Refusal :=
  issueWord (.at 0x61 7 w) (atgDone .or .relaxed w) s

/-- ATG_XOR (R304): Relaxed dev-scope atomic xor. -/
def execAtgXor (w : AT) (s : State) : Host.Outcome State Fault Refusal :=
  issueWord (.at 0x61 8 w) (atgDone .xor .relaxed w) s

/-- ATG_SWAP (R304): Relaxed dev-scope atomic swap. -/
def execAtgSwap (w : AT) (s : State) : Host.Outcome State Fault Refusal :=
  issueWord (.at 0x61 9 w) (atgDone .swap .relaxed w) s

/-- ATG_CAS (R304): Relaxed dev-scope compare-and-swap. -/
def execAtgCas (w : AT) (s : State) : Host.Outcome State Fault Refusal :=
  issueWord (.at 0x61 10 w) (atgDone .cas .relaxed w) s

/-- ATG_INC_WRAP (R304): Relaxed dev-scope wrapping increment. -/
def execAtgIncWrap (w : AT) (s : State) : Host.Outcome State Fault Refusal :=
  issueWord (.at 0x61 11 w) (atgDone .incWrap .relaxed w) s

/-- ATG_DEC_WRAP (R304): Relaxed dev-scope wrapping decrement. -/
def execAtgDecWrap (w : AT) (s : State) : Host.Outcome State Fault Refusal :=
  issueWord (.at 0x61 12 w) (atgDone .decWrap .relaxed w) s

/-- ATG_AR_ADD (R304): Acq_rel dev-scope atomic add. -/
def execAtgArAdd (w : AT) (s : State) : Host.Outcome State Fault Refusal :=
  issueWord (.at 0x62 0 w) (atgDone .add .acqRel w) s

/-- ATG_AR_SUB (R304): Acq_rel dev-scope atomic subtract. -/
def execAtgArSub (w : AT) (s : State) : Host.Outcome State Fault Refusal :=
  issueWord (.at 0x62 1 w) (atgDone .sub .acqRel w) s

/-- ATG_AR_MIN_S (R304): Acq_rel dev-scope atomic signed minimum. -/
def execAtgArMinS (w : AT) (s : State) : Host.Outcome State Fault Refusal :=
  issueWord (.at 0x62 2 w) (atgDone .minS .acqRel w) s

/-- ATG_AR_MIN_Z (R304): Acq_rel dev-scope atomic unsigned minimum. -/
def execAtgArMinZ (w : AT) (s : State) : Host.Outcome State Fault Refusal :=
  issueWord (.at 0x62 3 w) (atgDone .minZ .acqRel w) s

/-- ATG_AR_MAX_S (R304): Acq_rel dev-scope atomic signed maximum. -/
def execAtgArMaxS (w : AT) (s : State) : Host.Outcome State Fault Refusal :=
  issueWord (.at 0x62 4 w) (atgDone .maxS .acqRel w) s

/-- ATG_AR_MAX_Z (R304): Acq_rel dev-scope atomic unsigned maximum. -/
def execAtgArMaxZ (w : AT) (s : State) : Host.Outcome State Fault Refusal :=
  issueWord (.at 0x62 5 w) (atgDone .maxZ .acqRel w) s

/-- ATG_AR_AND (R304): Acq_rel dev-scope atomic and. -/
def execAtgArAnd (w : AT) (s : State) : Host.Outcome State Fault Refusal :=
  issueWord (.at 0x62 6 w) (atgDone .and .acqRel w) s

/-- ATG_AR_OR (R304): Acq_rel dev-scope atomic or. -/
def execAtgArOr (w : AT) (s : State) : Host.Outcome State Fault Refusal :=
  issueWord (.at 0x62 7 w) (atgDone .or .acqRel w) s

/-- ATG_AR_XOR (R304): Acq_rel dev-scope atomic xor. -/
def execAtgArXor (w : AT) (s : State) : Host.Outcome State Fault Refusal :=
  issueWord (.at 0x62 8 w) (atgDone .xor .acqRel w) s

/-- ATG_AR_SWAP (R304): Acq_rel dev-scope atomic swap. -/
def execAtgArSwap (w : AT) (s : State) : Host.Outcome State Fault Refusal :=
  issueWord (.at 0x62 9 w) (atgDone .swap .acqRel w) s

/-- ATG_AR_CAS (R304): Acq_rel dev-scope compare-and-swap. -/
def execAtgArCas (w : AT) (s : State) : Host.Outcome State Fault Refusal :=
  issueWord (.at 0x62 10 w) (atgDone .cas .acqRel w) s

/-- ATG_AR_INC_WRAP (R304): Acq_rel dev-scope wrapping increment. -/
def execAtgArIncWrap (w : AT) (s : State) : Host.Outcome State Fault Refusal :=
  issueWord (.at 0x62 11 w) (atgDone .incWrap .acqRel w) s

/-- ATG_AR_DEC_WRAP (R304): Acq_rel dev-scope wrapping decrement. -/
def execAtgArDecWrap (w : AT) (s : State) : Host.Outcome State Fault Refusal :=
  issueWord (.at 0x62 12 w) (atgDone .decWrap .acqRel w) s

/-- ATG_SYS_ADD (R304): Acq_rel sys-scope atomic add. -/
def execAtgSysAdd (w : AT) (s : State) : Host.Outcome State Fault Refusal :=
  issueWord (.at 0x63 0 w) (atgDone .add .system w) s

/-- ATG_SYS_SUB (R304): Acq_rel sys-scope atomic subtract. -/
def execAtgSysSub (w : AT) (s : State) : Host.Outcome State Fault Refusal :=
  issueWord (.at 0x63 1 w) (atgDone .sub .system w) s

/-- ATG_SYS_MIN_S (R304): Acq_rel sys-scope atomic signed minimum. -/
def execAtgSysMinS (w : AT) (s : State) : Host.Outcome State Fault Refusal :=
  issueWord (.at 0x63 2 w) (atgDone .minS .system w) s

/-- ATG_SYS_MIN_Z (R304): Acq_rel sys-scope atomic unsigned minimum. -/
def execAtgSysMinZ (w : AT) (s : State) : Host.Outcome State Fault Refusal :=
  issueWord (.at 0x63 3 w) (atgDone .minZ .system w) s

/-- ATG_SYS_MAX_S (R304): Acq_rel sys-scope atomic signed maximum. -/
def execAtgSysMaxS (w : AT) (s : State) : Host.Outcome State Fault Refusal :=
  issueWord (.at 0x63 4 w) (atgDone .maxS .system w) s

/-- ATG_SYS_MAX_Z (R304): Acq_rel sys-scope atomic unsigned maximum. -/
def execAtgSysMaxZ (w : AT) (s : State) : Host.Outcome State Fault Refusal :=
  issueWord (.at 0x63 5 w) (atgDone .maxZ .system w) s

/-- ATG_SYS_AND (R304): Acq_rel sys-scope atomic and. -/
def execAtgSysAnd (w : AT) (s : State) : Host.Outcome State Fault Refusal :=
  issueWord (.at 0x63 6 w) (atgDone .and .system w) s

/-- ATG_SYS_OR (R304): Acq_rel sys-scope atomic or. -/
def execAtgSysOr (w : AT) (s : State) : Host.Outcome State Fault Refusal :=
  issueWord (.at 0x63 7 w) (atgDone .or .system w) s

/-- ATG_SYS_XOR (R304): Acq_rel sys-scope atomic xor. -/
def execAtgSysXor (w : AT) (s : State) : Host.Outcome State Fault Refusal :=
  issueWord (.at 0x63 8 w) (atgDone .xor .system w) s

/-- ATG_SYS_SWAP (R304): Acq_rel sys-scope atomic swap. -/
def execAtgSysSwap (w : AT) (s : State) : Host.Outcome State Fault Refusal :=
  issueWord (.at 0x63 9 w) (atgDone .swap .system w) s

/-- ATG_SYS_CAS (R304): Acq_rel sys-scope compare-and-swap. -/
def execAtgSysCas (w : AT) (s : State) : Host.Outcome State Fault Refusal :=
  issueWord (.at 0x63 10 w) (atgDone .cas .system w) s

/-- ATG_SYS_INC_WRAP (R304): Acq_rel sys-scope wrapping increment. -/
def execAtgSysIncWrap (w : AT) (s : State) : Host.Outcome State Fault Refusal :=
  issueWord (.at 0x63 11 w) (atgDone .incWrap .system w) s

/-- ATG_SYS_DEC_WRAP (R304): Acq_rel sys-scope wrapping decrement. -/
def execAtgSysDecWrap (w : AT) (s : State) : Host.Outcome State Fault Refusal :=
  issueWord (.at 0x63 12 w) (atgDone .decWrap .system w) s

/-- ATS_ADD (R304): Scratchpad atomic add. -/
def execAtsAdd (w : AT) (s : State) : Host.Outcome State Fault Refusal :=
  issueWord (.at 0x64 0 w) (atsDone .add w) s

/-- ATS_SUB (R304): Scratchpad atomic subtract. -/
def execAtsSub (w : AT) (s : State) : Host.Outcome State Fault Refusal :=
  issueWord (.at 0x64 1 w) (atsDone .sub w) s

/-- ATS_MIN_S (R304): Scratchpad atomic signed minimum. -/
def execAtsMinS (w : AT) (s : State) : Host.Outcome State Fault Refusal :=
  issueWord (.at 0x64 2 w) (atsDone .minS w) s

/-- ATS_MIN_Z (R304): Scratchpad atomic unsigned minimum. -/
def execAtsMinZ (w : AT) (s : State) : Host.Outcome State Fault Refusal :=
  issueWord (.at 0x64 3 w) (atsDone .minZ w) s

/-- ATS_MAX_S (R304): Scratchpad atomic signed maximum. -/
def execAtsMaxS (w : AT) (s : State) : Host.Outcome State Fault Refusal :=
  issueWord (.at 0x64 4 w) (atsDone .maxS w) s

/-- ATS_MAX_Z (R304): Scratchpad atomic unsigned maximum. -/
def execAtsMaxZ (w : AT) (s : State) : Host.Outcome State Fault Refusal :=
  issueWord (.at 0x64 5 w) (atsDone .maxZ w) s

/-- ATS_AND (R304): Scratchpad atomic and. -/
def execAtsAnd (w : AT) (s : State) : Host.Outcome State Fault Refusal :=
  issueWord (.at 0x64 6 w) (atsDone .and w) s

/-- ATS_OR (R304): Scratchpad atomic or. -/
def execAtsOr (w : AT) (s : State) : Host.Outcome State Fault Refusal :=
  issueWord (.at 0x64 7 w) (atsDone .or w) s

/-- ATS_XOR (R304): Scratchpad atomic xor. -/
def execAtsXor (w : AT) (s : State) : Host.Outcome State Fault Refusal :=
  issueWord (.at 0x64 8 w) (atsDone .xor w) s

/-- ATS_SWAP (R304): Scratchpad atomic swap. -/
def execAtsSwap (w : AT) (s : State) : Host.Outcome State Fault Refusal :=
  issueWord (.at 0x64 9 w) (atsDone .swap w) s

/-- ATS_CAS (R304): Scratchpad compare-and-swap. -/
def execAtsCas (w : AT) (s : State) : Host.Outcome State Fault Refusal :=
  issueWord (.at 0x64 10 w) (atsDone .cas w) s

/-- ATS_INC_WRAP (R304): Scratchpad wrapping increment. -/
def execAtsIncWrap (w : AT) (s : State) : Host.Outcome State Fault Refusal :=
  issueWord (.at 0x64 11 w) (atsDone .incWrap w) s

/-- ATS_DEC_WRAP (R304): Scratchpad wrapping decrement. -/
def execAtsDecWrap (w : AT) (s : State) : Host.Outcome State Fault Refusal :=
  issueWord (.at 0x64 12 w) (atsDone .decWrap w) s

/-- ACAS16 (R306): 128-bit compare-and-swap with system-class release and acquire. -/
def execAcas16 (w : RR) (s : State) : Host.Outcome State Fault Refusal :=
  issueWord (.rr 0x65 .any { l := true } w) (acas16Done w) s

/-- FENCE_ACQ (R307): Acquire fence at the given scope. -/
def execFenceAcq (w : FN) (s : State) : Host.Outcome State Fault Refusal :=
  issueWord (.fn 1 w) (fenceDone 1 w) s

/-- FENCE_REL (R307): Release fence at the given scope. -/
def execFenceRel (w : FN) (s : State) : Host.Outcome State Fault Refusal :=
  issueWord (.fn 2 w) (fenceDone 2 w) s

/-- FENCE_FULL (R307): Full fence at the given scope. -/
def execFenceFull (w : FN) (s : State) : Host.Outcome State Fault Refusal :=
  issueWord (.fn 3 w) (fenceDone 3 w) s

/-- CACHE_L1INV (R308): Invalidates every sector of the core's L1. -/
def execCacheL1inv (w : RM) (s : State) : Host.Outcome State Fault Refusal :=
  issueWord (.rm 0x67 0 .any { d := true, a := true, ka := true, ea := true, l := true } w) l1invDone s

/-- CACHE_DRAIN (R308): Drains the group's store-buffer entries and waits for acknowledgement. -/
def execCacheDrain (w : RM) (s : State) : Host.Outcome State Fault Refusal :=
  issueWord (.rm 0x67 1 .any { d := true, a := true, ka := true, ea := true, l := true } w) cacheDrainDone s

/-- CACHE_PFL (R308): Prefetches one sector into its home slice and possibly the L1. -/
def execCachePfl (w : RM) (s : State) : Host.Outcome State Fault Refusal :=
  issueWord (.rm 0x67 2 .any { d := true, l := true } w) (pflDone w) s

/-- ACQR (R310): Remote-scope promotion: makes a target core's stores visible and acquires. -/
def execAcqr (w : RM) (s : State) : Host.Outcome State Fault Refusal :=
  issueWith (.rm 0x69 0 .one { d := true } w) (fun _ x => decide (x.toNat < 2 ^ 11)) (fun _ l => l) (acqrDone w) s

end Sys2Proof.Machine
end

