-- ==== Sys2Proof/Machine/Latch.lean ====
section
/-! DEFINITION. Latches (R124 to R130), latch references (R127), the class of a latch's acquire (R83). -/

namespace Sys2Proof.Machine

open Sys2Proof

/-! ## One latch -/

/-- Fault kind COUNT (R129). -/
def faultCount : Word := 0x05000000

/-- A fault delivered to a latch: the first one stays (R129). -/
def Latch.faulted (l : Latch) (w : Word) : Latch := if l.f then l else { l with f := true, fw := w }

/-- One arrival (R125, R126). -/
def Latch.arrive (l : Latch) : Latch :=
  if l.f then l else if l.a ≤ 0 then l.faulted faultCount else { l with a := l.a - 1 }

/-- The bytes expected have come to `b` for a moment (R198). -/
def Latch.sink (l : Latch) (b : Int) : Option Int := if l.v then some (l.low.elim b (min b)) else l.low

/-- `n` bytes added to the bytes expected, less when negative; out of the 32-bit range the latch faults (R125, R126,
R131). -/
def Latch.addBytes (l : Latch) (n : Int) : Latch :=
  if l.f then l
  else if l.b + n < -(2 ^ 31) ∨ 2 ^ 31 ≤ l.b + n then l.faulted faultCount
  else { l with b := l.b + n, low := l.sink (l.b + n) }

/-- The completion rule (R126) with the class of the phase (R83); `hinged` says whose latch it is. -/
def Latch.settle (l : Latch) (hinged : Bool) : Latch :=
  if l.v ∧ !l.f ∧ l.a = 0 ∧ l.b = 0 then
    { l with ph := !l.ph, a := l.ea, b := l.eb, lastDev := l.remote || hinged, anyDev := l.anyDev || l.remote || hinged,
             remote := false, phases := l.phases + 1, low := l.sink l.eb }
  else l

/-- `init` (R125). -/
def Latch.start (l : Latch) (ea eb : Nat) : Latch :=
  { l with ea := ea, eb := eb, a := ea, b := eb, ph := false, f := false, fw := 0, v := true, remote := false, low := none }

/-- `inval` of lk15 (R125). -/
def Latch.reload (l : Latch) : Latch := { l with f := false, a := l.ea, b := l.eb, low := l.sink l.eb }

/-- The status word (R130). -/
def Latch.status (l : Latch) : Word :=
  BitVec.ofNat 32 ((if l.f then 2 ^ 31 else 0) + (if l.a ≤ 0 then 0 else l.a.toNat % 2 ^ 15 * 2 ^ 16) + (if l.ph then 1 else 0))

/-- A latch as R29 gives it at placement: lk15 counts the groups. -/
def Latch.placed (k groups : Nat) : Latch :=
  { f := false, fw := 0, ph := false, ea := if k = 15 then groups else 0, eb := 0, a := if k = 15 then groups else 0, b := 0,
    v := k == 15, remote := false, lastDev := false, anyDev := false, phases := 0 }

/-! ## Latches of a team -/

/-- A latch of a team. -/
def Team.latch (t : Team) (lk : Nat) : Latch := t.latches.getD lk (Latch.placed 0 0)

/-- A thread that waits on a latch looks again (R129); one that waits for the phase that has completed is released for
good, whatever the latch does before it issues again (R126). -/
def Thread.fromLatch (th : Thread) (lk : Nat) (old : Bool) (l : Latch) : Thread :=
  match th.wait with
  | .latch k p =>
    if k = lk then { th with wait := .none, passed := if p = old ∧ l.ph ≠ old then some l.lastDev else none } else th
  | _ => th

/-- The groups that wait on a latch whose parity was `old` (R126, R129). -/
def Team.wakeLatch (t : Team) (lk : Nat) (old : Bool) (l : Latch) : Team :=
  { t with groups := t.groups.map fun g => { g with threads := g.threads.map fun th => th.fromLatch lk old l } }

/-- An operation performed on a latch, with the completion rule and the release of waiters (R125, R126). DESIGN CHOICE: a
group that waits on a latch which another group invalidates goes on waiting, since neither PH nor F changes (log 67). -/
def Team.onLatch (t : Team) (lk : Nat) (f : Latch → Latch) : Team :=
  let l := (f (t.latch lk)).settle t.record.hinged
  let t' := { t with latches := t.latches.set lk l }
  if l.ph ≠ (t.latch lk).ph ∨ l.f ≠ (t.latch lk).f then t'.wakeLatch lk (t.latch lk).ph l else t'

/-- A minor of the team's own instructions on a latch. -/
def State.ownLatch (s : State) (uid lk : Nat) (f : Latch → Latch) : State := s.mapTeam uid fun t => t.onLatch lk f

/-- An operation that reaches a latch from an engine or another team: a team that is gone, or a latch with V = 0, takes
nothing (R127, R128); nor does the latch of a saved team, whose image already stands in memory (log 67). `far` marks
what counts toward the phase from outside the core (R83). -/
def State.reachLatch (s : State) (x : LatchTarget) (f : Latch → Latch) : State :=
  s.mapTeam x.uid fun t =>
    if (t.latch x.lk).v then t.onLatch x.lk fun l => f { l with remote := l.remote || x.far } else t

/-! ## References (R127) -/

/-- The checks of a reference that give ILLEGAL. -/
def refIllegal (w : Word) : Bool :=
  w.extractLsb' 4 13 != 0 || (w.extractLsb' 30 2 == 0 && w.extractLsb' 17 13 != 0)

/-- The team a reference of this layout names, by its FORM, CORE and PLACE (R127, R179). -/
def State.refTeam (s : State) (t : Team) (w : Word) : Option Team :=
  match (w.extractLsb' 30 2).toNat with
  | 0 => some t
  | 1 => (s.teamAt t.cl (w.extractLsb' 22 8).toNat (w.extractLsb' 17 5).toNat).filter fun x => x.launch == t.launch
  | _ => none

/-- The latch a reference names; none for SP_RANGE (R127). -/
def State.latchRef (s : State) (t : Team) (w : Word) : Option LatchTarget :=
  (s.refTeam t w).map fun x =>
    { uid := x.uid, lk := (w.extractLsb' 0 4).toNat, far := w.extractLsb' 30 2 != 0 }

end Sys2Proof.Machine
end

