-- ==== Sys2Proof/Machine/Queues.lean ====
section
/-! DEFINITION. Queue registers (R141 to R143): bindings, words, and the words on their way between teams. -/

namespace Sys2Proof.Machine

open Sys2Proof

/-- Capacity of a queue register (R141, R144). -/
def queueWords : Nat := 64

/-- A queue bound to NULL (R29). -/
def Queue.null : Queue := { bind := 0, target := 0, words := [] }

/-- KIND of a binding (R142). -/
def Queue.kind (q : Queue) : Nat := (q.bind.extractLsb' 28 4).toNat
/-- CH of a binding (R142). -/
def Queue.channel (q : Queue) : Nat := (q.bind.extractLsb' 0 4).toNat

/-- A queue of a group. -/
def Group.queue (g : Group) (q : Nat) : Queue := g.queues.getD q Queue.null

/-- The groups of a wait on a queue look again (R143, R324). -/
def Group.wakeQueue (g : Group) (q : Nat) : Group :=
  g.wake fun w =>
    match w with
    | .qpush k => k == q
    | .qpop k => k == q
    | _ => false

/-- A queue changed, its waiters looking again. -/
def Group.setQueue (g : Group) (q : Nat) (x : Queue) : Group := ({ g with queues := g.queues.set q x }).wakeQueue q

/-- A queue of a group changed. -/
def State.setQueue (s : State) (uid gid q : Nat) (x : Queue) : State := s.mapGroup uid gid fun g => g.setQueue q x

/-- The queue of a group bound to a kind. -/
def Group.boundTo (g : Group) (kind : Nat) : Option Nat :=
  (List.range 8).find? fun k => (g.queue k).kind == kind

/-- The check of a port descriptor for ILLEGAL (R142). -/
def portIllegal (w : Word) : Bool :=
  let kind := (w.extractLsb' 28 4).toNat
  6 ≤ kind || w.extractLsb' 4 11 != 0 || (kind != 5 && w.extractLsb' 15 13 != 0)
    || (kind != 4 && kind != 5 && w.extractLsb' 0 4 != 0)

/-- The placement a PEER out descriptor names: a team of the launch at a place of the cluster (R127, R142). -/
def State.portTarget (s : State) (t : Team) (w : Word) : Option Team :=
  (s.teamAt t.cl (w.extractLsb' 20 8).toNat (w.extractLsb' 15 5).toNat).filter fun x => x.launch == t.launch

/-- Some queue of a team holds this in port (R142). -/
def Team.portHeld (t : Team) (w : Word) : Bool := t.groups.any fun g => g.queues.any fun q => q.bind == w

/-- A binding that R142 refuses with QUEUE, beside a PEER out target. -/
def bindRefused (t : Team) (g : Group) (q : Nat) (w : Word) : Bool :=
  let kind := (w.extractLsb' 28 4).toNat
  (g.queue q).kind != 0 || ((kind == 1 || kind == 4) && t.portHeld w) || ((kind == 2 || kind == 3) && (g.boundTo kind).isSome)

/-- Words appended to a queue (R143). -/
def Queue.push (q : Queue) (l : List (Word × Bool)) : Queue := { q with words := q.words ++ l }

/-- The push order of the first word of a queue. -/
def Queue.stamp (q : Queue) : Nat := q.stamps.headD 0

/-- No word that waits in another queue, of a resident or a saved team, was pushed earlier to the same PEER channel (R143). -/
def State.peerFirst (s : State) (src : Queue) : Bool :=
  (s.teams ++ s.saved.map (·.1)).all fun t => t.groups.all fun g => g.queues.all fun q =>
    q.kind != 5 || q.target != src.target || q.channel != src.channel || q.words.isEmpty || decide (src.stamp ≤ q.stamp)

/-- The group and queue of a team that hold the in port of a channel. -/
def Team.inPort (t : Team) (ch : Nat) : Option (Nat × Nat) :=
  ((List.range t.groups.length).flatMap fun k => (List.range 8).map fun q => (k, q)).find? fun x =>
    match t.groups[x.1]? with
    | some g => (g.queue x.2).kind == 4 && (g.queue x.2).channel == ch
    | none => false

/-- The first word of a PEER out queue reaches its target (R143), in push order among all queues of its channel: it is
dropped when the target has exited, it waits while the target is saved (log 67), the channel is unbound or its queue
full. -/
def State.peerWord (s : State) (uid gid q : Nat) : State :=
  match s.team? uid with
  | none => s
  | some t =>
    match t.groups[gid]? with
    | none => s
    | some g =>
      let src := g.queue q
      match src.words with
      | [] => s
      | (w, _) :: rest =>
        if src.kind ≠ 5 ∨ !s.peerFirst src ∨ s.saved.any fun x => x.1.uid == src.target then s
        else
          let taken := s.setQueue uid gid q { src with words := rest, stamps := src.stamps.tail }
          match s.team? src.target with
          | none => taken
          | some d =>
            match d.inPort src.channel with
            | none => s
            | some (k, n) =>
              match taken.group? d.uid k with
              | none => s
              | some h =>
                let dst := h.queue n
                if queueWords ≤ dst.words.length ∨ (d.coreOf k ≠ t.coreOf gid ∧ !s.netUp t.cl) then s
                else taken.setQueue d.uid k n (dst.push [(w, d.coreOf k != t.coreOf gid)])

/-- Words put together into the queue of a group bound to a kind; none when there is no room (R141, R183). -/
def State.pushPort (s : State) (uid gid kind : Nat) (l : List Word) : Option State :=
  match s.group? uid gid with
  | none => some s
  | some g =>
    match g.boundTo kind with
    | none => none
    | some q =>
      let x := g.queue q
      if queueWords < x.words.length + l.length then none
      else some (s.setQueue uid gid q (x.push (l.map fun w => (w, false))))

end Sys2Proof.Machine
end

