-- ==== Sys2Proof/Machine/Commands.lean ====
section
/-! DEFINITION. Engine commands (R92, R131, R133, R312 to R314): issue, counters, retirement, faults, and the accesses an
engine makes. -/

namespace Sys2Proof.Machine

open Sys2Proof

/-! ## Issue -/

/-- Commands of a group outstanding in a class, oldest first (R231, R314). -/
def State.classOps (s : State) (uid gid cls : Nat) : List EngOp :=
  s.ops.filter fun o => o.uid == uid && o.gid == gid && o.cls == cls

/-- A counter (R231). -/
def State.counter (s : State) (uid gid cls : Nat) : Nat := (s.classOps uid gid cls).length

/-- An engine command. -/
def State.op? (s : State) (oid : Nat) : Option EngOp := s.ops.find? fun o => o.id == oid

/-- The subset hypothesis (R147). -/
def Issue.subsetHyp (i : Issue) : Word := i.hypOf (i.c.active.headD 0)

/-- A command as issued: its counter class, latch and body, with what it samples at issue (R105, R147, R312), and the
pages that the driver has failed for its word (R419). -/
def Issue.op (i : Issue) (s : State) (cls : Nat) (lat : Option LatchTarget) (cnt : Bool) (stage : Stage) (body : OpBody) :
    EngOp :=
  { id := s.nextId, uid := i.c.uid, gid := i.c.gid, cls := cls, seq := s.nextId, slot := i.t.slot, cl := i.t.cl,
    core := i.t.coreOf i.c.gid, threads := i.c.active, hyp := i.subsetHyp, round := i.g.round, lat := lat, cnt := cnt,
    arrived := false, stage := stage, flags := 0, fault := none, stop := 0, held := none, parked := false,
    failPages := if i.g.parkPc = i.c.setPc then i.g.failed else [], wrote := 0, saved := false, dropped := false, shots := [], place := i.t.place, body := body }

/-- A command put on its counter. -/
def State.addOp (s : State) (o : EngOp) : State :=
  { s with ops := s.ops ++ [o], nextId := s.nextId + 1 }

/-- The issue of a command; a counter at 255 stalls it (R314), and so does an earlier acquire or an earlier command whose
handles are not read (R58, R72). -/
def command (i : Issue) (s : State) (cls : Nat) (lat : Option LatchTarget) (cnt : Bool) (stage : Stage) (body : OpBody) :
    Done :=
  if 255 ≤ s.counter i.c.uid i.c.gid cls ∨ s.acquiring i then retry s i else nothing (s.addOp (i.op s cls lat cnt stage body))

/-! ## Progress -/

/-- Bytes delivered are counted on the command's latch (R131). -/
def State.countBytes (s : State) (o : EngOp) (n : Nat) : State :=
  match o.lat with
  | some x => s.reachLatch x fun l => l.addBytes (-(n : Int))
  | none => s

/-- Bytes delivered in parts of 16, each counted as it lands (R131). -/
def State.countParts (s : State) (o : EngOp) (n : Nat) : State :=
  (List.range (n / 16)).foldl (fun s _ => s.countBytes o 16) s

/-- A command has done all its work: a counted one arrives (R131), unless parts of it were dropped with an exited place,
which never count (R316). -/
def State.endOp (s : State) (oid : Nat) : State :=
  match s.op? oid with
  | none => s
  | some o =>
    if o.stage = .finished then s
    else
      let s := s.mapOp oid fun o => { o with stage := .finished, parked := false, arrived := true }
      match o.lat with
      | some x => if o.cnt ∧ !o.dropped then s.reachLatch x Latch.arrive else s
      | none => s

/-- A command stops with a fault word: its latch takes it, or it is kept for a report point (R133, R323). -/
def State.failOp (s : State) (oid : Nat) (w : Word) : State :=
  match s.op? oid with
  | none => s
  | some o =>
    if o.stage = .finished then s
    else
      let s := s.mapOp oid fun o =>
        { o with stage := .finished, parked := false, stop := 2, fault := if o.lat.isNone then some w else none }
      match o.lat with
      | some x => s.reachLatch x fun l => l.faulted w
      | none => s

/-- The body of a command changed. -/
def State.setBody (s : State) (oid : Nat) (b : OpBody) : State := s.mapOp oid fun o => { o with body := b }

/-- Flags gathered for the retirement (R45). -/
def State.opFlags (s : State) (oid : Nat) (fl : Word) : State := s.mapOp oid fun o => { o with flags := o.flags ||| fl }

/-- The event a command leaves for a report point (R323, R447). -/
def EngOp.event (o : EngOp) : List EngEvent :=
  match o.fault, o.held with
  | some w, _ => [{ cls := o.cls, seq := o.seq, pivot := false, datum := w }]
  | none, some j => [{ cls := o.cls, seq := o.seq, pivot := true, datum := BitVec.ofNat 32 j }]
  | none, none => []

/-- The groups that wait on a counter look again (R323). -/
def Group.wakeCounter (g : Group) (cls : Nat) : Group :=
  g.wake fun w =>
    match w with
    | .waitc c => c == cls
    | _ => false

/-- What a retired command leaves in its group: flags, the horizon, an event, the progress of a loop (R45, R92, R174,
R323). -/
def Group.retired (g : Group) (o : EngOp) : Group :=
  let g := g.orFlags o.threads o.flags
  let g := { g with fhz := max g.fhz o.wrote, events := g.events ++ o.event }
  let g := match o.body with
    | .mloop l => if o.stop = 0 then g else { g with mSteps := l.applied, mCause := o.stop }
    | _ => g
  g.wakeCounter o.cls

/-- A command retires on its counter, in issue order within its class (R92, R314). A counted one of no bytes arrives
now (R316). -/
def State.retireOp (s : State) (oid : Nat) : State :=
  match s.op? oid with
  | none => s
  | some o =>
    if o.stage ≠ .finished ∨ o.saved ∨ ((s.classOps o.uid o.gid o.cls).head?.map (·.id)) ≠ some oid then s
    else
      let s := match o.lat with
        | some x => if o.cnt ∧ !o.arrived ∧ o.stop = 0 then s.reachLatch x Latch.arrive else s
        | none => s
      { s.mapGroup o.uid o.gid fun g => g.retired o with ops := s.ops.filter fun x => x.id != oid }

/-! ## Engine accesses -/

/-- A fault word for an address (R129). -/
def faultWord (kind va : Nat) : Word := BitVec.ofNat 32 (kind * 2 ^ 24 + va / 2 ^ 12 % 2 ^ 24)
/-- The fault word of a handle check (R129). -/
def handleFault (detail : Nat) : Word := BitVec.ofNat 32 (3 * 2 ^ 24 + detail)
/-- The fault word of an uncorrectable error (R129). -/
def eccFault : Word := 0x04000000

/-- A translation for an engine: an address, a fault that waits for the driver, or a fault word. -/
inductive EngXl where
  | ok (pa bits : Nat) (e : TlbEntry)
  | wait (kind level : Nat)
  | bad (w : Word)
  deriving DecidableEq, Repr

/-- The translation of an engine access (R129, R133, R316, R419). -/
def State.engXlate (s : State) (o : EngOp) (va : Nat) (acc : AccessKind) : EngXl :=
  if 2 ^ 48 ≤ va then .bad (faultWord 1 va)
  else match (o.failPages.find? fun x => x.1 == va / 4096).map (·.2) with
  | some kind => .bad (faultWord (if kind = kPerm then 2 else 1) va)
  | none =>
    match s.translate (s.slot o.slot) va acc with
    | .untracked => .bad (faultWord 2 va)
    | .bad kind level => .wait kind level
    | .ok pa bits e =>
      if acc = .write ∧ o.hyp ≠ 0 ∧ (isHost pa ∨ bits.testBit 5) then .bad (faultWord 2 va) else .ok pa bits e

/-- The source word of a command's faults (R418). -/
def State.opSource (s : State) (o : EngOp) : Nat × Nat × Nat := (o.cl, ((s.team? o.uid).map (·.place)).getD o.place, o.core)

/-- A command held on a fault (R133, R418). -/
def State.parkOp (s : State) (o : EngOp) (va kind level : Nat) (acc : AccessKind) : State :=
  (s.raiseFault o.slot va kind (accBits acc true (o.hyp != 0 && o.speculative)) level (s.opSource o) (.op o.id)).mapOp o.id
    fun o => { o with parked := true }

/-- A command that could not translate: held or stopped. -/
def State.blockOp (s : State) (o : EngOp) (va : Nat) (acc : AccessKind) (x : EngXl) : State :=
  match x with
  | .wait kind level => s.parkOp o va kind level acc
  | .bad w => s.failOp o.id w
  | .ok _ _ e => s.tlbFill e

/-- The first address of a list that does not translate, with what to do; none when all do. -/
def State.engFirst (s : State) (o : EngOp) (acc : AccessKind) (vas : List Nat) : Option (Nat × EngXl) :=
  vas.findSome? fun va =>
    match s.engXlate o va acc with
    | .ok _ _ _ => none
    | x => some (va, x)

/-- The physical address and the entry bits of a translated address. -/
def State.engPa (s : State) (o : EngOp) (va : Nat) (acc : AccessKind) : Nat × Nat :=
  match s.engXlate o va acc with
  | .ok pa bits _ => (pa, bits)
  | _ => (0, 0)

/-- The TLB entries of translated addresses are kept (R414). -/
def State.engFill (s : State) (o : EngOp) (acc : AccessKind) (vas : List Nat) : State :=
  vas.foldl (fun s va =>
    match s.engXlate o va acc with
    | .ok _ _ e => s.tlbFill e
    | _ => s) s

/-- Two targets share a byte. -/
def Target.meets (a : Target) (n : Nat) (b : Target) (m : Nat) : Bool :=
  match a, b with
  | .mem p, .mem q => decide (p < q + m) && decide (q < p + n)
  | .sp u x, .sp v y => u == v && decide (x < y + m) && decide (y < x + n)
  | _, _ => false

/-- The accesses that the group issued before a command, and that touch its bytes, are performed first (R92, R319). -/
def State.settleOp (s : State) (o : EngOp) (t : Target) (n : Nat) : State :=
  (s.flights.filter fun f =>
    f.uid == o.uid && f.gid == o.gid && decide (f.id < o.id) && !f.done && f.tgt.meets f.size t n).foldl State.perform s

/-- The hypothesis that an engine access of a page runs under (R148, R162). -/
def EngOp.tag (o : EngOp) (pa bits : Nat) : Word := tagOf o.hyp pa bits

/-- A copy command, which reads whole units as snapshots (R91). -/
def EngOp.copies (o : EngOp) : Bool :=
  match o.body with
  | .copy _ _ _ _ => true
  | .tile _ _ => true
  | _ => false

/-- The bytes that an engine access of `n` bytes concerns: a copy reads unit by unit (R91). -/
def EngOp.range (o : EngOp) (acc : AccessKind) (pa n : Nat) : Nat × Nat :=
  if o.copies ∧ acc = .read then (pa / 128 * 128, (pa + n + 127) / 128 * 128 - pa / 128 * 128) else (pa, n)

/-- The bytes that an engine finds in global memory: its view, or the home slices with what its core has buffered (R92,
R94, R162). -/
def State.engView (s : State) (o : EngOp) (pa bits n : Nat) : State × List Byte :=
  if o.tag pa bits ≠ 0 then
    let s := s.drainOverlap o.cl o.core o.uid o.gid pa n
    (s, s.viewOf o.slot o.hyp pa n)
  else
    let r := s.sliceRead pa n
    let sb := (r.1.core o.cl o.core).sb
    (r.1, r.2.mapIdx fun k b => (sbByte sb (pa + k)).getD b)

/-- A part of a unit as a copy reads it: its first read of the unit notes all of it, and the later ones take what was noted
when the unit held a whole image then or holds one now, so that the copy shows no part of a merge (R91). -/
def State.shotRead (s : State) (o : EngOp) (va pa bits n : Nat) : State × List Byte :=
  let image := fun (s : State) => if o.tag pa bits = 0 then s.accUnits.contains (pa / 128) else s.imageUnit o.slot o.hyp (pa / 128)
  match (s.op? o.id).bind fun x => x.shots.find? fun y => y.unit == va / 128 with
  | some x => if x.imaged ∨ image s then (s, (x.bytes.drop (pa % 128)).take n) else s.engView o pa bits n
  | none =>
    let r := s.engView o (pa / 128 * 128) bits 128
    (r.1.mapOp o.id fun o => { o with shots := o.shots ++ [{ unit := va / 128, imaged := image s, bytes := r.2 }] },
      (r.2.drop (pa % 128)).take n)

/-- An engine read of global memory (R91, R92, R94, R162), after what its group issued before it. -/
def State.engRead (s : State) (o : EngOp) (va pa bits n : Nat) : State × List Byte :=
  let x := o.range .read pa n
  let s := s.settleOp o (.mem x.1) x.2
  if o.copies ∧ pa % 128 + n ≤ 128 then s.shotRead o va pa bits n else s.engView o pa bits n

/-- An engine access waits: a tagged one for the acknowledgement of buffered stores of its group that it has drained (R94);
an untagged read for a confirm into the root that holds its bytes, and any access for a load of its group that must be
performed before it and waits for such a confirm (R92, R159, R364). -/
def State.engWaits (s : State) (o : EngOp) (acc : AccessKind) (pa bits n : Nat) : Bool :=
  let x := o.range acc pa n
  (if o.tag pa bits = 0 then acc == .read && s.publishing x.1 x.2 else s.ackPending o.uid o.gid x.1 x.2)
    || s.flights.any fun f =>
      f.uid == o.uid && f.gid == o.gid && decide (f.id < o.id) && !f.done && f.tgt.meets f.size (.mem x.1) x.2 && s.readHeld f

/-- What tagged accesses of an engine at some addresses have drained before them, each of `n` bytes (R94). -/
def State.engDrain (s : State) (o : EngOp) (acc : AccessKind) (n : Nat) (vas : List Nat) : State :=
  vas.foldl (fun s va =>
    match s.engXlate o va acc with
    | .ok pa bits _ =>
      let x := o.range acc pa n
      if o.tag pa bits = 0 then s else s.drainOverlap o.cl o.core o.uid o.gid x.1 x.2
    | _ => s) s

/-- One of them must wait. -/
def State.engHeld (s : State) (o : EngOp) (acc : AccessKind) (n : Nat) (vas : List Nat) : Bool :=
  vas.any fun va =>
    match s.engXlate o va acc with
    | .ok pa bits _ => s.engWaits o acc pa bits n
    | _ => false

/-- The stores on their way whose bytes an L1 copy of the core has taken are performed before an engine writes over them
(R81). -/
def State.settleShown (s : State) (cl core pa n : Nat) : State :=
  (s.flights.filter fun f => f.seen && !f.done && f.cl == cl && f.l1At == s.l1Core cl core pa
    && f.tgt.meets f.size (.mem pa) n).foldl State.perform s

/-- An engine write of global memory, performed at its home slices (R74, R92, R162). A tagged write is performed now
(R94); one that finds no room refutes its hypothesis, which stops the command (R161). -/
def State.engWrite (s : State) (o : EngOp) (pa bits : Nat) (bytes : List Byte) : State :=
  let s := (s.settleOp o (.mem pa) bytes.length).drainOverlap o.cl o.core o.uid o.gid pa bytes.length
  if o.tag pa bits ≠ 0 then
    let r := s.tagWrite o.slot o.hyp pa bytes
    if r.2 then r.1.mapOp o.id fun o => { o with wrote := max o.wrote s.now } else r.1.overflow o.slot o.hyp
  else
    let r := (((s.settleShown o.cl o.core pa bytes.length).l1Store o.cl o.core pa bytes).gainSectors (bits.testBit 4) pa bytes.length).commit pa bytes
    r.1.mapOp o.id fun o => { o with wrote := max o.wrote r.2 }

/-- The group's earlier accesses to bytes `k` to `k + n` of a scratchpad range are performed, place by place (R319). -/
def State.settleRange (s : State) (o : EngOp) (l : List Mark) (k n : Nat) : State :=
  l.foldl (fun s m =>
    if m.start < k + n then s.settleOp o (.sp m.uid (m.off + (k - m.start))) (k + n - max k m.start) else s) s

/-- An engine read of scratchpad bytes of a range (R85, R319). -/
def State.engSpRead (s : State) (o : EngOp) (l : List Mark) (k n : Nat) : State × List Byte :=
  let s := s.settleRange o l k n
  (s, s.spReadRange l k n)

/-- An engine write of scratchpad bytes of a range. -/
def State.engSpWrite (s : State) (o : EngOp) (l : List Mark) (k : Nat) (bytes : List Byte) : State :=
  (s.settleRange o l k bytes.length).spWriteRange l k bytes

/-- The place that holds a byte of a range still holds its team (R53). -/
def State.spAlive (s : State) (l : List Mark) (k : Nat) : Bool :=
  match markOf l k with
  | some (uid, _) => (s.team? uid).isSome
  | none => false

/-- A piece of a range lies with another team, which is reached over the cluster network, and that is DOWN (R7, R437, log
30). -/
def State.cutOff (s : State) (o : EngOp) (l : List Mark) : Bool := !s.netUp o.cl && l.any fun m => m.uid != o.uid

/-- A command at work: not held, not saved. -/
def EngOp.working (o : EngOp) : Bool := o.stage == .running && !o.parked && !o.saved

end Sys2Proof.Machine
end

