-- ==== Sys2Proof/Machine/Tiles.lean ====
section
/-! DEFINITION. Tile handles (R55 to R58): their fields, checks and element addresses, and the reads an engine makes
before it works (R58, R133). -/

namespace Sys2Proof.Machine

open Sys2Proof

/-- Element size of a format code (R56). -/
def fmtSize (f : Nat) : Option Nat :=
  if f = 1 ∨ f = 9 ∨ f = 10 ∨ f = 11 ∨ f = 12 then some 1
  else if f = 2 ∨ f = 5 ∨ f = 6 then some 2
  else if f = 3 ∨ f = 7 then some 4
  else if f = 4 ∨ f = 8 then some 8
  else none

/-- A field of `n` bytes at offset `k`. -/
def fieldAt (l : List Byte) (k n : Nat) : Nat := leNat ((l.drop k).take n)

/-- The fields of a handle (R55). -/
def Handle.parse (l : List Byte) : Handle :=
  { base := fieldAt l 0 8,
    ext := [fieldAt l 8 4, fieldAt l 12 4, fieldAt l 16 4, fieldAt l 20 4],
    stride := [asSigned 8 (fieldAt l 24 8), asSigned 8 (fieldAt l 32 8), asSigned 8 (fieldAt l 40 8)],
    fmt := fieldAt l 48 1, flags := fieldAt l 49 1, ndesc := BitVec.ofNat 8 (fieldAt l 50 1),
    box := (List.range 4).map fun k => if fieldAt l (52 + k) 1 = 0 then 256 else fieldAt l (52 + k) 1,
    btab := fieldAt l 56 8 }

/-- Element size of a handle (R56). -/
def Handle.es (h : Handle) : Nat := (fmtSize h.fmt).getD 1

/-- Box extent of a dimension. -/
def Handle.boxAt (h : Handle) (d : Nat) : Nat := h.box.getD d 1

/-- The handle has a block table on dimension 3. -/
def Handle.blocked (h : Handle) : Bool := h.flags % 2 == 1

/-- The first faulty field of a handle, by its byte offset, in the order of R58. -/
def handleCheck (l : List Byte) (cpt : Bool) : Option Nat :=
  let h := Handle.parse l
  let bad := fun (k : Nat) (b : Bool) => if b then some k else none
  let ext := fun (d : Nat) => h.ext.getD d 0
  let str := fun (d : Nat) => h.stride.getD d 0
  [bad 48 (fmtSize h.fmt).isNone,
   bad 0 (h.blocked && h.base != 0),
   bad 8 (ext 0 == 0), bad 12 (ext 1 == 0), bad 16 (ext 2 == 0), bad 20 (ext 3 == 0),
   bad 24 (str 0 % h.es != 0), bad 32 (str 1 % h.es != 0), bad 40 (str 2 % h.es != 0 || (h.blocked && str 2 != 0)),
   bad 49 (h.flags / 2 != 0),
   bad 50 (if h.fmt = 0x0B then (N8.ofByte h.ndesc.toNat).isNone else h.ndesc != 0),
   bad 51 (fieldAt l 51 1 != 0),
   bad 52 (cpt && decide (458752 < h.boxAt 0 * h.boxAt 1 * h.boxAt 2 * h.boxAt 3 * h.es)),
   bad 56 (h.btab % 8 != 0 || (!h.blocked && h.btab != 0))].findSome? id

/-- Coordinates of an element of a box (R57). -/
def coords (origin : List Int) (idx : List Nat) : List Int := List.zipWith (fun (o : Int) (k : Nat) => o + (k : Int)) origin idx

/-- An element is in bounds (R57). -/
def Handle.inBounds (h : Handle) (x : List Int) : Bool :=
  (List.range 4).all fun d => decide (0 ≤ x.getD d 0) && decide (x.getD d 0 < (h.ext.getD d 0 : Int))

/-- The address of an element, with the block base of its table entry (R57). -/
def Handle.addr (h : Handle) (blk : Nat) (x : List Int) : Nat :=
  let at' := fun d => x.getD d 0
  let st := fun d => h.stride.getD d 0
  let start : Int := if h.blocked then blk else h.base
  let sum := start + at' 0 * h.es + at' 1 * st 0 + at' 2 * st 1 + (if h.blocked then 0 else at' 3 * st 2)
  (sum % 2 ^ 64).toNat

/-- The element address fails R57. -/
def Handle.badAddr (h : Handle) (a : Nat) : Bool := decide (2 ^ 48 ≤ a) || a % h.es != 0

/-! ## Engine reads -/

/-- A read of an engine at one page: its bytes, or the state in which the command is held or has stopped (R133, R439). -/
def State.engLoad (s : State) (o : EngOp) (va n : Nat) : Except State (State × List Byte) :=
  match s.engXlate o va .read with
  | .ok pa bits e =>
    let s := s.engDrain o .read n [va]
    if s.engWaits o .read pa bits n then .error s
    else if s.isPoisoned pa n then .error (s.failOp o.id eccFault)
    else .ok ((s.tlbFill e).engRead o va pa bits n)
  | x => .error (s.blockOp o va .read x)

/-- Several reads of an engine, each of `n` bytes. -/
def State.engLoads (s : State) (o : EngOp) (n : Nat) : List Nat → Except State (State × List (List Byte))
  | [] => .ok (s, [])
  | va :: rest =>
    match s.engLoad o va n with
    | .error s => .error s
    | .ok (s, b) =>
      match s.engLoads o n rest with
      | .error s => .error s
      | .ok (s, l) => .ok (s, b :: l)

/-- The bytes of a handle as a command reads them at issue (R58); none when they cannot be read then. -/
def State.readHandle (s : State) (o : EngOp) (va : Nat) : State × Option (List Byte) :=
  match s.engLoad o va 64 with
  | .ok (s, b) => (s, some b)
  | .error _ => (s, none)

/-- The bytes of a handle: as read at issue, or read now, before any later access of the issuing group (R58). -/
def State.handleBytes (s : State) (o : EngOp) (va : Nat) (raw : Option (List Byte)) : Except State (State × List Byte) :=
  match raw with
  | some b => .ok (s, b)
  | none => s.engLoad o va 64

/-- The handle of a command checked (R58): `cpt` says whether its box counts, `own` is the command's own check. -/
def State.checkedHandle (s : State) (o : EngOp) (raw : List Byte) (cpt : Bool) (own : Handle → Bool) : Except State Handle :=
  match handleCheck raw cpt with
  | some d => .error (s.failOp o.id (handleFault d))
  | none => if own (Handle.parse raw) then .ok (Handle.parse raw) else .error (s.failOp o.id (handleFault 48))

/-- Some element of a box of these extents is in bounds in dimensions 0 to 2 (R57). -/
def Handle.someIn (h : Handle) (origin : List Int) (box : List Nat) : Bool :=
  (List.range 3).all fun d =>
    decide (origin.getD d 0 < (h.ext.getD d 0 : Int)) && decide (0 < origin.getD d 0 + (box.getD d 1 : Int))

/-- The block-table entries of `n` outermost coordinates from `x3` up, 0 for those that no element in bounds has: `used`
says whether one is in bounds in the other dimensions (R57). -/
def State.blockEntries (s : State) (o : EngOp) (h : Handle) (used : Bool) : Nat → Int → Except State (State × List Nat)
  | 0, _ => .ok (s, [])
  | n + 1, x3 =>
    let skip := !h.blocked || !used || decide (x3 < 0) || decide ((h.ext.getD 3 0 : Int) ≤ x3)
    match (if skip then .ok (s, []) else s.engLoad o ((h.btab + 8 * x3.toNat) % 2 ^ 64) 8) with
    | .error s => .error s
    | .ok (s, b) =>
      match s.blockEntries o h used n (x3 + 1) with
      | .error s => .error s
      | .ok (s, l) => .ok (s, leNat b :: l)

/-- An element of a box: its address, or none when it is out of bounds or in an unallocated block (R57). -/
def Handle.element (h : Handle) (blocks : List Nat) (origin : List Int) (idx : List Nat) : Option Nat :=
  let x := coords origin idx
  let blk := blocks.getD (idx.getD 3 0) 0
  if !h.inBounds x ∨ (h.blocked ∧ blk = 0) then none else some (h.addr blk x)

end Sys2Proof.Machine
end

