-- ==== Sys2Proof/Machine/Copies.lean ====
section
/-! DEFINITION. The copy engine (R132 to R134, R316 to R319) and bulk prefetch (R65, R309): the words `cp`, `cpt`, `cpo`
and `pfr`, the start of a command and its parts. -/

namespace Sys2Proof.Machine

open Sys2Proof

/-! ## Operands -/

/-- The scratchpad pieces of rows of `n` bytes, `pitch` apart (R50, R51, R317). -/
def State.spRows (s : State) (t : Team) (addr : Word) (pitch n : Nat) : Nat → Nat → Option (List Mark)
  | 0, _ => some []
  | rows + 1, r =>
    let o := addr.toNat % 2 ^ 30 + pitch * r
    if 2 ^ 30 ≤ o ∨ (addr.extractLsb' 30 2 = 1 ∧ 2 ^ 22 ≤ addr.toNat % 2 ^ 22 + pitch * r) then none
    else
      match s.spMarks t (addr + BitVec.ofNat 32 (pitch * r)) n with
      | none => none
      | some l => (s.spRows t addr pitch n rows (r + 1)).map fun rest => (l.map fun m => { m with start := m.start + pitch * r }) ++ rest

/-- The first of some checks that fails (R446). -/
def firstTrap (l : List (Bool × Nat × Word)) : Option (Nat × Word) := l.findSome? fun x => if x.1 then some x.2 else none

/-- A latch reference that the word reads, else none. -/
def refOf (lat : Bool) (w : Word) : Option Word := if lat then some w else none

/-- The ILLEGAL and the SP_RANGE check of a latch reference (R127, R446). -/
def State.refBad (s : State) (t : Team) (r : Option Word) : Bool :=
  match r with
  | some w => (s.latchRef t w).isNone
  | none => false

/-- The latch of a checked reference. -/
def State.refLatch (s : State) (t : Team) (r : Option Word) : Option LatchTarget := r.bind fun w => s.latchRef t w

/-- A word whose first failing check traps the subset, else goes on. -/
def checked (s : State) (l : List (Bool × Nat × Word)) (k : Done) : Done :=
  match firstTrap l with
  | some (c, d) => allTrap s c d
  | none => k

/-- Operand `n`, the latch reference gB, is read only when LAT = 1 (R316); its K mark frees it all the same. -/
def pickRef (n : Nat) (ctl : Issue → Word) (i : Issue) (l : List Opd) : List Opd :=
  if (ctl i).getLsbD 30 then l
  else l.mapIdx fun k o => if k = n then { o with rd := false } else o

/-- A literal latch reference at decode (R313, R316): it is judged then when the control word in register `n` is FULL and
has LAT = 1, since with LAT = 0 it is not read (log 63). -/
def litRef (n : Nat) (i : Issue) (x : Word) : Bool :=
  decide ((i.c.snap.g.getD n Reg.absent).st ≠ .full) || !(i.rd i.first n).getLsbD 30 || !refIllegal x

/-! ## cp and cpo (R316) -/

/-- Commands a core's copy queue holds (R132). -/
def State.copyQueue (s : State) (cl core : Nat) : List EngOp :=
  s.ops.filter fun o => o.cls == 0 && o.cl == cl && o.core == core && o.stage != .finished && !o.saved

/-- A copy command enters the queue of its core, which stalls it while full (R132). -/
def copyCommand (i : Issue) (s : State) (lat : Option LatchTarget) (cnt : Bool) (stage : Stage) (body : OpBody) : Done :=
  if 64 ≤ (s.copyQueue i.t.cl (i.t.coreOf i.c.gid)).length then retry s i else command i s 0 lat cnt stage body

/-- `cp` and `cpo` (R316). -/
def cpDone (out : Bool) (w : RR) (s : State) (i : Issue) : Done :=
  let t := i.first
  let va := i.rd2 t w.a.toNat
  let sp := i.rd t w.d.toNat
  let ctl := i.rd t (w.d.toNat + 1)
  let len := (ctl.extractLsb' 0 20).toNat
  let ref := refOf (ctl.getLsbD 30) (i.srcB w t)
  let marks := s.spMarks i.t sp len
  checked s
    [(ctl.extractLsb' 20 10 != 0 || (ctl.getLsbD 31 && !ctl.getLsbD 30) || len % 16 != 0 || (ref.map refIllegal).getD false,
      cIllegal, i.c.word),
     (va.extractLsb' 48 16 != 0, cXlate, va.extractLsb' 32 32), (marks.isNone, cSpRange, sp),
     (va.extractLsb' 0 4 != 0, cMisalign, va.extractLsb' 0 32), (sp.extractLsb' 0 4 != 0, cMisalign, sp),
     (s.refBad i.t ref, cSpRange, ref.getD 0)]
    (copyCommand i s (s.refLatch i.t ref) (ctl.getLsbD 31) (if len = 0 then .finished else .queued)
      (.copy out va (marks.getD []) (List.range (len / 16))))

/-! ## cpt (R317, R318) -/

/-- The global format that a conversion code asks for; none for any (R318). -/
def convFmt (c : Nat) : Option Nat :=
  if c = 0 then none else if c = 3 then some 5 else if c = 4 then some 6 else if c = 6 then some 0x0B else some 7

/-- Scratchpad element size of a conversion code for a global element size (R318). -/
def convSize (c es : Nat) : Nat := if c = 0 then es else if c ≤ 2 then 2 else if c = 5 then 1 else 4

/-- A conversion code fits a handle (R318). -/
def convFits (c : Nat) (h : Handle) : Bool :=
  match convFmt c with
  | none => true
  | some f => h.fmt == f

/-- PITCH in effect (R317). -/
def pitchOf (pitch row : Nat) : Nat := if pitch = 0 then (row + 15) / 16 * 16 else pitch

/-- Rows of a box. -/
def Handle.rows (h : Handle) : Nat := h.boxAt 1 * h.boxAt 2 * h.boxAt 3

/-- The scratchpad pieces of a box; none for SP_RANGE. -/
def State.boxMarks (s : State) (t : Team) (b : TileCmd) (h : Handle) : Option (List Mark) :=
  let row := h.boxAt 0 * convSize b.conv h.es
  s.spRows t b.sp (pitchOf b.pitch row) row h.rows 0

/-- The latch reference of a `cpt`, when CTL asks for one (R317). -/
def Issue.tileRef (i : Issue) (w : RR) : Option Word := refOf ((i.rd i.first (w.a.toNat + 7)).getLsbD 30) (i.srcB w i.first)

/-- The command that the operand block of a `cpt` describes (R317). -/
def Issue.tileCmd (i : Issue) (w : RR) : TileCmd :=
  let ctl := i.rd i.first (w.a.toNat + 7)
  { out := ctl.getLsbD 29, hva := i.rd2 i.first w.a.toNat, origin := (i.rdN i.first (w.a.toNat + 2) 4).map BitVec.toInt,
    sp := i.rd i.first (w.a.toNat + 6), conv := (ctl.extractLsb' 24 4).toNat, desc := ctl.extractLsb' 16 8,
    pitch := (ctl.extractLsb' 0 16).toNat, raw := none, handle := none, marks := [], blocks := [] }

/-- That command on its counter. -/
def State.tileOp (s : State) (i : Issue) (w : RR) : EngOp :=
  i.op s 0 (s.refLatch i.t (i.tileRef w)) ((i.rd i.first (w.a.toNat + 7)).getLsbD 31) .queued (.tile (i.tileCmd w) [])

/-- The address of a `cpt`'s handle can be read: its form and alignment pass (R317). -/
def Issue.tileAt (i : Issue) (w : RR) : Bool :=
  let hva := i.rd2 i.first w.a.toNat
  hva.extractLsb' 48 16 == 0 && hva.extractLsb' 0 6 == 0

/-- The fault for which a `cpt` waits at issue, since its own checks need the box of the handle: one that the driver has
not answered (R58, R313, R317, log 38). -/
def State.tileFault (s : State) (i : Issue) (w : RR) : Option Blocked :=
  let o := s.tileOp i w
  let va := (i.rd2 i.first w.a.toNat).toNat
  if !i.tileAt w then none
  else match s.engXlate o va .read with
    | .wait kind level => some { va := va, kind := kind, level := level, tagged := o.hyp != 0 }
    | _ => none

/-- The handle of a `cpt` read at issue, with what is performed before it (R58, R92). -/
def State.tileRaw (s : State) (i : Issue) (w : RR) : State × Option (List Byte) :=
  if i.tileAt w then s.readHandle (s.tileOp i w) (i.rd2 i.first w.a.toNat).toNat else (s, none)

/-- The same handle, when it is well formed and fits the conversion. -/
def tileBox (conv : Nat) (raw : Option (List Byte)) : Option Handle :=
  (raw.filter fun l => (handleCheck l true).isNone && convFits conv (Handle.parse l)).map Handle.parse

/-- The fields of the tile control word of a `cpt` and its latch reference that give ILLEGAL by themselves (R317). -/
def Issue.tileIllegal (i : Issue) (w : RR) : Bool :=
  let ctl := i.rd i.first (w.a.toNat + 7)
  let b := i.tileCmd w
  ctl.getLsbD 28 || (ctl.getLsbD 31 && !ctl.getLsbD 30) || decide (7 ≤ b.conv) || b.pitch % 16 != 0
    || (if b.conv = 5 then (N8.ofByte b.desc.toNat).isNone else b.desc != 0) || ((i.tileRef w).map refIllegal).getD false

/-- `cpt` with its handle read (R317): the checks in the order of R446, those of the box when the handle is well formed.
-/
def tileChecked (w : RR) (i : Issue) (x : State × Option (List Byte)) : Done :=
  let s := x.1
  let b := i.tileCmd w
  let ref := i.tileRef w
  let box := tileBox b.conv x.2
  let marks := box.map fun h => s.boxMarks i.t b h
  checked s
    [(i.tileIllegal w || box.any fun h => b.pitch != 0 && decide (b.pitch < h.boxAt 0 * convSize b.conv h.es), cIllegal, i.c.word),
     (b.hva.extractLsb' 48 16 != 0, cXlate, b.hva.extractLsb' 32 32),
     ((match marks with
        | some m => m.isNone
        | none => (s.spMarks i.t b.sp 1).isNone), cSpRange, b.sp),
     (b.hva.extractLsb' 0 6 != 0, cMisalign, b.hva.extractLsb' 0 32), (b.sp.extractLsb' 0 4 != 0, cMisalign, b.sp),
     (s.refBad i.t ref, cSpRange, ref.getD 0)]
    (copyCommand i s (s.refLatch i.t ref) ((i.rd i.first (w.a.toNat + 7)).getLsbD 31) .queued
      (.tile { b with raw := x.2, marks := (marks.getD none).getD [] } []))

/-- `cpt` (R317): after its checks that need no handle, it reads the handle at issue (R58). -/
def cptDone (w : RR) (s : State) (i : Issue) : Done :=
  if i.tileIllegal w then allTrap s cIllegal i.c.word
  else if s.acquiring i ∨ s.accessing i then retry s i
  else match s.tileFault i w with
    | some x => { st := s.park i .read true [x], hold := some .park }
    | none =>
      let va := [(i.rd2 i.first w.a.toNat).toNat]
      let y := if i.tileAt w then s.engDrain (s.tileOp i w) .read 64 va else s
      if i.tileAt w && y.engHeld (y.tileOp i w) .read 64 va then retry y i else tileChecked w i (y.tileRaw i w)

/-! ## Start of a command (R132) -/

/-- Where a row begins within an aligned 16-byte part of its destination: rows of scratchpad begin at one (R86, R317). -/
def TileCmd.skew (b : TileCmd) (h : Handle) (row : Nat) : Nat :=
  let i3 := row / (h.boxAt 1 * h.boxAt 2)
  if b.out then
    h.addr (b.blocks.getD i3 0) (coords b.origin [0, row % h.boxAt 1, row / h.boxAt 1 % h.boxAt 2, i3]) % 16
  else 0

/-- Element size of the destination (R317). -/
def TileCmd.dstSize (b : TileCmd) (h : Handle) : Nat := if b.out then h.es else convSize b.conv h.es

/-- Aligned 16-byte parts that a row of the destination may touch (R86, R131). -/
def TileCmd.rowParts (b : TileCmd) (h : Handle) : Nat := (h.boxAt 0 * b.dstSize h + 30) / 16

/-- Indices of the elements of a part, in dimension 0: those of its row that lie in its aligned 16 bytes (R86, R317). -/
def TileCmd.columns (b : TileCmd) (h : Handle) (p : Nat) : List Nat :=
  let q := p % b.rowParts h
  let skew := b.skew h (p / b.rowParts h)
  let lo := (16 * q - skew) / b.dstSize h
  (List.range (16 / b.dstSize h)).map (· + lo) |>.filter fun k => k < h.boxAt 0 && (skew + k * b.dstSize h) / 16 == q

/-- Indices of the elements of a part (R317). -/
def TileCmd.elements (b : TileCmd) (h : Handle) (p : Nat) : List (List Nat) :=
  let row := p / b.rowParts h
  (b.columns h p).map fun k => [k, row % h.boxAt 1, row / h.boxAt 1 % h.boxAt 2, row / (h.boxAt 1 * h.boxAt 2)]

/-- Every element of a box has an address that R57 allows. -/
def TileCmd.addressesOk (b : TileCmd) (h : Handle) (blocks : List Nat) : Bool :=
  (List.range (h.rows * b.rowParts h)).all fun p => (b.elements h p).all fun k =>
    match h.element blocks b.origin k with
    | some a => !h.badAddr a
    | none => true

/-- A `cpt` starts: its handle, its table entries and all its addresses are checked before a byte moves (R57, R58). -/
def State.startTile (s : State) (o : EngOp) (b : TileCmd) : State :=
  match s.handleBytes o b.hva.toNat b.raw with
  | .error s => s
  | .ok (s, raw) =>
    match s.checkedHandle o raw true (convFits b.conv) with
    | .error s => s
    | .ok h =>
      match s.blockEntries o h (h.someIn b.origin [h.boxAt 0, h.boxAt 1, h.boxAt 2]) (h.boxAt 3) (b.origin.getD 3 0) with
      | .error s => s
      | .ok (s, blocks) =>
        let b := { b with raw := some raw, handle := some h, blocks := blocks }
        if !b.addressesOk h blocks then s.failOp o.id (handleFault 0x40)
        else s.mapOp o.id fun o => { o with stage := .running, body := .tile b (List.range (h.rows * b.rowParts h)) }

/-- A copy command starts: the oldest of its core's queue, while fewer than 8 are in progress (R132). -/
def State.startCopy (s : State) (oid : Nat) : State :=
  match s.op? oid with
  | none => s
  | some o =>
    let q := s.copyQueue o.cl o.core
    if o.cls ≠ 0 ∨ o.stage ≠ .queued ∨ o.parked ∨ o.saved ∨ 8 ≤ (q.filter fun x => x.stage == .running).length
      ∨ ((q.find? fun x => x.stage == .queued && !x.parked).map (·.id)) ≠ some oid then s
    else
      match o.body with
      | .copy _ _ _ _ => s.mapOp oid fun o => { o with stage := .running }
      | .tile b _ => if b.handle.isSome then s.mapOp oid fun o => { o with stage := .running } else s.startTile o b
      | _ => s

/-! ## Parts (R316 to R319) -/

/-- A copy part is done: it counts, and the last one ends the command. -/
def State.partDone (s : State) (oid n : Nat) (left : List Nat) (body : OpBody) : State :=
  match s.op? oid with
  | none => s
  | some o =>
    if o.stage = .finished then s
    else
      let s := (s.setBody oid body).countBytes o n
      if left = [] then s.endOp oid else s

/-- A part whose place is gone is dropped: it does not count, and its command will not arrive (R53, R316). -/
def State.partLost (s : State) (oid : Nat) (left : List Nat) (body : OpBody) : State :=
  (s.mapOp oid fun o => { o with dropped := true }).partDone oid 0 left body

/-- A unit that has no part left to read is not kept any more (R91). -/
def State.dropShot (s : State) (oid u : Nat) (left : List Nat) : State :=
  if left.any fun a => a / 128 == u then s
  else s.mapOp oid fun o => { o with shots := o.shots.filter fun x => x.unit != u }

/-- One part of a `cp` or `cpo` (R316). -/
def State.copyPart (s : State) (o : EngOp) (out : Bool) (va : DWord) (sp : List Mark) (left : List Nat) (p : Nat) : State :=
  let rest := left.erase p
  let body := OpBody.copy out va sp rest
  let a := va.toNat + 16 * p
  if !s.spAlive sp (16 * p) then s.partLost o.id rest body
  else if out then
    let s := s.engDrain o .write 16 [a]
    if s.engHeld o .write 16 [a] then s
    else match s.engXlate o a .write with
    | .ok pa bits e =>
      let r := (s.tlbFill e).engSpRead o sp (16 * p) 16
      (r.1.engWrite o pa bits r.2).partDone o.id 16 rest body
    | x => s.blockOp o a .write x
  else
    match s.engLoad o a 16 with
    | .error s => s
    | .ok (s, data) => ((s.engSpWrite o sp (16 * p) data).dropShot o.id (a / 128) (rest.map fun q => va.toNat + 16 * q)).partDone o.id 16 rest body

/-- One element converted between the formats of CONV (R318): `toS` from global to scratchpad. -/
def convElem (conv : Nat) (desc ndesc : Byte) (toS : Bool) (round : Word) (b : List Byte) : List Byte × Word :=
  let x := leNat b
  let mode := modeOf round
  let out := fun (n : Nat) (r : Nat × Word) => (leBytes n r.1, r.2)
  let pair := fun (g sc : Fmt) (gn sn : Nat) =>
    if toS then out sn (sc.convert mode (satOf round) (g.read x)) else out gn (g.convert mode (satOf round) (sc.read x))
  let narrow := fun (d : Byte) (pack : Bool) =>
    match N8.ofByte d.toNat with
    | none => (b, 0)
    | some f => if pack then out 1 (f.convert mode (satOf round) (fp32.read x)) else out 4 (fp32.convert mode false (f.read x))
  if conv = 0 then (b, 0)
  else if conv = 1 then pair fp32 bf16 4 2
  else if conv = 2 then pair fp32 fp16 4 2
  else if conv = 3 then pair bf16 fp32 2 4
  else if conv = 4 then pair fp16 fp32 2 4
  else if conv = 5 then narrow desc toS
  else narrow ndesc !toS

/-- The scratchpad offset of an element within the range of its box (R317). -/
def TileCmd.offset (b : TileCmd) (h : Handle) (p k : Nat) : Nat :=
  let esS := convSize b.conv h.es
  pitchOf b.pitch (h.boxAt 0 * esS) * (p / b.rowParts h) + k * esS

/-- The columns of a part whose scratchpad place still holds its team (R53). -/
def State.outColumns (s : State) (b : TileCmd) (h : Handle) (p : Nat) : List Nat :=
  (b.columns h p).filter fun k => s.spAlive b.marks (b.offset h p k)

/-- Addresses of elements of the row that a part belongs to (R57). -/
def TileCmd.rowAddrs (b : TileCmd) (h : Handle) (p : Nat) (cols : List Nat) : List (Option Nat) :=
  let row := p / b.rowParts h
  cols.map fun k => h.element b.blocks b.origin [k, row % h.boxAt 1, row / h.boxAt 1 % h.boxAt 2, row / (h.boxAt 1 * h.boxAt 2)]

/-- The parts of `left` to be written with part `p`: rows that begin within an aligned 16-byte part of memory share it, and
it is written at once (R86, R93). Of parts that write the same element each is written by itself. -/
def partners (addrs : Nat → List Nat) (left : List Nat) (p : Nat) : List Nat :=
  left.foldl (fun ps q =>
    let mine := ps.flatMap addrs
    if !ps.contains q ∧ (addrs q).any (fun a => mine.any fun x => x / 16 == a / 16) ∧ !(addrs q).any mine.contains then ps ++ [q]
    else ps) [p]

/-- The elements of one part of a `cpt` read from scratchpad, converted and written (R317, R318). -/
def State.writeRow (s : State) (o : EngOp) (b : TileCmd) (h : Handle) (p : Nat) : State :=
  let cols := s.outColumns b h p
  let esS := convSize b.conv h.es
  let r := s.engSpRead o b.marks (b.offset h p (cols.headD 0)) (cols.length * esS)
  let vals := cols.map fun k => convElem b.conv b.desc h.ndesc false o.round ((r.2.drop ((k - cols.headD 0) * esS)).take esS)
  (((b.rowAddrs h p cols).zip vals).foldl (fun s x =>
    match x.1 with
    | some va => let y := s.engPa o va .write; s.engWrite o y.1 y.2 x.2.1
    | none => s) r.1).opFlags o.id (vals.foldl (fun f x => f ||| x.2) 0)

/-- One part of a `cpt` from scratchpad to global memory (R317): elements in a place whose team has exited are dropped
and do not count, and those without an address are dropped and count (R53, R57). -/
def State.tileOut (s : State) (o : EngOp) (b : TileCmd) (h : Handle) (left : List Nat) (p : Nat) : State :=
  let all := fun q => (b.rowAddrs h q (b.columns h q)).filterMap id
  let ps := if (all p).length * h.es = 16 then [p] else partners all left p
  let rest := left.filter fun q => !ps.contains q
  let addrs := ps.flatMap fun q => (b.rowAddrs h q (s.outColumns b h q)).filterMap id
  let n := (ps.map fun q => (s.outColumns b h q).length * h.es).sum
  let s := if ps.all fun q => s.outColumns b h q == b.columns h q then s else s.mapOp o.id fun o => { o with dropped := true }
  let s := s.engDrain o .write h.es addrs
  if s.engHeld o .write h.es addrs then s
  else match s.engFirst o .write addrs with
    | some (va, x) => s.blockOp o va .write x
    | none =>
      (ps.foldl (fun s q => s.writeRow o b h q) (s.engFill o .write addrs)).partDone o.id n rest (.tile b rest)

/-- One part of a `cpt` from global memory to scratchpad (R317): elements without an address are written as zero (R57). -/
def State.tileIn (s : State) (o : EngOp) (b : TileCmd) (h : Handle) (rest : List Nat) (p : Nat) : State :=
  let els := b.elements h p
  let off := b.offset h p ((b.columns h p).headD 0)
  let addrs := els.map fun k => h.element b.blocks b.origin k
  if els ≠ [] ∧ !s.spAlive b.marks off then s.partLost o.id rest (.tile b rest)
  else match s.engFirst o .read (addrs.filterMap id) with
    | some (va, x) => s.blockOp o va .read x
    | none =>
      match s.engLoads o h.es (addrs.filterMap id) with
      | .error s => s
      | .ok (s, data) =>
        let esS := convSize b.conv h.es
        let vals := data.map fun d => convElem b.conv b.desc h.ndesc true o.round d
        let cells := (addrs.foldl (fun (r : List Byte × List (List Byte)) a =>
          match a with
          | some _ => (r.1 ++ r.2.headD [], r.2.tail)
          | none => (r.1 ++ List.replicate esS 0, r.2)) ([], vals.map (·.1))).1
        ((s.engSpWrite o b.marks off cells).opFlags o.id (vals.foldl (fun f x => f ||| x.2) 0)).partDone o.id
          (els.length * esS) rest (.tile b rest)

/-- One part of a `cpt` (R317). -/
def State.tilePart (s : State) (o : EngOp) (b : TileCmd) (h : Handle) (left : List Nat) (p : Nat) : State :=
  if b.out then s.tileOut o b h left p else s.tileIn o b h (left.erase p) p

/-- One part of a command at work in the copy engine (R132). -/
def State.copyStep (s : State) (oid p : Nat) : State :=
  match s.op? oid with
  | none => s
  | some o =>
    if !o.working then s
    else
      match o.body with
      | .copy out va sp left => if left.contains p ∧ !s.cutOff o sp then s.copyPart o out va sp left p else s
      | .tile b left =>
        match b.handle with
        | some h => if left.contains p ∧ !s.cutOff o b.marks then s.tilePart o b h left p else s
        | none => s
      | _ => s

/-! ## pfr (R65, R309) -/

/-- Bytes of a range that lie in its `k`-th line. -/
def lineBytes (va len k : Nat) : Nat :=
  let lo := max va (256 * (va / 256 + k))
  min (va + len) (256 * (va / 256 + k) + 256) - lo

/-- Lines a range touches. -/
def lineCount (va len : Nat) : Nat := if len = 0 then 0 else (va + len - 1) / 256 + 1 - va / 256

/-- `pfr` (R309). -/
def pfrDone (w : RR) (s : State) (i : Issue) : Done :=
  let t := i.first
  let va := i.rd2 t w.a.toNat
  let len := (i.srcB w t).toNat
  let ref := refOf (w.d != 0) (i.rd t w.d.toNat)
  checked s
    [((ref.map refIllegal).getD false, cIllegal, i.c.word),
     (va.extractLsb' 48 16 != 0, cXlate, va.extractLsb' 32 32),
     (decide (2 ^ 48 < va.toNat + len), cXlate, va.extractLsb' 0 32),
     (s.refBad i.t ref, cSpRange, ref.getD 0)]
    (command i s 2 (s.refLatch i.t ref) false (if len = 0 then .finished else .running)
      (.prefetch va len (List.range (lineCount va.toNat len))))

/-- A line of a `pfr` becomes resident or is skipped (R65): no data changes, and its bytes count. -/
def State.lineResident (s : State) (oid line : Nat) : State :=
  match s.op? oid with
  | none => s
  | some o =>
    match o.body with
    | .prefetch va len left =>
      if !o.working ∨ !left.contains line then s
      else s.partDone oid (lineBytes va.toNat len line) (left.erase line) (.prefetch va len (left.erase line))
    | _ => s

/-- CP (R316): Copies bytes from global memory to scratchpad. -/
def execCp (w : RR) (s : State) : Host.Outcome State Fault Refusal :=
  issueWith (.rr 0x6A .one {} w) (litRef (w.d.toNat + 1)) (pickRef 2 fun i => i.rd i.first (w.d.toNat + 1))
    (cpDone false w) s

/-- CPT (R317): Copies a tile-handle box between global memory and scratchpad with conversion. -/
def execCpt (w : RR) (s : State) : Host.Outcome State Fault Refusal :=
  issueWith (.rr 0x6B .one { d := true } w) (litRef (w.a.toNat + 7)) (pickRef 1 fun i => i.rd i.first (w.a.toNat + 7))
    (cptDone w) s

/-- CPO (R316): Copies bytes from scratchpad to global memory. -/
def execCpo (w : RR) (s : State) : Host.Outcome State Fault Refusal :=
  issueWith (.rr 0x6C .one {} w) (litRef (w.d.toNat + 1)) (pickRef 2 fun i => i.rd i.first (w.d.toNat + 1))
    (cpDone true w) s

/-- PFR (R309): Prefetches a byte range into L2, counting on an optional latch. -/
def execPfr (w : RR) (s : State) : Host.Outcome State Fault Refusal :=
  issueWord (.rr 0x68 .one {} w) (pfrDone w) s

end Sys2Proof.Machine
end

