-- ==== Sys2Proof/Machine/Skeins.lean ====
section
/-! DEFINITION. Skeins (R135 to R140, R320, R321): declaration, enrolment, gathers at their anchors, fills. -/

namespace Sys2Proof.Machine

open Sys2Proof

/-! ## Skeins of a launch -/

/-- A launch of the device. -/
def State.launch? (s : State) (id : Nat) : Option Launch := s.launches.find? fun l => l.id == id

/-- A declared skein of a launch. -/
def State.skein? (s : State) (launch sk : Nat) : Option Skein := (s.launch? launch).bind fun l => l.skeins.find? fun k => k.sk == sk

/-- A skein changed. -/
def State.mapSkein (s : State) (launch sk : Nat) (f : Skein → Skein) : State :=
  s.mapLaunch launch fun l => { l with skeins := l.skeins.map fun k => if k.sk = sk then f k else k }

/-- `decl`: the status of R135. -/
def State.skeinDecl (s : State) (launch sk n tmo : Nat) : State × Word :=
  match s.skein? launch sk with
  | some k => (s, if k.n = n ∧ k.tmo = tmo then 0 else 1)
  | none =>
    (s.mapLaunch launch fun l =>
      { l with skeins := l.skeins ++ [{ sk := sk, n := n, tmo := tmo, members := [], timedOut := 0, late := 0, discarded := 0 }] }, 0)

/-- `join`: the status of R136. -/
def State.skeinJoin (s : State) (t : Team) (sk : Nat) : State × Word :=
  match s.skein? t.launch sk with
  | none => (s, 3)
  | some k =>
    if k.members.contains t.uid then (s, 1)
    else if k.n ≤ k.members.length then (s, 2)
    else ((s.mapSkein t.launch sk fun k => { k with members := k.members ++ [t.uid] }).mapTeam t.uid
      fun t => { t with skeins := t.skeins ++ [{ sk := sk, k := 0 }] }, 0)

/-- `leave`: the status of R321. -/
def State.skeinLeave (s : State) (t : Team) (sk : Nat) : State × Word :=
  match s.skein? t.launch sk with
  | none => (s, 3)
  | some k =>
    if !k.members.contains t.uid then (s, 1)
    else ((s.mapSkein t.launch sk fun k => { k with members := k.members.erase t.uid }).mapTeam t.uid
      fun t => { t with skeins := t.skeins.filter fun e => e.sk != sk }, 0)

/-- The pair of R140; an undeclared skein has counted nothing. -/
def State.skeinStat (s : State) (launch sk : Nat) : DWord :=
  match s.skein? launch sk with
  | none => 0
  | some k =>
    let sat := fun (n : Nat) => min n 0xFFFF
    BitVec.ofNat 64 (sat k.late + 2 ^ 16 * sat k.timedOut + 2 ^ 32 * sat k.discarded + 2 ^ 48 * k.members.length)

/-- The checks of a skein word (R321), of a literal one at decode (R446). -/
def sknOk (m : Nat) (i : Issue) (x : Word) : Bool :=
  (m == 0 || x.extractLsb' 8 24 == 0) && decide ((x.extractLsb' 0 8).toNat < i.t.hdr.skeins)

/-- `skn` (R321). -/
def sknDone (m : Nat) (w : RM) (s : State) (i : Issue) : Done :=
  let x := i.srcA w i.first
  let sk := (x.extractLsb' 0 8).toNat
  if !sknOk m i x then allTrap s cIllegal i.c.word
  else if m = 3 then { nothing s with res := fun _ => pairOf w.d.toNat (s.skeinStat i.t.launch sk) }
  else
    let r :=
      if m = 0 then s.skeinDecl i.t.launch sk ((x.extractLsb' 8 8).toNat + 1) (x.extractLsb' 16 16).toNat
      else if m = 1 then s.skeinJoin i.t sk
      else s.skeinLeave i.t sk
    { nothing r.1 with res := fun _ => [(w.d.toNat, r.2)] }

/-! ## sld (R137, R320) -/

/-- `sld` (R320). -/
def sldDone (w : RR) (s : State) (i : Issue) : Done :=
  let t := i.first
  let va := i.rd2 t w.a.toNat
  let sp := i.rd t w.d.toNat
  let ctl := i.rd t (w.d.toNat + 1)
  let sk := (ctl.extractLsb' 16 8).toNat
  let len := (ctl.extractLsb' 0 16).toNat
  let ref := refOf (ctl.getLsbD 30) (i.srcB w t)
  let enrol := i.t.skeins.find? fun e => e.sk == sk
  checked s
    [((ctl.getLsbD 31 && !ctl.getLsbD 30) || ctl.extractLsb' 24 6 != 0 || decide (i.t.hdr.skeins ≤ sk) || decide (len < 256)
        || decide (32768 < len) || len % 256 != 0 || (ref.map refIllegal).getD false || enrol.isNone, cIllegal, i.c.word),
     (va.extractLsb' 48 16 != 0, cXlate, va.extractLsb' 32 32),
     (sp.extractLsb' 30 2 != 0 || (s.spMarks i.t sp len).isNone, cSpRange, sp),
     (va.extractLsb' 0 8 != 0, cMisalign, va.extractLsb' 0 32), (sp.extractLsb' 0 4 != 0, cMisalign, sp),
     (s.refBad i.t ref, cSpRange, ref.getD 0)]
    (if 255 ≤ s.counter i.c.uid i.c.gid 2 ∨ s.acquiring i then retry s i
     else
       let r : SkeinReq := { launch := i.t.launch, sk := sk, k := (enrol.map (·.k)).getD 0, va := va.toNat, len := len, off := sp.toNat % 2 ^ 30,
                             sent := false, solo := false, fill := none }
       command i (s.mapTeam i.c.uid fun t => { t with skeins := t.skeins.map fun e => if e.sk = sk then { e with k := e.k + 1 } else e })
         2 (s.refLatch i.t ref) (ctl.getLsbD 31) .queued (.skein r))

/-! ## Gathers (R137, R138) -/

/-- The request of a command. -/
def EngOp.request? (o : EngOp) : Option SkeinReq :=
  match o.body with
  | .skein r => some r
  | _ => none

/-- A request changed. -/
def State.mapRequest (s : State) (oid : Nat) (f : SkeinReq → SkeinReq) : State :=
  s.mapOp oid fun o =>
    match o.body with
    | .skein r => { o with body := .skein (f r) }
    | _ => o

/-- The start addresses of the lines of a range. -/
def lineVas (va len : Nat) : List Nat := (List.range (len / 256)).map fun k => va + 256 * k

/-- Stores that a request has drained are not acknowledged yet, or a load of its group that must be performed before it
waits for a confirm into the root: it is not sent (R92, R364). -/
def State.requestHeld (s : State) (o : EngOp) (r : SkeinReq) : Bool :=
  (lineVas r.va r.len).any fun va =>
    match s.engXlate o va .read with
    | .ok pa _ _ => s.ackPending o.uid o.gid pa 256 || s.flights.any fun f =>
        f.uid == o.uid && f.gid == o.gid && decide (f.id < o.id) && !f.done && f.tgt.meets f.size (.mem pa) 256 && s.readHeld f
    | _ => false

/-- The buffered and outstanding stores of the group that overlap a request are performed before it is sent (R92). -/
def State.drainRequest (s : State) (o : EngOp) (r : SkeinReq) : State :=
  if s.requestHeld o r then s
  else (lineVas r.va r.len).foldl (fun s va =>
    match s.engXlate o va .read with
    | .ok pa _ _ => (s.settleOp o (.mem pa) 256).drainOverlap o.cl o.core o.uid o.gid pa 256
    | _ => s) s

/-- How the shared read of a gather ends. -/
inductive Shared where
  | data (s : State) (bytes : List Byte)
  | held (va kind level : Nat)
  | bad (w : Word)

/-- The one read of a range at its home slices (R92, R137). -/
def State.sharedRead (s : State) (o : EngOp) : List Nat → Shared
  | [] => .data s []
  | va :: rest =>
    match s.engXlate o va .read with
    | .wait kind level => .held va kind level
    | .bad w => .bad w
    | .ok pa _ e =>
      if s.isPoisoned pa 256 then .bad eccFault
      else
        let r := (s.tlbFill e).sliceRead pa 256
        match r.1.sharedRead o rest with
        | .data s l => .data s (r.2 ++ l)
        | x => x

/-- A gather of a launch. -/
def State.gather? (s : State) (launch sk k : Nat) : Option Gather :=
  s.gathers.find? fun g => g.launch == launch && g.sk == sk && g.k == k

/-- A gather changed. -/
def State.mapGather (s : State) (g : Gather) (f : Gather → Gather) : State :=
  { s with gathers := s.gathers.map fun x => if x.launch = g.launch ∧ x.sk = g.sk ∧ x.k = g.k then f x else x }

/-- A confirm into the root holds bytes of these lines until it returns (R159, R364). -/
def State.linesHeld (s : State) (o : EngOp) (vas : List Nat) : Bool :=
  vas.any fun va =>
    match s.engXlate o va .read with
    | .ok pa _ _ => s.publishing pa 256
    | _ => false

/-- A gather fires (R137): it closes, reads its range once, and every request of it is sent the same bytes; a replayable
fault holds it, any other fault goes to every requester (R138). One that was not full is counted as timed out (R140). -/
def State.fire (s : State) (g : Gather) : State :=
  if g.closed ∨ g.held ∨ (g.members.findSome? s.op?).any fun o => s.linesHeld o (lineVas g.va g.len) then s
  else
    let close := fun (s : State) =>
      let s := s.mapGather g fun g => { g with closed := true }
      if !g.full then s.mapSkein g.launch g.sk fun k => { k with timedOut := k.timedOut + 1 } else s
    match g.members.findSome? fun m => s.op? m with
    | none => close s
    | some o =>
      match s.sharedRead o (lineVas g.va g.len) with
      | .held va kind level =>
        (s.raiseFault o.slot va kind (accBits .read true false) level (s.opSource o) (.gather g.launch g.sk g.k)).mapGather g
          fun g => { g with held := true }
      | .bad w => g.members.foldl (fun s m => s.failOp m w) (close s)
      | .data s bytes =>
        g.members.foldl (fun s m => s.mapRequest m fun r => { r with fill := some bytes }) (close s)

/-- The gather fires when it is full or its deadline has come (R137). -/
def State.fireIfDue (s : State) (g : Gather) : State :=
  if g.closed ∨ g.held then s
  else
    let full := g.full || (match s.skein? g.launch g.sk with
      | some k => decide (k.n ≤ g.members.length)
      | none => true)
    if full then (s.mapGather g fun g => { g with full := true }).fire { g with full := true }
    else if g.deadline ≤ s.now then s.fire g
    else s

/-- A request served alone (R137, R162). -/
def State.serveAlone (s : State) (o : EngOp) (r : SkeinReq) : State :=
  let got := fun (s : State) (bytes : List Byte) => s.mapRequest o.id fun r => { r with fill := some bytes, sent := true }
  if o.hyp = 0 ∧ s.linesHeld o (lineVas r.va r.len) then s
  else if o.hyp = 0 then
    match s.sharedRead o (lineVas r.va r.len) with
    | .held va kind level => s.parkOp o va kind level .read
    | .bad w => s.failOp o.id w
    | .data s bytes => got s bytes
  else
    match s.engLoads o 256 (lineVas r.va r.len) with
    | .error s => s
    | .ok (s, l) => got s l.flatten

/-- The anchor slice of a request; a line that does not translate has none yet. -/
def State.anchorOf (s : State) (o : EngOp) (r : SkeinReq) : Nat :=
  match s.engXlate o r.va .read with
  | .ok pa _ _ => s.home pa
  | _ => Config.slices

/-- A request that must be served alone is counted and served (R137, R140, R162). -/
def State.late (s : State) (launch : Nat) (o : EngOp) (r : SkeinReq) : State :=
  ((s.mapSkein launch r.sk fun k => { k with late := k.late + 1 }).mapRequest o.id fun r => { r with solo := true }).serveAlone o r

/-- A request reaches its anchor (R137). -/
def State.skeinArrive (s : State) (oid : Nat) : State :=
  match s.op? oid with
  | none => s
  | some o =>
    match o.request?, s.team? o.uid with
    | some r, some t =>
      if o.stage ≠ .queued ∨ o.parked ∨ o.saved ∨ r.sent ∨ r.fill.isSome then s
      else
        let s := s.drainRequest o r
        if s.requestHeld o r then s
        else if r.solo then s.serveAlone o r
        else if o.hyp ≠ 0 then s.late t.launch o r
        else
          match s.gather? t.launch r.sk r.k with
          | some g =>
            if g.closed ∨ g.va ≠ r.va ∨ g.len ≠ r.len then s.late t.launch o r
            else
              let g' := { g with members := g.members ++ [oid] }
              ((s.mapGather g fun _ => g').mapRequest oid fun r => { r with sent := true }).fireIfDue g'
          | none =>
            let anchor := s.anchorOf o r
            if 64 ≤ (s.gathers.filter fun g => !g.closed && g.anchor == anchor).length then s
            else
              let tmo := ((s.skein? t.launch r.sk).map (·.tmo)).getD 0
              let g : Gather := { launch := t.launch, sk := r.sk, k := r.k, va := r.va, len := r.len, deadline := s.now + tmo,
                                  members := [oid], anchor := anchor, closed := false, held := false, full := false }
              ({ s with gathers := s.gathers ++ [g] }.mapRequest oid fun r => { r with sent := true }).fireIfDue g
    | _, _ => s

/-- The deadline of an open gather, or the moment a full one was kept from (R137). -/
def State.gatherTimeout (s : State) (launch sk k : Nat) : State :=
  match s.gather? launch sk k with
  | none => s
  | some g => s.fireIfDue g

/-- A fill lands (R131, R137, R138): in the scratchpad of its team, or discarded and counted when the team has exited. -/
def State.fillLand (s : State) (oid : Nat) : State :=
  match s.op? oid with
  | none => s
  | some o =>
    match o.request? with
    | none => s
    | some r =>
      match r.fill with
      | none => s
      | some data =>
        if o.stage = .finished ∨ o.saved ∨ !s.netUp o.cl then s
        else if (s.team? o.uid).isNone then
          { s.mapSkein r.launch r.sk fun k => { k with discarded := k.discarded + 1 } with
              ops := s.ops.filter fun x => x.id != oid }
        else
          let s := s.engSpWrite o [{ start := 0, uid := o.uid, off := r.off }] 0 data
          (s.countParts o data.length).endOp oid

/-- SLD (R320): Issues a skein load request. -/
def execSld (w : RR) (s : State) : Host.Outcome State Fault Refusal :=
  issueWith (.rr 0x6D .one {} w) (litRef (w.d.toNat + 1)) (pickRef 2 fun i => i.rd i.first (w.d.toNat + 1))
    (sldDone w) s

/-- SKN_DECL (R321): Declares a skein with member count and timeout. -/
def execSknDecl (w : RM) (s : State) : Host.Outcome State Fault Refusal :=
  issueWith (.rm 0x6E 0 .one {} w) (sknOk 0) (fun _ l => l)
    (sknDone 0 w) s

/-- SKN_JOIN (R321): Enrols the team in a skein. -/
def execSknJoin (w : RM) (s : State) : Host.Outcome State Fault Refusal :=
  issueWith (.rm 0x6E 1 .one {} w) (sknOk 1) (fun _ l => l)
    (sknDone 1 w) s

/-- SKN_LEAVE (R321): Withdraws the team's enrolment from a skein. -/
def execSknLeave (w : RM) (s : State) : Host.Outcome State Fault Refusal :=
  issueWith (.rm 0x6E 2 .one {} w) (sknOk 2) (fun _ l => l)
    (sknDone 2 w) s

/-- SKN_STAT (R321): Returns a skein's counters. -/
def execSknStat (w : RM) (s : State) : Host.Outcome State Fault Refusal :=
  issueWith (.rm 0x6E 3 .one {} w) (sknOk 3) (fun _ l => l)
    (sknDone 3 w) s

end Sys2Proof.Machine
end

