-- ==== Sys2Proof/Machine/Records.lean ====
section
/-! DEFINITION. Entry headers, continuation records and their check (R11 to R15), room on cores (R23 to R28), placement
(R19, R29), the push of a record (R14, R19, R20, R400). -/

namespace Sys2Proof.Machine

open Sys2Proof

/-! ## Headers and records -/

/-- An entry header; none when R12 refuses it. The bits of `fstm` that are reserved read 0 (R104). -/
def Header.parse (l : List Byte) : Option Header :=
  let b := fun k => fieldAt l k 1
  let shape := b 2
  let modes := b 3
  let dom := shape / 8 % 4
  if b 0 = 0 ∨ 56 < b 0 ∨ 4 < b 1 ∨ shape % 4 = 3 ∨ 4 < shape / 32 ∨ modes / 32 ≠ 0 ∨ 4 < modes % 8 ∨ 448 < fieldAt l 6 2
    ∨ 256 < fieldAt l 12 2 ∨ fieldAt l 14 2 ≠ 0 ∨ fieldAt l 16 8 % 16 ≠ 0 ∨ fieldAt l 24 8 % 8 ≠ 0
    ∨ (l.drop 40).any (· != 0) then none
  else some
    { regs := b 0, accs := b 1, minSlots := shape / 32,
      fusion := if dom = 0 then 0 else if dom = 1 then 16 else if dom = 2 then 64 else 256,
      hingedReq := shape / 4 % 2 == 1, width := shape % 4, absm := modes / 16 % 2 == 1,
      round := BitVec.ofNat 32 (modes % 16), lease := fieldAt l 4 2, spmin := fieldAt l 6 2,
      fstm := BitVec.ofNat 32 (fieldAt l 8 4 % 128), skeins := fieldAt l 12 2, trapv := BitVec.ofNat 64 (fieldAt l 16 8),
      handlers := BitVec.ofNat 64 (fieldAt l 24 8), dspan := fieldAt l 32 8 }

/-- The local SRAM of a record fits (R13). -/
def sramFits (slots sp : Nat) : Bool := slots ≤ 4 && sp ≤ 448 && sp % 32 == 0 && 32 * slots + sp ≤ 448

/-- A continuation record; none when its own fields are refused (R13). An entry whose header would lie outside the 48-bit
space is refused with them. -/
def Record.parse (l : List Byte) : Option Record :=
  let shape := fieldAt l 24 2
  let sp := fieldAt l 26 2
  let b28 := fieldAt l 28 1
  let entry := fieldAt l 0 8
  if entry % 64 ≠ 0 ∨ entry < 64 ∨ 2 ^ 48 ≤ entry ∨ fieldAt l 16 8 % 64 ≠ 0 ∨ shape / 2 ^ 11 ≠ 0
    ∨ !sramFits (shape / 256 % 8) sp ∨ b28 / 32 ≠ 0 ∨ b28 / 4 % 4 ≠ 0 ∨ fieldAt l 29 3 = 0 then none
  else some
    { entry := BitVec.ofNat 64 entry, frame := BitVec.ofNat 64 (fieldAt l 8 8), join := BitVec.ofNat 64 (fieldAt l 16 8),
      slots := shape / 256 % 8, hinged := shape / 128 % 2 == 1, width := shape / 32 % 4, groups := shape % 32 + 1, sp := sp,
      gang := b28 / 16 % 2 == 1, prio := b28 % 4, count := fieldAt l 29 3 }

/-- A record as bytes (R13, R423). -/
def Record.bytes (r : Record) : List Byte :=
  leBytes 8 r.entry.toNat ++ leBytes 8 r.frame.toNat ++ leBytes 8 r.join.toNat ++
    leBytes 2 (r.groups - 1 + 32 * r.width + (if r.hinged then 128 else 0) + 256 * r.slots) ++ leBytes 2 r.sp ++
    leBytes 1 (r.prio + (if r.gang then 16 else 0)) ++ leBytes 3 r.count

/-- Register words a group reserves (R11). -/
def Header.reservation (h : Header) : Nat := h.groupWidth * (h.regs + 32 * h.accs)

/-- The first failing check of a record against its header, as the reason of R418: 1 record, 3 reservation; 0 for none. -/
def Record.against (r : Record) (h : Header) : Nat :=
  if r.slots < h.minSlots ∨ r.width ≠ h.width ∨ r.sp < h.spmin ∨ (h.hingedReq ∧ !r.hinged) then 1
  else if Config.laneWords < h.reservation then 3
  else 0

/-! ## Room (R10, R11, R23 to R27) -/

/-- Groups of a team that run on its first and on its second core (R26). -/
def Record.groupsOn (r : Record) (second : Bool) : Nat :=
  if !r.hinged then r.groups else if second then r.groups / 2 else (r.groups + 1) / 2

/-- Lanes of a core (R3). -/
def laneCount : Nat := 32

/-- Groups that one lane still takes: at most 4, within its register words (R10, R11). -/
def laneRoom (words count reservation : Nat) : Nat := min (4 - count) ((Config.laneWords - words) / reservation)

/-- Groups and register words of a lane. -/
def State.laneLoad (s : State) (cl core lane : Nat) : Nat × Nat :=
  s.teams.foldl (fun r t =>
    (List.range t.groups.length).foldl (fun r k =>
      match t.groups[k]? with
      | some g => if t.cl = cl ∧ t.coreOf k = core ∧ g.lane = lane then (r.1 + 1, r.2 + t.hdr.reservation) else r
      | none => r) r) (0, 0)

/-- Groups a core still takes. -/
def State.coreRoom (s : State) (cl core reservation : Nat) : Nat :=
  ((List.range laneCount).map fun l => let x := s.laneLoad cl core l; laneRoom x.2 x.1 reservation).sum

/-- Teams on a core. -/
def State.teamsOn (s : State) (cl core : Nat) : List Team :=
  s.teams.filter fun t => t.onCore cl core

/-- The carve of a core lets a team of this carve in (R24, R25). -/
def State.carveOk (s : State) (cl core slots sp : Nat) : Bool :=
  ((s.cluster cl).reserved.all fun x => x.core != core || (x.slots == slots && x.sp == sp)) &&
    ((s.teamsOn cl core).isEmpty || (s.core cl core).carve == some (slots, sp))

/-- The fusion rule lets a team of a launch in (R27). -/
def State.domainOk (s : State) (cl core launch d : Nat) : Bool :=
  if d = 0 then (s.core cl core).claim == 0
  else (domainOf d core).all fun c =>
    ((s.core cl c).claim == launch && (s.core cl c).fusion == d) || ((s.core cl c).claim == 0 && (s.teamsOn cl c).isEmpty)

/-- A free place of a core, or of a hinged pair (R23, R26). -/
def State.freePlace (s : State) (cl core : Nat) (r : Record) : Option Nat :=
  (List.range (places r.slots r.sp)).find? fun p =>
    (s.teamAt cl core p).isNone && (!r.hinged || (s.teamAt cl (core + 1) p).isNone)

/-- One core can take its part of a team (R23). -/
def State.coreFits (s : State) (cl core launch : Nat) (r : Record) (h : Header) (second : Bool) : Bool :=
  !s.coreOut cl core && s.carveOk cl core r.slots r.sp && s.domainOk cl core launch h.fusion
    && decide (r.groupsOn second ≤ s.coreRoom cl core h.reservation)

/-- A core, with its partner for a hinged team, can take a team now (R23). -/
def State.fits (s : State) (cl core launch : Nat) (r : Record) (h : Header) (pin : Option Nat) : Bool :=
  decide (core < Config.coresPerCluster) && (pin.isNone || pin == some core) && s.coreFits cl core launch r h false
    && (!r.hinged || (core % 2 == 0 && s.coreFits cl (core + 1) launch r h true)) && (s.freePlace cl core r).isSome

/-- The first core of a cluster that can take a team. -/
def State.firstCore (s : State) (cl launch : Nat) (r : Record) (h : Header) (pin : Option Nat) : Option Nat :=
  (List.range Config.coresPerCluster).find? fun c => s.fits cl c launch r h pin

/-- Teams an empty core, or pair, takes (R23, R24). -/
def emptyCoreTeams (r : Record) (h : Header) : Nat :=
  min (places r.slots r.sp) (laneCount * laneRoom 0 0 h.reservation / r.groupsOn false)

/-- A gang fits one empty cluster of in-service cores (R28). -/
def State.gangFits (s : State) (r : Record) (h : Header) : Bool :=
  (List.range Config.clusters).any fun cl =>
    let cores := (List.range Config.coresPerCluster).filter fun c =>
      if r.hinged then c % 2 == 0 && !s.coreOut cl c && !s.coreOut cl (c + 1) else !s.coreOut cl c
    decide (r.count ≤ cores.length * emptyCoreTeams r h)

/-! ## Placement (R23, R24, R26, R27, R29) -/

/-- An empty core re-carves for the team it takes and drops its L1 (R24, R54). -/
def State.recarve (s : State) (cl core slots sp : Nat) : State :=
  if (s.teamsOn cl core).isEmpty ∧ (s.core cl core).carve ≠ some (slots, sp) then
    s.mapCore cl core fun c => { c with carve := some (slots, sp), l1 := [] }
  else s

/-- The instruction buffers of a core, emptied when it takes a team of another launch (R377). -/
def Core.codeOf (c : Core) (launch : Nat) : Core :=
  if c.codeLaunch = launch then c else { c with code := [], ahead := [], codeLaunch := launch }

/-- A core made ready for a team: re-carved when empty (R24), its domain claimed (R27), its instruction buffer emptied for
another launch (R377). -/
def State.prepareCore (s : State) (cl core launch slots sp d : Nat) : State :=
  let s := s.recarve cl core slots sp
  let s := s.mapCore cl core fun c =>
    { c.codeOf launch with gens := c.gens + 1 }
  if d = 0 then s
  else (domainOf d core).foldl (fun s n =>
    if (s.core cl n).claim = launch then s
    else s.mapCore cl n fun c => { c with claim := launch, fusion := d, l1 := [] }) s

/-- A thread at placement (R29). -/
def Thread.placed (h : Header) (entry : DWord) : Thread :=
  { v := List.replicate h.regs Reg.absent, held := [],
    acc := List.replicate h.accs { acc := LongAcc.zero, prod := 0 }, pc := entry, meet := 0, fst := 0, hyp := 0,
    trapc := 0, trapa := 0, trapd := 0, live := true, inHandler := false, orphan := false, dlPend := none, atEret := false,
    wait := .none, passed := none, popping := none, cover := 0, lastIssue := 0 }

/-- A group at placement (R29). -/
def Group.placed (h : Header) (r : Record) (now lane age : Nat) (active : Bool) : Group :=
  { g := Reg.full (r.frame.extractLsb' 0 32) :: Reg.full (r.frame.extractLsb' 32 32) :: List.replicate 62 (Reg.full 0),
    held := [], threads := List.replicate h.groupWidth (Thread.placed h r.entry), round := h.round,
    lease := BitVec.ofNat 32 h.lease, ffl := now, fhz := 0, fstm := h.fstm, mcfg := 0, pivt := 0, pivd := 0, pivm := 0,
    absm := if h.absm then 1 else 0, cpol := 0, lnkc := 0, dlinStage := none, queues := List.replicate 8 Queue.null,
    mSteps := 0, mCause := 0, mLoss := false, events := [], arm := none, lane := lane, active := active,
    since := now, age := age, stall := none, parked := [], failed := [], parkPc := 0, lastExit := 0, replay := [], packets := [] }

/-- The deadline at placement (R29). DESIGN CHOICE: a sum above 2^64 - 1 is kept as it is, so that it is never due; a csr read
and a saved image give its low 64 bits (log 33). -/
def State.firstDeadline (s : State) (slot pushed : Nat) (h : Header) : Nat :=
  if h.dspan ≠ 0 then pushed + h.dspan else if (s.slot slot).dldef ≠ 0 then pushed + (s.slot slot).dldef else 0

/-- The lane that a group of a team takes: the one with the fewest groups that has room (R23; which one is not visible).
-/
def State.pickLane (s : State) (cl core reservation : Nat) : Nat :=
  (leastBy (fun l => (s.laneLoad cl core l).1)
    ((List.range laneCount).filter fun l => let x := s.laneLoad cl core l; decide (0 < laneRoom x.2 x.1 reservation))).getD 0

/-- A group added to a team that is being placed. -/
def State.addGroup (s : State) (uid : Nat) (q : QRec) (k : Nat) : State :=
  match s.team? uid with
  | none => s
  | some t =>
    let core := t.coreOf k
    let lane := s.pickLane t.cl core t.hdr.reservation
    let active := !((s.laneGroups t.cl core lane).any fun x => x.2.2.active)
    let g := Group.placed q.hdr q.record s.now lane s.nextId active
    let g := match q.msg with
      | some (_, ws) =>
        if k = 0 then { g with queues := g.queues.set 0 { bind := 0x10000000, target := 0, words := ws.map fun w => (w, false) } }
        else g
      | none => g
    { s.mapTeam uid fun t => { t with groups := t.groups ++ [g] } with nextId := s.nextId + 1 }

/-- A team placed on a core with index `idx` (R23, R29). -/
def State.placeTeam (s : State) (cl core : Nat) (q : QRec) (idx : Nat) : State :=
  let place := (s.freePlace cl core q.record).getD 0
  let s := s.prepareCore cl core q.launch q.record.slots q.record.sp q.hdr.fusion
  let s := if q.record.hinged then s.prepareCore cl (core + 1) q.launch q.record.slots q.record.sp q.hdr.fusion else s
  let uid := s.nextId
  let t : Team :=
    { uid := uid, launch := q.launch, slot := q.slot, cl := cl, core := core, place := place, record := q.record, hdr := q.hdr,
      tmid := idx, groups := [], scratch := [], gen := (s.core cl core).gens,
      latches := (List.range 16).map fun k => Latch.placed k q.record.groups,
      tiles := List.replicate (q.record.slots * if q.record.hinged then 2 else 1) (List.replicate 256 LongAcc.zero),
      dlin := s.firstDeadline q.slot q.pushed q.hdr, amsrc := (q.msg.map (·.1)).getD 0, skeins := [], saving := none }
  let s := { s with teams := s.teams ++ [t], nextId := uid + 1 }
  let s := (List.range q.record.groups).foldl (fun s k => s.addGroup uid q k) s
  (s.mapLaunch q.launch fun l => { l with resident := l.resident + 1, unplaced := l.unplaced - 1 }).mapCluster cl fun c =>
    { c with reserved := c.reserved.filter fun x => x.core != core && !(q.record.hinged && x.core == core + 1) }

/-- Teams with indices `idx` to `idx + n - 1` placed, each on the first core that fits; none if one does not (R28). -/
def State.placeAll (s : State) (cl : Nat) (q : QRec) : Nat → Nat → Option State
  | 0, _ => some s
  | n + 1, idx =>
    match s.firstCore cl q.launch q.record q.hdr q.pin with
    | none => none
    | some core => (s.placeTeam cl core q idx).placeAll cl q n (idx + 1)

/-! ## Queues (R19 to R22) -/

/-- The priority a record is served at (R21). -/
def QRec.level (q : QRec) : Nat := if q.raised then min 3 (q.prio + 1) else q.prio

/-- The target cluster of a message. -/
def Message.cluster (m : Message) : Nat := (m.dst.extractLsb' 28 3).toNat

/-- The core a message is pinned to. -/
def Message.pin (m : Message) : Option Nat := if m.dst.getLsbD 31 then some (m.dst.extractLsb' 20 8).toNat else none

/-- The sending core of a message's source word (R192). -/
def senderOf (src : Word) : Nat := (src.extractLsb' 8 11).toNat

/-- A handler record waits for the placement of an earlier message from its sending core to its target, wherever that one
stands (R193): its place among them is before priorities count (log 43). -/
def State.heldBack (s : State) (cl : Nat) (q : QRec) : Bool :=
  match q.msg with
  | none => false
  | some (src, _) =>
    ((s.cluster cl).queue.any fun x =>
      match x.msg with
      | some (y, _) => senderOf y == senderOf src && x.pin == q.pin && decide (x.order < q.order)
      | none => false)
    || s.messages.any fun m => m.cluster == cl && m.pin == q.pin && senderOf m.src == senderOf src && decide (m.id < q.order)

/-- The head record of a priority level: the earliest push (R19, R21) of those that send order lets go (R193). -/
def State.head (s : State) (cl level : Nat) : Option QRec :=
  leastBy (fun q => q.pushed) ((s.cluster cl).queue.filter fun q => q.level == level && !s.heldBack cl q)

/-- A record can be placed now in a cluster: some core takes its next team, or all of a gang (R23, R28). -/
def State.placeable (s : State) (cl : Nat) (q : QRec) : Bool :=
  if q.record.gang then (s.placeAll cl q (q.stop - q.next) q.next).isSome
  else (s.firstCore cl q.launch q.record q.hdr q.pin).isSome

/-- The record that a cluster serves now: the head of the highest level whose head is placeable (R21). -/
def State.served (s : State) (cl : Nat) : Option QRec :=
  [3, 2, 1, 0].findSome? fun p => (s.head cl p).filter fun q => s.placeable cl q

/-- A record of a queue changed. -/
def State.mapRec (s : State) (cl rid : Nat) (f : QRec → Option QRec) : State :=
  s.mapCluster cl fun c => { c with queue := c.queue.filterMap fun q => if q.id = rid then f q else some q }

/-! ## The spill space (R400) -/

/-- Bytes of the spill space that a queued record takes (R400). -/
def QRec.spillBytes (q : QRec) : Nat := if q.msg.isSome then 320 else 64

/-- The records of a process in all queues. -/
def State.queuedOf (s : State) (slot : Nat) : List QRec := (s.clusters.flatMap (·.queue)).filter fun q => q.slot == slot

/-- The parts of `n` bytes at `va` that lie in one page each, for at most a page of bytes. -/
def pageParts (va n : Nat) : List (Nat × Nat) :=
  let k := min n (4096 - va % 4096)
  if k = n then [(va, n)] else [(va, k), (va + k, n - k)]

/-- A part of a spilled entry written by the process's translations, its bytes free values (R400, log 9). -/
def State.spillPart (s : State) (slot : Nat) (p : Nat × Nat) : State :=
  match s.slotWrite slot p.1 ((List.range p.2).map fun k => Config.spillByte (s.free + k)) with
  | some s => { s with free := s.free + p.2 }
  | none => s

/-- The first offset of a spill space of `size` bytes where an entry of `bytes` bytes lies clear of those in use. -/
def spillRoom (used : List (Nat × Nat)) (size bytes : Nat) : Option Nat :=
  leastBy id ((0 :: used.map fun x => x.1 + x.2).filter fun c =>
    decide (c + bytes ≤ size) && used.all fun x => decide (c + bytes ≤ x.1) || decide (x.1 + x.2 ≤ c))

/-- Where the entry of a push goes: into the hardware queues while they have room, else to an offset of the spill space;
none when that is full (R14, R400). -/
def State.spillSpot (s : State) (slot bytes : Nat) : Option (Option Nat) :=
  let q := s.queuedOf slot
  if (q.filter fun x => x.spillAt.isNone).length < Config.hwQueueDepth then some none
  else (spillRoom (q.filterMap fun x => x.spillAt.map fun off => (off, x.spillBytes)) (s.slot slot).spsize bytes).map some

/-- An entry of the spill space reached by the process's translations (R400): its parts, or the state with a fault for the
driver, or with ERR 3 for a page that cannot be resolved; nothing is reached while such an error stands. -/
def State.spillReach (s : State) (slot off bytes : Nat) (acc : AccessKind) : Except State (List (Nat × Nat)) :=
  let sl := s.slot slot
  let parts := pageParts (sl.spbase.toNat + off) bytes
  if sl.hold ∧ sl.err = 3 then .error s
  else match parts.findSome? fun p =>
      match s.translate sl p.1 acc with
      | .ok _ _ _ => none
      | x => some (p.1, x) with
    | some (a, .bad kind level) => .error (s.raiseFault slot a kind (accBits acc true false) level (0, 0, 0) (.spill slot))
    | some _ => .error (s.slotError slot 3)
    | none => .ok parts

/-- The entry of a push finds its place, which the device writes when it lies in the spill space (R14, R400). Without room,
or while a fault of the spill space is not resolved, the push blocks. -/
def State.spill (s : State) (slot bytes : Nat) : State × Bool :=
  match s.spillSpot slot bytes with
  | none => (s, false)
  | some none => (s, true)
  | some (some off) =>
    match s.spillReach slot off bytes .write with
    | .error s => (s, false)
    | .ok parts => (parts.foldl (fun s p => s.spillPart slot p) s, true)

/-- A spilled record read back before it is placed or stolen (R400); false while the read meets a fault that is not
resolved. The device finds there what it wrote (log 9). -/
def State.readBack (s : State) (cl : Nat) (q : QRec) : State × Bool :=
  match q.spillAt with
  | none => (s, true)
  | some off =>
    match s.spillReach q.slot off q.spillBytes .read with
    | .error s => (s, false)
    | .ok parts =>
      let s := parts.foldl (fun s p => ((s.slotRead q.slot p.1 p.2).map (·.1)).getD s) s
      (s.mapRec cl q.id fun q => some { q with spillAt := none }, true)

/-- A core places the next team of the record its cluster serves, or a whole gang with its first team there (R19, R23, R28,
R400). A domain whose launch has placed its last team elsewhere may be free now (R27). -/
def State.teamPlacement (s : State) (cl core : Nat) : State :=
  match s.served cl with
  | none => s
  | some q =>
    if !s.fits cl core q.launch q.record q.hdr q.pin then s
    else match s.readBack cl q with
    | (s, false) => s
    | (s, true) =>
      let s' := s.placeTeam cl core q q.next
      if q.record.gang then
        match s'.placeAll cl q (q.stop - q.next - 1) (q.next + 1) with
        | some s'' => (s''.mapRec cl q.id fun _ => none).releaseDomains
        | none => s
      else (s'.mapRec cl q.id fun q => if q.next + 1 < q.stop then some { q with next := q.next + 1 } else none).releaseDomains

/-! ## Pushes (R14, R19, R20) -/

/-- A new launch of a record (R20). -/
def State.newLaunch (s : State) (slot : Nat) (origin : Origin) (count : Nat) : State × Nat :=
  ({ s with
      launches := s.launches ++ [{ id := s.nextId, slot := slot, origin := origin, unplaced := count, resident := 0, status := 0,
                                   skeins := [], fhz := 0 }],
      nextId := s.nextId + 1 }, s.nextId)

/-- The queue entry of a record pushed now; `order` is the send order of a message (R193). -/
def State.queueRec (s : State) (slot launch : Nat) (r : Record) (h : Header) (pin : Option Nat) (msg : Option (Word × List Word))
    (order : Nat) : QRec :=
  { id := s.nextId, record := r, hdr := h, launch := launch, slot := slot, pushed := s.now, next := 0, stop := r.count,
    prio := r.prio, raised := false, pin := pin, msg := msg, order := order }

/-- A checked record pushed into a cluster's queue, in the place that `State.spill` has found: it starts a launch (R19, R20).
-/
def State.push (s : State) (cl slot : Nat) (origin : Origin) (r : Record) (h : Header) (pin : Option Nat)
    (msg : Option (Word × List Word)) (order : Nat) : State :=
  let x := s.newLaunch slot origin r.count
  let q := x.1.queueRec slot x.2 r h pin msg order
  let q := { q with spillAt := (s.spillSpot slot q.spillBytes).getD none }
  { x.1.mapCluster cl fun c => { c with queue := c.queue ++ [q] } with nextId := x.1.nextId + 1 }

/-! ## The check of a push without a status (R15) -/

/-- How a push ends that is checked outside an instruction. -/
inductive Pushed where
  | done (s : State)
  | refused (s : State) (reason : Nat)
  | held (s : State)

/-- The header of an entry read for a push: its bytes, a fault for `who`, or the driver's refusal (R15, R419). -/
def State.headerRead (s : State) (slot : Nat) (entry : DWord) (failed : Bool) (src : Nat × Nat × Nat) (who : Accessor) :
    Except State (State × Option (List Byte)) :=
  let va := entry.toNat - 64
  if failed then .ok (s, none)
  else match s.translate (s.slot slot) va .read with
  | .ok pa _ e => let r := (s.tlbFill e).sliceRead pa 64; .ok (r.1, some r.2)
  | .untracked => .ok (s, none)
  | .bad kind level => .error (s.raiseFault slot va kind (accBits .read true false) level src who)

/-- A record checked against its header and the gang rules, then pushed (R14, R15, R28). -/
def State.pushChecked (s : State) (cl slot : Nat) (origin : Origin) (r : Record) (failed : Bool) (src : Nat × Nat × Nat)
    (who : Accessor) : Pushed :=
  match s.headerRead slot r.entry failed src who with
  | .error s => .held s
  | .ok (s, none) => .refused s 4
  | .ok (s, some l) =>
    match Header.parse l with
    | none => .refused s 2
    | some h =>
      if r.against h ≠ 0 then .refused s (r.against h)
      else if r.gang ∧ !s.gangFits r h then .refused s 1
      else match s.spill slot 64 with
        | (s, false) => .held s
        | (s, true) => .done (s.push cl slot origin r h none none 0)

end Sys2Proof.Machine
end

