-- ==== Sys2Proof/Machine/Control.lean ====
section
/-! DEFINITION. Control transfer (R260 to R266). -/

namespace Sys2Proof.Machine

open Sys2Proof

/-- A thread at a report point takes ARITH when an enabled flag is set (R45). -/
def Issue.report (i : Issue) (t : Nat) : Option (Nat × Word) :=
  match i.thread? t with
  | none => none
  | some th => if th.fst &&& i.g.fstm = 0 then none else some (cArith, th.fst &&& i.g.fstm)

/-- A branch taken by the threads whose condition holds (R261). -/
def branchOn (p : Word → Bool) (w : BR) (s : State) (i : Issue) : Done :=
  { nothing s with jump := fun t => if p (i.rd (i.one t) w.a.toNat) then some (branchTarget i.c.pc w.t) else none }

/-- `call` (R262): the return address is slot 0 of the next packet. -/
def callDone (w : BR) (s : State) (i : Issue) : Done :=
  { nothing s with res := fun _ => pairOf w.a.toNat (pcWrap (packetOf i.c.pc + 16)), jump := fun _ => some (branchTarget i.c.pc w.t) }

/-- `jmpi` (R263): a target off a packet or beyond 48 bits traps MISALIGN. -/
def jmpiDone (w : BR) (s : State) (i : Issue) : Done :=
  let dest := fun t => i.rd2 (i.one t) w.a.toNat
  { nothing s with
      trap := fun t => if (dest t).extractLsb' 0 4 = 0 ∧ (dest t).extractLsb' 48 16 = 0 then none
        else some (cMisalign, (dest t).extractLsb' 0 32),
      jump := fun t => some (dest t) }

/-- `exit` (R265), a report point (R45). -/
def exitDone (s : State) (i : Issue) : Done :=
  { nothing (s.mapGroup i.c.uid i.c.gid fun g => if i.ts.any fun t => (i.report t).isNone then { g with lastExit := i.c.pc } else g)
      with trap := i.report, each := true, edit := fun _ th => th.exited }

/-- BR (R261): Branches to the target packet. -/
def execBr (w : BR) (s : State) : Host.Outcome State Fault Refusal :=
  issueWord (.br 0x2D { c := true, a := true } w)
    (fun s i => { nothing s with jump := fun _ => some (branchTarget i.c.pc w.t) }) s

/-- BNZ (R261): Branches when the condition is nonzero. -/
def execBnz (w : BR) (s : State) : Host.Outcome State Fault Refusal :=
  issueWord (.br 0x2E { c := true } w) (branchOn (fun a => a != 0) w) s

/-- BZ (R261): Branches when the condition is zero. -/
def execBz (w : BR) (s : State) : Host.Outcome State Fault Refusal :=
  issueWord (.br 0x2F { c := true } w) (branchOn (fun a => a == 0) w) s

/-- CALL (R262): Writes the return address into the link pair and branches. -/
def execCall (w : BR) (s : State) : Host.Outcome State Fault Refusal :=
  issueWord (.br 0x30 { c := true } w) (callDone w) s

/-- JMPI (R263): Jumps to the address held in a pair. -/
def execJmpi (w : BR) (s : State) : Host.Outcome State Fault Refusal :=
  issueWord (.br 0x31 { c := true, t := true } w) (jmpiDone w) s

/-- MEET (R264): Sets the meeting register of every active thread. -/
def execMeet (w : BR) (s : State) : Host.Outcome State Fault Refusal :=
  issueWord (.br 0x32 { c := true, a := true } w)
    (fun s i => { nothing s with edit := fun _ th => { th with meet := branchTarget i.c.pc w.t } }) s

/-- EXIT (R265): Ends every active thread after its ARITH report point. -/
def execExit (w : BR) (s : State) : Host.Outcome State Fault Refusal :=
  issueWord (.br 0x33 { c := true, a := true, t := true } w) exitDone s

/-- TRAP (R266): Every active thread takes user trap 0x30 + M. -/
def execTrap (w : RN) (s : State) : Host.Outcome State Fault Refusal :=
  issueWord (.rn 0x34 false .any { c := true, d := true, m := 15, ka := true } w)
    (fun s i => { nothing s with trap := fun t => some (cUser + w.m.toNat, if w.l then i.lit else i.rd (i.one t) w.a.toNat) }) s

end Sys2Proof.Machine
end

