-- ==== Sys2Proof/Machine/Sync.lean ====
section
/-! DEFINITION. The words that synchronise: latches (R322), `waitc` (R323), queue registers (R324, R325), hypotheses
(R152 to R161, R329). -/

namespace Sys2Proof.Machine

open Sys2Proof

/-! ## Latches (R125, R322) -/

/-- A minor on a latch of the own team traps ILLEGAL while V = 0 (R125). -/
def ownLatchWord (i : Issue) (s : State) (lk : Nat) (k : Latch → Done) : Done :=
  let l := i.t.latch lk
  if !l.v then allTrap s cIllegal i.c.word else k l

/-- A release by the group before a word's effect: the class of R83. -/
def releaseWord (i : Issue) (s : State) (cls : ScopeClass) (k : Done) : Done :=
  let core := i.t.coreOf i.c.gid
  if s.released i.t.cl core i.c.uid i.c.gid cls then k else retry (s.beginRelease i.t.cl core i.c.uid i.c.gid cls) i

/-- The class of a release at team scope (R68). -/
def teamClass (t : Team) : ScopeClass := classOf 1 t.record.hinged

/-- `latch.init` (R125). -/
def latchInitDone (w : RM) (s : State) (i : Issue) : Done :=
  let ea := (i.rd i.first w.a.toNat).toNat
  let eb := (i.rd i.first (w.a.toNat + 1)).toNat
  if 32767 < ea ∨ 2 ^ 31 ≤ eb ∨ ea + eb = 0 then allTrap s cIllegal i.c.word
  else nothing (s.ownLatch i.c.uid w.d.toNat fun l => l.start ea eb)

/-- `latch.expect` (R125). -/
def latchExpectDone (w : RM) (s : State) (i : Issue) : Done :=
  let n := i.srcA w i.first
  if n.getLsbD 31 then allTrap s cIllegal i.c.word
  else ownLatchWord i s w.d.toNat fun _ => nothing (s.ownLatch i.c.uid w.d.toNat fun l => l.addBytes n.toNat)

/-- `latch.arrive` (R83, R125): on lk15 a report point, per thread (R45). -/
def latchArriveDone (w : RM) (s : State) (i : Issue) : Done :=
  ownLatchWord i s w.d.toNat fun _ =>
    let trap := fun t => if w.d = 15 then i.report t else none
    if i.ts.all fun t => (trap t).isSome then { nothing s with trap := trap, each := true }
    else releaseWord i s (teamClass i.t)
      { nothing (s.ownLatch i.c.uid w.d.toNat Latch.arrive) with trap := trap, each := true }

/-- `latch.arrive.remote` (R83, R125, R127): the arrival travels to its latch. -/
def latchRemoteDone (w : RM) (s : State) (i : Issue) : Done :=
  let r := i.srcA w i.first
  if refIllegal r then allTrap s cIllegal i.c.word
  else
    match s.latchRef i.t r with
    | none => allTrap s cSpRange r
    | some x => releaseWord i s .device
        (nothing { s with latchMsgs := s.latchMsgs ++ [{ id := s.nextId, uid := x.uid, lk := x.lk }], nextId := s.nextId + 1 })

/-- An `arrive.remote` reaches its latch (R125, R128); it waits while the latch's team is saved (log 67). -/
def State.latchArrival (s : State) (mid : Nat) : State :=
  match s.latchMsgs.find? fun m => m.id == mid with
  | none => s
  | some m =>
    if (s.saved.any fun x => x.1.uid == m.uid) ∨ (s.team? m.uid).any fun t => !s.netUp t.cl then s
    else { s with latchMsgs := s.latchMsgs.filter fun x => x.id != mid }.reachLatch { uid := m.uid, lk := m.lk, far := true }
      Latch.arrive

/-- The classes of the phases whose completions have released the threads in hand from their wait (R126). -/
def Issue.passes (i : Issue) : List Bool := i.ts.filterMap fun t => (i.before? t).bind (·.passed)

/-- `latch.wait` (R83, R125, R126): a group that a completion has released completes, whatever the latch has done since.
-/
def latchWaitDone (w : RM) (s : State) (i : Issue) : Done :=
  let p := i.srcA w i.first
  if i.passes ≠ [] then nothing (if i.passes.any id then s.raiseFfl i.c.uid i.c.gid s.now else s)
  else if p.toNat / 2 ≠ 0 then allTrap s cIllegal i.c.word
  else ownLatchWord i s w.d.toNat fun l =>
    if l.f then allTrap s cLatchFault l.fw
    else if l.ph = p.getLsbD 0 then waitFor s (.latch w.d.toNat (p.getLsbD 0))
    else nothing (if l.lastDev then s.raiseFfl i.c.uid i.c.gid s.now else s)

/-- `latch.test` (R83, R125, R130, R322). -/
def latchTestDone (w : RM) (s : State) (i : Issue) : Done :=
  ownLatchWord i s w.a.toNat fun l =>
    if l.f then allTrap s cLatchFault l.fw
    else { nothing (if l.anyDev then s.raiseFfl i.c.uid i.c.gid s.now else s) with
             res := fun _ => [(w.d.toNat, l.status)] }

/-- `latch.inval` (R125). -/
def latchInvalDone (w : RM) (s : State) (i : Issue) : Done :=
  ownLatchWord i s w.d.toNat fun _ =>
    nothing (s.ownLatch i.c.uid w.d.toNat fun l => if w.d = 15 then l.reload else { l with v := false })

/-! ## waitc (R323) -/

/-- The bound of what a `waitc` covers: the sequence number of the oldest of the youngest `n` commands outstanding, as it
stood when the word was first reached (R323). -/
def State.coverBound (s : State) (i : Issue) (cls n : Nat) : Nat :=
  let held := ((i.thread? i.first).map (·.cover)).getD 0
  let out := s.classOps i.c.uid i.c.gid cls
  if held ≠ 0 then held else ((out.drop (out.length - n)).head?.map (·.seq)).getD s.nextId

/-- The oldest unreported event of a class below a bound. -/
def Group.coveredEvent (g : Group) (cls bound : Nat) : Option EngEvent :=
  leastBy (fun e => e.seq) (g.events.filter fun e => e.cls == cls && decide (e.seq < bound))

/-- `waitc` (R92, R323). -/
def waitcDone (w : RN) (s : State) (i : Issue) : Done :=
  let n := if w.l then i.lit else i.rd i.first w.a.toNat
  let cls := w.m.toNat
  let bound := s.coverBound i cls n.toNat
  if n.toNat / 2 ^ 8 ≠ 0 then allTrap s cIllegal i.c.word
  else if n.toNat < s.counter i.c.uid i.c.gid cls then
    waitFor (s.mapGroup i.c.uid i.c.gid fun g => g.mapThreads i.ts fun _ th => { th with cover := bound }) (.waitc cls)
  else
    match i.g.coveredEvent cls bound with
    | none => { nothing s with edit := fun _ th => { th with cover := 0 } }
    | some e =>
      allTrap (s.mapGroup i.c.uid i.c.gid fun g => { g with events := g.events.erase e })
        (if e.pivot then cPivot else cLatchFault) e.datum

/-! ## Queue registers (R141 to R143, R324, R325) -/

/-- The trap datum of a queue. -/
def queueDatum (q : Nat) : Word := BitVec.ofNat 32 q

/-- `qop.bind` (R142). -/
def qopBindDone (w : RM) (s : State) (i : Issue) : Done :=
  let p := i.srcA w i.first
  let q := w.d.toNat
  if portIllegal p then allTrap s cIllegal i.c.word
  else
    let dst := s.portTarget i.t p
    let out := (p.extractLsb' 28 4).toNat = 5
    if (out ∧ dst.isNone) ∨ bindRefused i.t i.g q p then allTrap s cQueue (queueDatum q)
    else nothing (s.setQueue i.c.uid i.c.gid q { bind := p, target := if out then (dst.map (·.uid)).getD 0 else 0, words := [] })

/-- `qop.unbind` (R142, R324): the words are discarded, and the group's threads that wait on the queue look again. -/
def qopUnbindDone (w : RM) (s : State) (i : Issue) : Done :=
  nothing (s.setQueue i.c.uid i.c.gid w.d.toNat Queue.null)

/-- `qop.stat` (R143). -/
def qopStatDone (w : RM) (s : State) (i : Issue) : Done :=
  let q := i.g.queue w.a.toNat
  { nothing s with res := fun _ => [(w.d.toNat, BitVec.ofNat 32 (q.kind * 2 ^ 12 + q.words.length))] }

/-- The class of a push to a PEER queue (R83). -/
def State.peerClass (s : State) (i : Issue) (q : Queue) : ScopeClass :=
  match s.team? q.target with
  | some d => if d.cl = i.t.cl ∧ d.core = i.t.coreOf i.c.gid ∧ !d.record.hinged then .core else .device
  | none => .device

/-- `qpush` (R143, R325). -/
def qpushDone (w : RN) (s : State) (i : Issue) : Done :=
  let n := w.m.toNat
  let q := i.g.queue n
  let ws := i.runners.map fun t => if w.l then i.lit else i.rd t w.a.toNat
  if q.kind ≠ 5 then allTrap s cQueue (queueDatum n)
  else if queueWords < q.words.length + ws.length then waitFor s (.qpush n)
  else releaseWord i s (s.peerClass i q)
    (let x := { q.push (ws.map fun x => (x, false)) with stamps := q.stamps ++ List.replicate ws.length s.nextId }
     nothing { s.setQueue i.c.uid i.c.gid n x with nextId := s.nextId + 1 })

/-- The number of the `qpop` in hand among the producers of its destination: that of its wait, else the next one. -/
def Issue.popNumber (i : Issue) (s : State) : Nat :=
  ((i.ts.filterMap fun t => (i.before? t).bind (·.popping)).head?.map (·.2.2)).getD s.nextId

/-- A younger producer of a g register than this `qpop` is outstanding, or has completed (R39). -/
def Issue.popPassed (i : Issue) (d n : Nat) : Bool :=
  n == 0 || decide (n < (i.g.g.getD d Reg.absent).prod)
    || (List.range i.g.threads.length).any fun t => !i.c.active.contains t && (match (i.thread? t).bind (·.popping) with
      | some (true, e, k) => e == d && decide (n < k)
      | _ => false)

/-- The destinations of a `qpop` that waits are EMPTY while it waits (R39, R143); one that a trap, an orphan mark or a
save ends leaves them as they were. -/
def State.emptyPop (s : State) (i : Issue) (d : Nat) : State :=
  { s.mapGroup i.c.uid i.c.gid fun g => g.mapThreads i.ts fun _ th => { th with popping := some (i.v.u, d, i.popNumber s) } with
      nextId := s.nextId + 1 }

/-- `qpop` (R143, R325): the destinations become FULL together, as the words are taken; a g register with a younger
producer takes nothing (R39). -/
def qpopDone (w : RN) (s : State) (i : Issue) : Done :=
  let n := w.m.toNat
  let q := i.g.queue n
  let d := w.d.toNat
  if q.kind = 0 ∨ q.kind = 5 then allTrap s cQueue (queueDatum n)
  else if q.words.length < i.runners.length then
    if w.ea then allTrap s cRegEmpty (queueDatum d) else waitFor (s.emptyPop i d) (.qpop n)
  else
    let taken := q.words.take i.runners.length
    let s := s.setQueue i.c.uid i.c.gid n { q with words := q.words.drop i.runners.length }
    let s := if q.kind = 4 ∧ taken.any (·.2) then s.raiseFfl i.c.uid i.c.gid s.now else s
    if i.v.u ∧ i.popPassed d (i.popNumber s) then nothing s
    else { nothing (if i.v.u then s.mapGroup i.c.uid i.c.gid fun g => g.voidPops d (i.popNumber s) else s) with res := fun t => (((i.runners.zip taken).find? fun x => x.1 == t).map fun x => (d, x.2.1)).toList }

/-! ## Hypotheses (R152 to R161) -/

/-- A result word with a status (R152). -/
def hypResult (status low : Nat) : Word := BitVec.ofNat 32 (status * 2 ^ 28 + low)

/-- A handle operand: nonzero [31:20] is ILLEGAL (R145, R152). -/
def handleOk (x : Word) : Bool := x.extractLsb' 20 12 == 0

/-- The result of a `hyp` minor. -/
def hypGive (s : State) (d : BitVec 6) (x : Word) : Done := { nothing s with res := fun _ => [(d.toNat, x)] }

/-- `hyp.new` (R146, R154, R415). DESIGN CHOICE: a parent at depth 15 gives DEPTH also where no ID is free or HYPEN is 0
(log 65). -/
def hypNewDone (w : RM) (s : State) (i : Issue) : Done :=
  let sl := s.slot i.t.slot
  let h := i.subsetHyp
  let st := if h = 0 then hOk else sl.hypStatus h
  let depth := if h = 0 then 0 else (sl.hyp (hypId h)).depth
  if st ≠ hOk then hypGive s w.d (hypResult st 0)
  else if 15 ≤ depth then hypGive s w.d (hypResult hDepth 0)
  else
    match ((List.range 256).find? fun id => id != 0 && (sl.hyp id).st == .free), sl.xctl.getLsbD 1 with
    | some id, true =>
      let x := sl.hyp id
      hypGive (s.mapSlot i.t.slot fun sl => sl.setHyp { x with st := .live, parent := h, depth := depth + 1 })
        w.d (hypResult hOk (hypHandle id x.gen).toNat)
    | _, _ => hypGive s w.d (hypResult hFull 0)

/-- `hyp.enter` (R155): entering the root succeeds. -/
def hypEnterDone (w : RM) (s : State) (i : Issue) : Done :=
  let h := i.srcA w i.first
  if !handleOk h then allTrap s cIllegal i.c.word
  else
    let st := if h = 0 then hOk else (s.slot i.t.slot).hypStatus h
    let d := hypGive s w.d (hypResult st 0)
    if st = hOk then { d with edit := fun _ th => { th with hyp := h } } else d

/-- `hyp.leave` (R155). -/
def hypLeaveDone (w : RM) (s : State) (i : Issue) : Done :=
  let sl := s.slot i.t.slot
  { hypGive s w.d 0 with edit := fun _ th => if th.hyp = 0 then th else { th with hyp := (sl.hyp (hypId th.hyp)).parent } }

/-- The acquire at the return of a confirm or a refute (R159). -/
def hypReturn (w : RM) (s : State) (i : Issue) (x : Word) : Done := hypGive (s.raiseFfl i.c.uid i.c.gid s.now) w.d x

/-- `hyp.confirm` (R94, R156, R159): into the root it returns 2 ns after the completion of what it wrote, and until then
untagged loads of those sectors wait at their slices (R364, log 65). A write of h that finds the store full while the
accesses of h are performed refutes h, and the confirm gives CAPACITY (log 65: the spec orders neither first). -/
def hypConfirmDone (w : RM) (s : State) (i : Issue) : Done :=
  let h := i.srcA w i.first
  match i.begun with
  | some x => if s.now < x.waitUntil then stallFor s i x.result x.waitUntil x.holds else hypReturn w s i x.result
  | none =>
    if !handleOk h then allTrap s cIllegal i.c.word
    else releaseWord i s .device (
      let st := (s.slot i.t.slot).hypStatus h
      if st ≠ hOk then hypReturn w s i (hypResult st 0)
      else
        let root := ((s.slot i.t.slot).hyp (hypId h)).parent == 0
        let secs := s.hypSectors i.t.slot (hypId h)
        let r := s.confirm i.t.slot (hypId h)
        if (s.liveHyp i.t.slot h).isSome ∧ r.2.1 = 0 then hypReturn w r.1 i (hypResult hCapacity 0)
        else
          let x := hypResult hOk r.2.1
          if root then stallFor r.1 i x (r.2.2 + Config.skew) secs else hypReturn w r.1 i x)

/-- `hyp.refute` (R157, R159). -/
def hypRefuteDone (w : RM) (s : State) (i : Issue) : Done :=
  let h := i.srcA w i.first
  if !handleOk h then allTrap s cIllegal i.c.word
  else releaseWord i s .device (
    let st := (s.slot i.t.slot).hypStatus h
    if st ≠ hOk then hypReturn w s i (hypResult st 0)
    else
      let r := s.refuteTree i.t.slot (hypId h) .refuted
      hypReturn w r.1 i (hypResult hOk r.2))

/-- `hyp.stat` (R158). -/
def hypStatDone (w : RM) (s : State) (i : Issue) : Done :=
  let h := i.srcA w i.first
  if !handleOk h then allTrap s cIllegal i.c.word
  else
    let sl := s.slot i.t.slot
    let st := sl.hypStatus h
    let x := sl.hyp (hypId h)
    hypGive s w.d (if st = hOk then hypResult hOk (x.depth * 2 ^ 24 + x.parent.toNat) else hypResult st 0)

/-- LATCH_INIT (R322): Initialises a latch's expected arrivals and bytes. -/
def execLatchInit (w : RM) (s : State) : Host.Outcome State Fault Refusal :=
  issueWord (.rm 0x6F 0 .one { l := true } w) (latchInitDone w) s

/-- LATCH_EXPECT (R322): Adds to the bytes expected in the current phase. -/
def execLatchExpect (w : RM) (s : State) : Host.Outcome State Fault Refusal :=
  issueWith (.rm 0x6F 1 .one {} w) (fun _ x => !x.getLsbD 31) (fun _ l => l)
    (latchExpectDone w) s

/-- LATCH_ARRIVE (R322): Arrives once on a latch as a team-scope release. -/
def execLatchArrive (w : RM) (s : State) : Host.Outcome State Fault Refusal :=
  issueWord (.rm 0x6F 2 .one { a := true, ka := true, ea := true, l := true } w) (latchArriveDone w) s

/-- LATCH_ARRIVE_REMOTE (R322): Sends an arrival to a latch named by a latch reference. -/
def execLatchArriveRemote (w : RM) (s : State) : Host.Outcome State Fault Refusal :=
  issueWith (.rm 0x6F 3 .one { d := true } w) (fun _ x => !refIllegal x) (fun _ l => l)
    (latchRemoteDone w) s

/-- LATCH_WAIT (R322): Waits until the named phase of a latch has completed. -/
def execLatchWait (w : RM) (s : State) : Host.Outcome State Fault Refusal :=
  issueWith (.rm 0x6F 4 .one {} w) (fun _ x => decide (x.toNat < 2)) (fun _ l => l)
    (latchWaitDone w) s

/-- LATCH_TEST (R322): Returns a latch's status word without blocking. -/
def execLatchTest (w : RM) (s : State) : Host.Outcome State Fault Refusal :=
  issueWord (.rm 0x6F 5 .one { ka := true, ea := true, l := true } w) (latchTestDone w) s

/-- LATCH_INVAL (R322): Invalidates a latch, or resets lk15's counts. -/
def execLatchInval (w : RM) (s : State) : Host.Outcome State Fault Refusal :=
  issueWord (.rm 0x6F 6 .one { a := true, ka := true, ea := true, l := true } w) (latchInvalDone w) s

/-- WAITC (R323): Waits until a counter class is at most N and reports covered engine events. -/
def execWaitc (w : RN) (s : State) : Host.Outcome State Fault Refusal :=
  issueWith (.rn 0x70 false .one { d := true, m := 3 } w) (fun _ x => decide (x.toNat < 2 ^ 8)) (fun _ l => l)
    (waitcDone w) s

/-- QOP_BIND (R324): Binds a queue register to a port. -/
def execQopBind (w : RM) (s : State) : Host.Outcome State Fault Refusal :=
  issueWith (.rm 0x71 0 .one {} w) (fun _ x => !portIllegal x) (fun _ l => l)
    (qopBindDone w) s

/-- QOP_UNBIND (R324): Returns a queue register to NULL, discarding its words. -/
def execQopUnbind (w : RM) (s : State) : Host.Outcome State Fault Refusal :=
  issueWord (.rm 0x71 1 .one { a := true, ka := true, ea := true, l := true } w) (qopUnbindDone w) s

/-- QOP_STAT (R324): Returns a queue's kind and word count. -/
def execQopStat (w : RM) (s : State) : Host.Outcome State Fault Refusal :=
  issueWord (.rm 0x71 2 .one { ka := true, ea := true, l := true } w) (qopStatDone w) s

/-- QPUSH (R325): Pushes words into a queue, waiting for room. -/
def execQpush (w : RN) (s : State) : Host.Outcome State Fault Refusal :=
  issueWord (.rn 0x72 false .any { d := true, m := 7 } w) (qpushDone w) s

/-- QPOP (R325): Pops words from a queue, waiting or trapping when empty. -/
def execQpop (w : RN) (s : State) : Host.Outcome State Fault Refusal :=
  issueWord (.rn 0x73 false .any { a := true, m := 7, ka := true, l := true } w) (qpopDone w) s

/-- HYP_NEW (R154): Creates a live child of the subset hypothesis. -/
def execHypNew (w : RM) (s : State) : Host.Outcome State Fault Refusal :=
  issueWord (.rm 0x77 0 .one { a := true, ka := true, ea := true, l := true } w) (hypNewDone w) s

/-- HYP_ENTER (R155): Sets the active threads' hyp to a live handle or the root. -/
def execHypEnter (w : RM) (s : State) : Host.Outcome State Fault Refusal :=
  issueWith (.rm 0x77 1 .one {} w) (fun _ => handleOk) (fun _ l => l)
    (hypEnterDone w) s

/-- HYP_LEAVE (R155): Moves each active thread's hyp to its parent. -/
def execHypLeave (w : RM) (s : State) : Host.Outcome State Fault Refusal :=
  issueWord (.rm 0x77 2 .one { a := true, ka := true, ea := true, l := true } w) (hypLeaveDone w) s

/-- HYP_CONFIRM (R156): Publishes a hypothesis into its parent machine-wide. -/
def execHypConfirm (w : RM) (s : State) : Host.Outcome State Fault Refusal :=
  issueWith (.rm 0x77 3 .one {} w) (fun _ => handleOk) (fun _ l => l)
    (hypConfirmDone w) s

/-- HYP_REFUTE (R157): Discards a hypothesis and its subtree machine-wide. -/
def execHypRefute (w : RM) (s : State) : Host.Outcome State Fault Refusal :=
  issueWith (.rm 0x77 4 .one {} w) (fun _ => handleOk) (fun _ l => l)
    (hypRefuteDone w) s

/-- HYP_STAT (R158): Returns a hypothesis's state word. -/
def execHypStat (w : RM) (s : State) : Host.Outcome State Fault Refusal :=
  issueWith (.rm 0x77 5 .one {} w) (fun _ => handleOk) (fun _ l => l)
    (hypStatDone w) s

end Sys2Proof.Machine
end

