-- ==== Sys2Proof/Machine/Spawn.lean ====
section
/-! DEFINITION. Work from device code (R188 to R193): `spawn`, join blocks (R16, R17), active messages. -/

namespace Sys2Proof.Machine

open Sys2Proof

/-! ## Reads of the issuing thread (R188, R190) -/

/-- The bytes that a relaxed dev-scope load of the word's thread, untagged, finds: in the store buffer, in L1, else at the
home slice (R71, R188). -/
def State.plainRead (s : State) (i : Issue) (pa bits n : Nat) : State × List Byte :=
  s.loadBytes { i.flight s i.first 0 (.load 0 0) with
    tgt := .mem pa, size := n, cls := .device, lease := i.c.snap.lease.toNat, l1At := s.l1Core i.t.cl (i.t.coreOf i.c.gid) pa,
    l1ok := i.mayAllocate pa bits 0 } pa

/-- An untagged read at an address of the word's first thread, its faults replayable (R41, R327): the bytes, or how the
word ends. `fail` says what an access that cannot be resolved does. A poisoned sector kills the team (R439). It waits as
any later access does (R58, R77), and for a confirm into the root that holds its bytes (R159). -/
def readOr (i : Issue) (s : State) (va : DWord) (size : Nat) (acc : AccessKind) (atom : AtomKind) (fail : Nat → Word → Done)
    (k : State → Nat → List Byte → Done) : Done :=
  match s.checkGlobal i va size acc atom 0 false with
  | .trap c d => fail c d
  | .park a kind level => { st := s.park i acc false [{ va := a, kind := kind, level := level, tagged := false }], hold := some .park }
  | .ok pa bits e =>
    if s.acquiring i ∨ s.publishing pa (min size 64) then retry s i
    else if s.isPoisoned pa (min size 64) then nothing (s.killTeam i.c.uid cEcc 0)
    else
      let r := (s.tlbFill e).plainRead i pa bits (min size 64)
      k r.1 pa r.2

/-- A read of the word itself: what cannot be resolved is a trap. -/
def readWord (i : Issue) (s : State) (va : DWord) (size : Nat) (acc : AccessKind) (atom : AtomKind)
    (k : State → Nat → List Byte → Done) : Done :=
  readOr i s va size acc atom (fun c d => allTrap s c d) k

/-! ## Join blocks (R17, R189) -/

/-- A join count decremented at its home slice: the state and the count before (R17). -/
def State.decrementAt (s : State) (pa : Nat) : State × Nat :=
  let r := s.sliceAtomic .add pa 8 (2 ^ 64 - 1) 0
  (r.1, leNat r.2.1)

/-- The result of a `spawn.join` that still waits for its record. -/
def pendingJoin : Word := 0xFFFFFFFF

/-- A join block taken up: a decrement owed, or a record to be pushed. -/
def State.addJoin (s : State) (t : Team) (core : Nat) (block : DWord) (owed : Bool) (waiter : Option (Nat × Nat)) : State :=
  { s with
      joins := s.joins ++ [{ id := s.nextId, slot := t.slot, cl := t.cl, core := core, place := t.place, block := block,
                             owed := owed, waiter := waiter, parked := false, failed := false }],
      nextId := s.nextId + 1 }

/-- The end of a join block's work: it goes, and a `spawn.join` that waits gets its status (R188). -/
def State.endJoin (s : State) (j : JoinPush) (status : Word) : State :=
  let s := { s with joins := s.joins.filter fun x => x.id != j.id }
  match j.waiter with
  | some (u, g) => s.mapGroup u g fun g => { g with stall := g.stall.map fun x => { x with result := status } }
  | none => s

/-- A join block held on a fault (R15, R418). -/
def State.parkJoin (s : State) (j : JoinPush) : State :=
  { s with joins := s.joins.map fun x => if x.id = j.id then { x with parked := true, failed := false } else x }

/-- The source word of a join block's faults. -/
def JoinPush.source (j : JoinPush) : Nat × Nat × Nat := (j.cl, j.place, j.core)

/-- A decrement that could not be made at a team's exit is made now (R17). DESIGN CHOICE: it is dropped where the driver
answers FAIL, and where the block lies on a tracked page of a link without CXL.cache, which admits no AtomicOp (log 42).
-/
def State.owedDecrement (s : State) (j : JoinPush) : State :=
  if j.failed then s.endJoin j 0
  else match s.translate (s.slot j.slot) j.block.toNat .readWrite with
  | .ok pa _ e =>
    let r := (s.tlbFill e).decrementAt pa
    if r.2 = 1 then { r.1 with joins := r.1.joins.map fun x => if x.id = j.id then { x with owed := false } else x }
    else r.1.endJoin j 0
  | .untracked => s.endJoin j 0
  | .bad kind level =>
    (s.raiseFault j.slot j.block.toNat kind (accBits .readWrite true false) level j.source (.join j.id)).parkJoin j

/-- The record of a join block is read, checked and pushed into its cluster (R15, R17, R189). -/
def State.joinRecordPush (s : State) (jid : Nat) : State :=
  match s.joins.find? fun j => j.id == jid with
  | none => s
  | some j =>
    if j.parked then s
    else if j.owed then s.owedDecrement j
    else
      let refuse := fun (s : State) (reason : Nat) =>
        let s := s.endJoin j 2
        if j.waiter.isSome then s else s.noteFault j.slot (j.block.toNat + 32) kRefused reason j.source
      if j.failed then refuse s 4
      else match s.translate (s.slot j.slot) (j.block.toNat + 32) .read with
      | .untracked => refuse s 4
      | .bad kind level =>
        (s.raiseFault j.slot (j.block.toNat + 32) kind (accBits .read true false) level j.source (.join jid)).parkJoin j
      | .ok pa _ e =>
        let r := (s.tlbFill e).sliceRead pa 32
        match Record.parse r.2 with
        | none => refuse r.1 1
        | some rec' =>
          match r.1.pushChecked j.cl j.slot .joined rec' j.failed j.source (.join jid) with
          | .done s => s.endJoin j 1
          | .refused s reason => refuse s reason
          | .held s => if s.faults.any fun f => f.who.contains (.join jid) then s.parkJoin j else s

/-! ## spawn (R188, R327) -/

/-- `spawn` and `spawn.gang` (R14, R28, R188); a header read that the driver fails refuses the record (R15). -/
def spawnDone (gang : Bool) (w : RM) (s : State) (i : Issue) : Done :=
  let va := i.rd2 i.first w.a.toNat
  let give := fun (s : State) (x : Word) => { nothing s with res := fun _ => [(w.d.toNat, x)] }
  releaseWord i s .device (readWord i s va 32 .read .plain fun s _ l =>
      match Record.parse l with
      | none => give s 2
      | some r =>
        readOr i s (r.entry - 64) 64 .read .plain (fun _ _ => give s 2) fun s _ hl =>
          match Header.parse hl with
          | none => give s 2
          | some h =>
            if r.against h ≠ 0 ∨ r.gang ≠ gang ∨ (gang ∧ !s.gangFits r h) then give s 2
            else if gang then
              let x := s.newLaunch i.t.slot .spawned r.count
              let q := x.1.queueRec i.t.slot x.2 r h none none 0
              match (List.range Config.clusters).findSome? fun cl => x.1.placeAll cl q r.count 0 with
              | some s => give s 0
              | none => give s 1
            else match s.spill i.t.slot 64 with
              | (s, false) => retry s i
              | (s, true) => give (s.push i.t.cl i.t.slot .spawned r h none none 0) 0)

/-- `spawn.join` (R188, R189). -/
def spawnJoinDone (w : RM) (s : State) (i : Issue) : Done :=
  let va := i.rd2 i.first w.a.toNat
  let give := fun (s : State) (x : Word) => { nothing s with res := fun _ => [(w.d.toNat, x)] }
  match i.begun with
  | some x => if x.result = pendingJoin then stallFor s i pendingJoin (s.now + 1) else give s x.result
  | none =>
    releaseWord i s .device (readWord i s va 64 .readWrite .dev fun s pa _ =>
        let r := s.decrementAt pa
        if r.2 = 1 then
          stallFor (r.1.addJoin i.t (i.t.coreOf i.c.gid) va false (some (i.c.uid, i.c.gid))) i pendingJoin (s.now + 1)
        else give r.1 0)

/-! ## Active messages (R190 to R193, R326) -/

/-- Messages a core's outbound buffer holds (R144, R191). -/
def outboundMessages : Nat := 32

/-- The checks of a destination word (R191). -/
def destOk (x : Word) : Bool := x.extractLsb' 0 20 == 0 && (x.getLsbD 31 || x.extractLsb' 20 8 == 0)

/-- `amsg` (R190, R191, R326). -/
def amsgDone (w : RR) (s : State) (i : Issue) : Done :=
  let t := i.first
  let sp := i.rd t w.a.toNat
  let m := i.rd t (w.a.toNat + 1)
  let dst := i.srcB w t
  let len := (m.extractLsb' 0 9).toNat
  let idx := (m.extractLsb' 16 8).toNat
  let core := i.t.coreOf i.c.gid
  let table := i.t.hdr.handlers
  let bad : Nat × Word := (cQueue, BitVec.ofNat 32 idx)
  checked s
    [(m.extractLsb' 26 6 != 0 || m.extractLsb' 9 7 != 0 || decide (len < 4) || decide (256 < len) || len % 4 != 0 || !destOk dst,
      cIllegal, i.c.word),
     (sp.extractLsb' 30 2 != 0 || (s.spMarks i.t sp len).isNone, cSpRange, sp),
     (sp.extractLsb' 0 4 != 0, cMisalign, sp), (table == 0, bad.1, bad.2)]
    (releaseWord i s .device (readWord i s table 8 .read .plain fun s _ l =>
      let count := fieldAt l 0 4
      if count = 0 ∨ 256 < count ∨ fieldAt l 4 4 ≠ 0 ∨ count ≤ idx then allTrap s bad.1 bad.2
      else
        let slot := table + BitVec.ofNat 64 (8 + 16 * idx)
        readWord i s slot 8 .read .plain fun s _ le =>
          readWord i s (slot + 8) 8 .read .plain fun s _ lf =>
            if leNat (le.take 8) = 0 then allTrap s bad.1 bad.2
            else if outboundMessages ≤ (s.messages.filter fun x => x.cl == i.t.cl && x.core == core).length then retry s i
            else
              let words := leWords (len / 4) (s.spReadRange [{ start := 0, uid := i.c.uid, off := sp.toNat }] 0 len)
              let src := BitVec.ofNat 32 (idx + 256 * core + 2 ^ 16 * i.t.cl + 2 ^ 19 * i.t.place + 2 ^ 24 * (len / 4))
              let x : Message :=
                { id := s.nextId, slot := i.t.slot, cl := i.t.cl, core := core, dst := dst,
                  prio := (m.extractLsb' 24 2).toNat, idx := idx, entry := BitVec.ofNat 64 (leNat (le.take 8)),
                  frame := BitVec.ofNat 64 (leNat (lf.take 8)), table := table, words := words, src := src,
                  parked := false, failed := false }
              nothing { s with messages := s.messages ++ [x], nextId := s.nextId + 1 }))

/-- The record of a message (R192). -/
def Message.record (m : Message) (h : Header) : Record :=
  { entry := m.entry, frame := m.frame, join := 0, slots := h.minSlots, hinged := h.hingedReq, width := h.width, groups := 1,
    sp := (h.spmin + 31) / 32 * 32, gang := false, prio := m.prio, count := 1 }

/-- The source word of a message's fault entries: the sender's (R418). -/
def Message.source (m : Message) : Nat × Nat × Nat := (m.cl, (m.src.extractLsb' 19 5).toNat, m.core)

/-- The message goes. -/
def State.dropMessage (s : State) (mid : Nat) : State := { s with messages := s.messages.filter fun x => x.id != mid }

/-- A message reaches its target cluster and becomes a record (R15, R192), in send order per sender and target but for one
that a fault holds, which holds no other push (R15). `State.heldBack` keeps the placements in send order (R193). -/
def State.amsgArrival (s : State) (mid : Nat) : State :=
  match s.messages.find? fun m => m.id == mid with
  | none => s
  | some m =>
    let first := s.messages.find? fun x =>
      x.cl == m.cl && x.core == m.core && x.slot == m.slot && x.cluster == m.cluster && x.pin == m.pin && (!x.parked || x.id == mid)
    if m.parked ∨ (first.map (·.id)) ≠ some mid then s
    else
      let refuse := fun (s : State) (reason : Nat) =>
        (s.dropMessage mid).noteFault m.slot (m.table.toNat + 8 + 16 * m.idx) kRefused reason m.source
      let e := m.entry.toNat
      if e % 64 ≠ 0 ∨ e < 64 ∨ 2 ^ 48 ≤ e then refuse s 1
      else
        match s.headerRead m.slot m.entry m.failed m.source (.message mid) with
        | .error s =>
          { s with messages := s.messages.map fun x => if x.id = mid then { x with parked := true, failed := false } else x }
        | .ok (s, none) => refuse s 4
        | .ok (s, some l) =>
          match Header.parse l with
          | none => refuse s 2
          | some h =>
            let r := m.record h
            if !sramFits r.slots r.sp then refuse s 1
            else if r.against h ≠ 0 then refuse s (r.against h)
            else match s.spill m.slot 320 with
              | (s, false) => s
              | (s, true) => (s.dropMessage mid).push m.cluster m.slot .message r h m.pin (some (m.src, m.words)) mid

/-- SPAWN (R327): Pushes a non-gang continuation record. -/
def execSpawn (w : RM) (s : State) : Host.Outcome State Fault Refusal :=
  issueWord (.rm 0x75 0 .one { l := true } w) (spawnDone false w) s

/-- SPAWN_GANG (R327): Places a gang record whole in the first cluster that fits. -/
def execSpawnGang (w : RM) (s : State) : Host.Outcome State Fault Refusal :=
  issueWord (.rm 0x75 1 .one { l := true } w) (spawnDone true w) s

/-- SPAWN_JOIN (R327): Decrements a join block's count, pushing its join record at zero. -/
def execSpawnJoin (w : RM) (s : State) : Host.Outcome State Fault Refusal :=
  issueWord (.rm 0x75 2 .one { l := true } w) (spawnJoinDone w) s

/-- AMSG (R326): Sends an active message with a scratchpad payload. -/
def execAmsg (w : RR) (s : State) : Host.Outcome State Fault Refusal :=
  issueWith (.rr 0x74 .one { d := true } w) (fun _ => destOk) (fun _ l => l)
    (amsgDone w) s

end Sys2Proof.Machine
end

