-- ==== Sys2Proof/Machine/Pod.lean ====
section
/-! DEFINITION. One-sided transfers over UALink (R194 to R201, R328, R429, R430): the words, the sending and the end of a
transfer, armed transfers, and the requests of peer devices. -/

namespace Sys2Proof.Machine

open Sys2Proof

/-! ## The end of a transfer (R196) -/

/-- `lnkc` after one more failure (R196). -/
def lnkcAfter (old : Word) (stat minor dev : Nat) : Word :=
  let count := min 255 ((old.extractLsb' 16 8).toNat + 1)
  if old.extractLsb' 28 4 = 0 then BitVec.ofNat 32 (stat * 2 ^ 28 + minor * 2 ^ 24 + count * 2 ^ 16 + dev)
  else BitVec.ofNat 32 ((old.toNat / 2 ^ 24) * 2 ^ 24 + count * 2 ^ 16 + old.toNat % 2 ^ 16)

/-- A transfer that cannot complete: it counts its whole length, arrives if counted, and its failure is recorded; a
discarded one (`stat` 0) records none (R196, R198). -/
def State.endTransfer (s : State) (o : EngOp) (x : Xfer) (stat : Nat) : State :=
  let s := (s.countParts o x.len).endOp o.id
  if stat = 0 then s else s.mapGroup o.uid o.gid fun g => { g with lnkc := lnkcAfter g.lnkc stat x.minor x.dev }

/-- A transfer changed. -/
def State.mapXfer (s : State) (oid : Nat) (f : Xfer → Xfer) : State :=
  s.mapOp oid fun o =>
    match o.body with
    | .xfer x => { o with body := .xfer (f x) }
    | _ => o

/-- The transfer of a command. -/
def EngOp.xfer? (o : EngOp) : Option Xfer :=
  match o.body with
  | .xfer x => some x
  | _ => none

/-- The remote address is an aperture address (R199). -/
def Xfer.aperture (x : Xfer) : Bool := x.remote.extractLsb' 44 4 == 0xF

/-! ## Ports (R428 to R430) -/

/-- A port that carries traffic (R429). -/
def Port.usable (p : Port) : Bool := p.st == .up || p.st == .degraded

/-- An entry of the reduce-group table (R430). -/
def State.reduceEntry (s : State) (group : Nat) : Word := ((s.reduce.find? fun e => e.1 == group).map (·.2)).getD 0

/-- The usable port that the hash of R429 picks for a transfer. -/
def State.hashPort (s : State) (x : Xfer) : Option Port :=
  let up := s.ports.filter Port.usable
  up[Config.portHash x.dev x.block % up.length]?

/-- The port a transfer leaves by, or the status it ends with (R429, R430). An aperture chunk goes by the entry that its
group had when the chunk issued. -/
def State.portFor (s : State) (x : Xfer) : Nat ⊕ Nat :=
  let up := s.ports.filter Port.usable
  if x.aperture then
    let port := (x.entry.extractLsb' 16 4).toNat
    if (3 ≤ x.rtype ∧ x.rtype ≤ 6) ∨ !x.entry.getLsbD 31 ∨ !(up.any fun p => p.num == port) then .inr 4 else .inl port
  else match s.hashPort x with
    | some p => .inl p.num
    | none => .inr 2

/-! ## Local side -/

/-- Addresses of the 16-byte parts of the local range. -/
def Xfer.parts (x : Xfer) : List Nat := (List.range (x.len / 16)).map fun k => x.va.toNat + 16 * k

/-- The source of a transfer, read now (R194). -/
def State.xferSource (s : State) (o : EngOp) (x : Xfer) : Except State (State × List Byte) :=
  if x.spl then .ok (s.engSpRead o x.marks 0 x.len)
  else match s.engLoads o 16 x.parts with
    | .ok (s, l) => .ok (s, l.flatten)
    | .error s => .error s

/-- Bytes brought by a response written to the local range, then the end of the transfer (R194, R199). -/
def State.xferLand (s : State) (o : EngOp) (x : Xfer) (data : List Byte) : State :=
  if x.spl then ((s.engSpWrite o x.marks 0 data).countParts o x.len).endOp o.id
  else match s.engFirst o .write x.parts with
    | some (va, y) => (s.mapXfer o.id fun x => { x with data := some data }).blockOp o va .write y
    | none =>
      let s := (List.range (x.len / 16)).foldl (fun s k =>
        let y := s.engPa o (x.va.toNat + 16 * k) .write
        s.engWrite o y.1 y.2 ((data.drop (16 * k)).take 16)) (s.engFill o .write x.parts)
      (s.countParts o x.len).endOp o.id

/-! ## Sending (R194, R197, R199, R429) -/

/-- The reduce extension header of an aperture chunk, from the device of number `dev` in its pod (R200, R427); other
transfers have none. -/
def Xfer.header (x : Xfer) (dev : Nat) : List Byte :=
  if x.aperture then
    leBytes 2 (x.remote.extractLsb' 32 12).toNat ++ leBytes 2 (x.remote.extractLsb' 20 12).toNat
      ++ leBytes 1 (x.remote.extractLsb' 12 8).toNat ++ leBytes 1 x.rtype ++ leBytes 2 (x.len / 16) ++ leBytes 2 dev
      ++ List.replicate 6 0
  else []

/-- A transfer that its port carries away (R197, R200). -/
def State.launchXfer (s : State) (o : EngOp) (x : Xfer) (port : Nat) (bytes : List Byte) : State :=
  { s.mapXfer o.id fun x => { x with sent := true, sentAt := s.now, sentNo := s.nextId, port := port } with
      nextId := s.nextId + 1,
      output := s.output ++
        [.transfer o.id x.dev port ((s.slot o.slot).podjob.extractLsb' 0 16) (x.header (s.podcfg.extractLsb' 0 10).toNat) bytes] }

/-- A transfer takes its source and leaves by a port, or ends at once. -/
def State.sendXfer (s : State) (oid : Nat) : State :=
  match s.op? oid with
  | none => s
  | some o =>
    match o.xfer? with
    | none => s
    | some x =>
      if o.stage = .finished ∨ o.parked ∨ o.saved ∨ x.sent ∨ x.armed.isSome then s
      else if !(s.slot o.slot).podjob.getLsbD 31 then s.endTransfer o x 3
      else
        match s.portFor x with
        | .inr stat => s.endTransfer o x stat
        | .inl port =>
          if x.minor = 2 then s.launchXfer o x port []
          else match s.xferSource o x with
            | .error s => s
            | .ok (s, bytes) => s.launchXfer o x port bytes

/-- Transfers whose port carries no traffic any more, in the order they were sent: each is replayed on another usable port,
or ends with LINK_DOWN when there is none (R429). One that a mismatched down message has spoiled only waits for its
TIMEOUT (R200). -/
def State.movePorts (s : State) : State :=
  (sortBy (fun o => (o.xfer?.map (·.sentNo)).getD 0) (s.ops.filter fun o => o.stage != .finished && !o.saved)).foldl (fun s o =>
    match o.xfer? with
    | none => s
    | some x =>
      if !x.sent ∨ x.data.isSome ∨ x.spoiled ∨ (s.ports.any fun p => p.num == x.port && p.usable) then s
      else match s.hashPort x with
        | none => s.endTransfer o x 2
        | some p => { s.mapXfer o.id fun x => { x with port := p.num } with output := s.output ++ [.replay o.id p.num] }) s

/-- An armed transfer fires at the first moment its latch allows, or is discarded when its latch has faulted before (R198):
a count of the step in hand that came down to the threshold stands, whatever came after it. A latch that is not initialised
fires nothing. -/
def State.armedFire (s : State) (oid : Nat) : State :=
  match s.op? oid with
  | none => s
  | some o =>
    match o.xfer?, s.team? o.uid with
    | some x, some t =>
      match x.armed with
      | none => s
      | some (lk, n, phases) =>
        let l := t.latch lk
        if o.stage = .finished ∨ o.saved then s
        else if l.f ∧ !(l.low.any fun b : Int => decide (b ≤ n)) ∧ l.phases = phases then (s.mapXfer oid fun x => { x with armed := none }).endTransfer o x 6
        else if (l.v ∧ l.b ≤ n) ∨ (l.low.any fun b : Int => decide (b ≤ n)) ∨ l.phases ≠ phases then (s.mapXfer oid fun x => { x with armed := none }).sendXfer oid
        else s
    | _, _ => s

/-- The armed transfers of the device (R198). -/
def State.armedOps (s : State) : List Nat :=
  (s.ops.filter fun o => o.stage != .finished && !o.saved && o.xfer?.any fun x => x.armed.isSome).map (·.id)

/-- Every armed transfer whose moment has come fires (R198). -/
def State.fireArmed (s : State) : State := s.armedOps.foldl State.armedFire s

/-- They fire until no more of them do: one that ends at once counts on its own latch. -/
def State.fireAll : Nat → State → State
  | 0, s => s
  | n + 1, s => let s' := s.fireArmed; if s'.armedOps.length = s.armedOps.length then s' else s'.fireAll n

/-- The latches forget how low a step brought them. -/
def State.clearLows (s : State) : State :=
  if s.teams.any fun t => t.latches.any fun l => l.low.isSome then
    { s with teams := s.teams.map fun t => { t with latches := t.latches.map fun l => { l with low := none } } }
  else s

/-- The armed transfers whose moment a step has brought (R198). -/
def State.settleArms (s : State) : State := (s.fireAll s.armedOps.length).clearLows

/-- Armed transfers held in the table of a core (R144, R198). -/
def State.armedTable (s : State) (cl core : Nat) : List EngOp :=
  s.ops.filter fun o => o.cl == cl && o.core == core && o.stage != .finished && !o.saved && (o.xfer?.any fun x => x.armed.isSome)

/-! ## The words (R194, R195, R198, R199, R328) -/

/-- The ILLEGAL checks of an operand block (R194, R195, R199). -/
def xferIllegal (minor len ctl r7 : Nat) (remote : DWord) : Bool :=
  let rtype := ctl / 2 ^ 16 % 16
  let ap := remote.extractLsb' 44 4 == 0xF
  decide (len < 16) || decide (2 ^ 24 < len) || len % 16 != 0 || ctl / 2 ^ 20 != 0 || ctl / 2 ^ 10 % 8 != 0 || r7 != 0
    || (minor != 1 && (rtype != 0 || ap)) || (minor == 1 && decide (7 ≤ rtype))
    || (ap && (remote.extractLsb' 0 12 != 0 || decide (4096 < len) || (rtype == 0 && len != 128)))
    || (minor == 1 && !ap && rtype == 0 && len % 128 != 0)

/-- `xfer.put`, `xfer.putred` and `xfer.get` (R194, R328). Their counts come from outside the core whatever the form of
the latch reference (R83). -/
def xferDone (minor : Nat) (w : RM) (s : State) (i : Issue) : Done :=
  let t := i.first
  let a := w.a.toNat
  let r := fun k => i.rd t (a + k)
  let va := i.rd2 t a
  let remote := i.rd2 t (a + 2)
  let len := (r 4).toNat
  let ctl := r 5
  let spl := ctl.getLsbD 15
  let rtype := (ctl.extractLsb' 16 4).toNat
  let ref := refOf (ctl.getLsbD 13) (r 6)
  let al := if minor = 1 ∧ rtype = 0 ∧ remote.extractLsb' 44 4 ≠ 0xF then 128 else 16
  let lat := (s.refLatch i.t ref).map fun x => { x with far := true }
  let marks := s.spMarks i.t (r 0) len
  let armed := i.g.arm.map fun x => (x.lk, x.n, (i.t.latch x.lk).phases)
  let x : Xfer :=
    { minor := minor, va := va, marks := marks.getD [], spl := spl, remote := remote, len := len, rtype := rtype,
      dev := (ctl.extractLsb' 0 10).toNat, block := a, armed := armed, entry := s.reduceEntry (remote.extractLsb' 32 12).toNat,
      sent := false, sentAt := 0, sentNo := 0, port := 0, spoiled := false, data := none }
  checked s
    [(xferIllegal minor len ctl.toNat (r 7).toNat remote || (ref.map refIllegal).getD false, cIllegal, i.c.word),
     (!spl && va.extractLsb' 48 16 != 0, cXlate, va.extractLsb' 32 32),
     (remote.extractLsb' 48 16 != 0, cXlate, remote.extractLsb' 32 32),
     (spl && ((r 0).extractLsb' 30 2 != 0 || marks.isNone), cSpRange, r 0),
     (!spl && va.toNat % al != 0, cMisalign, r 0), (remote.toNat % al != 0, cMisalign, r 2),
     (spl && (r 0).toNat % al != 0, cMisalign, r 0),
     (s.refBad i.t ref, cSpRange, ref.getD 0), (i.subsetHyp != 0, cHypRemote, 0)]
    (releaseWord i s .system (
      if 255 ≤ s.counter i.c.uid i.c.gid 3 ∨ s.acquiring i ∨ (armed.isSome ∧ 64 ≤ (s.armedTable i.t.cl (i.t.coreOf i.c.gid)).length) then
        retry s i
      else
        let s := if armed.isSome then s.settleArms else s
        let o := i.op s 3 lat (ctl.getLsbD 14) .running (.xfer x)
        let s := (s.addOp o).mapGroup i.c.uid i.c.gid fun g => { g with arm := none }
        nothing ((s.sendXfer o.id).armedFire o.id)))

/-- Groups of a core with an `arm` that waits for its transfer: each has an entry of the table kept for it (R144). -/
def State.armsPending (s : State) (cl core uid gid : Nat) : Nat :=
  (s.teamsOn cl core).foldl (fun n t =>
    n + ((List.range t.groups.length).filter fun k =>
      t.coreOf k == core && !(t.uid == uid && k == gid) && (t.groups[k]?.bind (·.arm)).isSome).length) 0

/-- `xfer.arm` (R144, R198, R328). -/
def xferArmDone (w : RM) (s : State) (i : Issue) : Done :=
  let n := i.srcA w i.first
  if n.getLsbD 31 then allTrap s cIllegal i.c.word
  else if i.subsetHyp ≠ 0 then allTrap s cHypRemote 0
  else if 64 ≤ (s.armedTable i.t.cl (i.t.coreOf i.c.gid)).length + s.armsPending i.t.cl (i.t.coreOf i.c.gid) i.c.uid i.c.gid then
    retry s i
  else nothing (s.mapGroup i.c.uid i.c.gid fun g => { g with arm := some { lk := w.d.toNat, n := n.toNat } })

/-- `xfer.disarm` (R198, R328). -/
def xferDisarmDone (w : RM) (s : State) (i : Issue) : Done :=
  if i.subsetHyp ≠ 0 then allTrap s cHypRemote 0
  else
    let mine := (s.classOps i.c.uid i.c.gid 3).filter fun o =>
      o.stage != .finished && (o.xfer?.any fun x => x.armed.isSome)
    let s := mine.foldl (fun s o =>
      match o.xfer? with
      | some x => (s.mapXfer o.id fun x => { x with armed := none }).endTransfer o x 0
      | none => s) s
    { nothing (s.mapGroup i.c.uid i.c.gid fun g => { g with arm := none }) with
        res := fun _ => [(w.d.toNat, BitVec.ofNat 32 mine.length)] }

/-! ## Events -/

/-- The answer to a transfer (R194, R196, R201, R429). -/
def State.xferResponse (s : State) (oid : Nat) (reply : XferReply) : State :=
  match s.op? oid with
  | none => s
  | some o =>
    match o.xfer? with
    | none => s
    | some x =>
      if !x.sent ∨ o.stage = .finished ∨ o.saved ∨ x.data.isSome ∨ x.spoiled then s
      else match reply with
        | .done data =>
          if x.aperture then s
          else if x.minor = 2 then if data.length = x.len then s.xferLand o x data else s
          else (s.countParts o x.len).endOp oid
        | .noRoute => s.endTransfer o x 1
        | .linkDown => if s.ports.any Port.usable then s else s.endTransfer o x 2
        | .remoteFault => s.endTransfer o x 3
        | .apRefused => s.endTransfer o x 4

/-- A transfer ends at 10 ms without an answer (R196). -/
def State.xferTimeout (s : State) (oid : Nat) : State :=
  match s.op? oid with
  | none => s
  | some o =>
    match o.xfer? with
    | none => s
    | some x =>
      if x.sent ∧ o.stage ≠ .finished ∧ !o.saved ∧ x.data.isNone ∧ x.sentAt + Config.xferTimeout ≤ s.now then s.endTransfer o x 5
      else s

/-- The transfers whose 10 ms are over end (R196). -/
def State.timeoutsDue (s : State) : State :=
  (s.ops.filter fun o => o.xfer?.any fun x => x.sent && decide (x.sentAt + Config.xferTimeout ≤ s.now)).foldl
    (fun s o => s.xferTimeout o.id) s

/-- A down message of the aperture (R199, R200): the reduced chunk is written over its own source. One whose length or
RTYPE differs is discarded, and its transfer ends with TIMEOUT whatever comes later. -/
def State.downMessage (s : State) (oid rtype : Nat) (data : List Byte) : State :=
  match s.op? oid with
  | none => s
  | some o =>
    match o.xfer? with
    | none => s
    | some x =>
      if !x.sent ∨ !x.aperture ∨ o.stage = .finished ∨ o.saved ∨ x.data.isSome ∨ x.spoiled then s
      else if rtype = x.rtype ∧ data.length = x.len then s.xferLand o x data
      else s.mapXfer oid fun x => { x with spoiled := true }

/-- A transfer held on a fault of its local range goes on (R419). -/
def State.resumeXfer (s : State) (oid : Nat) : State :=
  match s.op? oid with
  | none => s
  | some o =>
    match o.xfer? with
    | none => s
    | some x => match x.data with
      | some data => s.xferLand o x data
      | none => s.sendXfer oid

/-! ## Requests of peer devices (R195, R197) -/

/-- Element size and operation of an RTYPE (R195). -/
def rtypeOp (rtype : Nat) : Nat × AtomOp :=
  (if rtype % 2 = 1 then 4 else 8, if rtype ≤ 2 then .add else if rtype ≤ 4 then .maxS else .minS)

/-- One 16-byte part, or one image, of a put or putred applied at its home slices (R194, R195), with the largest
completion time so far (R74); `tracked` says that its page is tracked host memory (R98). -/
def State.remotePart (x : State × Nat) (req : RemoteRequest) (tracked : Bool) (pa : Nat) (bytes : List Byte) : State × Nat :=
  let s := x.1.gainSectors tracked pa bytes.length
  if req.minor = 0 then let r := s.commit pa bytes; (r.1, max x.2 r.2)
  else if req.rtype = 0 then let r := s.sliceMerge pa (LongAcc.ofImageRaw bytes); (r.1, max x.2 r.2)
  else
    let z := (rtypeOp req.rtype).1
    (List.range (bytes.length / z)).foldl (fun x k =>
      let r := x.1.sliceAtomic (rtypeOp req.rtype).2 (pa + z * k) z (leNat ((bytes.drop (z * k)).take z)) 0
      (r.1, max x.2 r.2.2)) (s, x.2)

/-- The slot of a pod job (R197). -/
def State.podSlot (s : State) (job : BitVec 16) : Option Slot :=
  s.slots.find? fun sl => sl.en && sl.podjob.getLsbD 31 && sl.podjob.extractLsb' 0 16 == job

/-- The request is answered. -/
def State.answer (s : State) (req : RemoteRequest) (ok : Bool) (data : List Byte) : State :=
  { s with output := s.output ++ [.remote req ok data] }

/-- The acknowledgements that may go now: the bytes of their requests are settled (R79, R194). -/
def State.sendAcks (s : State) : State :=
  (s.remoteAcks.filter fun a => decide (a.time ≤ s.now)).foldl (fun s a => s.answer a.req true [])
    { s with remoteAcks := s.remoteAcks.filter fun a => !decide (a.time ≤ s.now) }

/-- The acknowledgement of a request whose writes are complete at `c`: it goes once they are settled (R79, R194). -/
def State.oweAnswer (s : State) (req : RemoteRequest) (c : Nat) : State :=
  { s with remoteAcks := s.remoteAcks ++ [{ req := req, time := c + Config.skew }] }

/-- A request of a peer handled in a slot (R197): `n` is its number when it is held on a fault. DESIGN CHOICE: the source
word of the fault entry it is held on is zero, since no core of this device makes the access (log 44). -/
def State.serveRemote (s : State) (sl : Slot) (req : RemoteRequest) (n : Nat) : State :=
  let acc : AccessKind := if req.minor = 2 then .read else .write
  let step := if req.minor = 1 ∧ req.rtype = 0 then 128 else 16
  let vas := (List.range (req.len / step)).map fun k => req.va.toNat + step * k
  let first := vas.findSome? fun va =>
    if 2 ^ 48 ≤ va then some (va, 0, 0)
    else match s.translate sl va acc with
      | .ok _ _ _ => none
      | .untracked => some (va, 0, 0)
      | .bad kind level => some (va, kind, level)
  match first with
  | some (va, kind, level) =>
    if kind = 0 ∨ kind = kPerm then s.answer req false []
    else
      { s.raiseFault sl.num va kind (accBits acc true false) level (0, 0, 0) (.remote n) with
          remotes := s.remotes ++ [{ id := n, slot := sl.num, req := req }] }
  | none =>
    let pages := vas.map fun va => match s.translate sl va acc with
      | .ok pa bits _ => (pa, bits.testBit 4)
      | _ => (0, false)
    let s := vas.foldl (fun s va => match s.translate sl va acc with
      | .ok _ _ e => s.tlbFill e
      | _ => s) s
    if req.minor = 2 then
      let r := pages.foldl (fun (r : State × List Byte) p => let x := r.1.sliceRead p.1 16; (x.1, r.2 ++ x.2)) (s, [])
      r.1.answer req true r.2
    else
      let r := pages.foldl (fun (r : (State × Nat) × List Byte) p =>
        (State.remotePart r.1 req p.2 p.1 (r.2.take step), r.2.drop step)) ((s, s.now), req.data)
      r.1.1.oweAnswer req r.1.2

/-- A put, putred or get request of a peer device arrives (R197). -/
def State.remoteRequest (s : State) (req : RemoteRequest) : State :=
  match s.podSlot req.job with
  | none => s.answer req false []
  | some sl => { s with nextId := s.nextId + 1 }.serveRemote sl req s.nextId

/-- A held request is tried again, or ends when the driver fails its fault (R197, R419). -/
def State.resumeRemote (s : State) (n : Nat) (failed : Bool) : State :=
  match s.remotes.find? fun r => r.id == n with
  | none => s
  | some r =>
    let s := { s with remotes := s.remotes.filter fun x => x.id != n }
    if failed then s.answer r.req false [] else s.serveRemote (s.slot r.slot) r.req n

/-- XFER_PUT (R328): Writes local data to a remote device. -/
def execXferPut (w : RM) (s : State) : Host.Outcome State Fault Refusal :=
  issueWord (.rm 0x76 0 .one { d := true, l := true } w) (xferDone 0 w) s

/-- XFER_PUTRED (R328): Combines local data into a remote device or an aperture reduce. -/
def execXferPutred (w : RM) (s : State) : Host.Outcome State Fault Refusal :=
  issueWord (.rm 0x76 1 .one { d := true, l := true } w) (xferDone 1 w) s

/-- XFER_GET (R328): Reads remote data into local memory. -/
def execXferGet (w : RM) (s : State) : Host.Outcome State Fault Refusal :=
  issueWord (.rm 0x76 2 .one { d := true, l := true } w) (xferDone 2 w) s

/-- XFER_ARM (R328): Arms the group's next transfer on a latch threshold. -/
def execXferArm (w : RM) (s : State) : Host.Outcome State Fault Refusal :=
  issueWith (.rm 0x76 3 .one {} w) (fun _ x => !x.getLsbD 31) (fun _ l => l)
    (xferArmDone w) s

/-- XFER_DISARM (R328): Discards the group's unfired armed transfers. -/
def execXferDisarm (w : RM) (s : State) : Host.Outcome State Fault Refusal :=
  issueWord (.rm 0x76 4 .one { a := true, ka := true, ea := true, l := true } w) (xferDisarmDone w) s

end Sys2Proof.Machine
end

