-- ==== Sys2Proof/Machine/Matrix.lean ====
section
/-! DEFINITION. The matrix engine (R164 to R179, R330 to R337, R339): the step, tile slots and their order, scaling,
the operand fetcher, drains, and the words that command them. -/

namespace Sys2Proof.Machine

open Sys2Proof

/-! ## Formats (R165, R167) -/

/-- Bytes of an element of an operand code; none for a code that R167 refuses and for the unconfigured one. -/
def codeSize (c : Nat) : Option Nat :=
  if c < 0x40 then (N8.ofByte c).map fun _ => 1
  else if c ≤ 0x41 then some 1
  else if c = 0x42 then some 2
  else if c = 0x43 then some 4
  else none

/-- AFMT (R167). -/
def aFmt (cfg : Word) : Nat := (cfg.extractLsb' 0 8).toNat
/-- BFMT (R167). -/
def bFmt (cfg : Word) : Nat := (cfg.extractLsb' 8 8).toNat

/-- The checks of a write of `mcfg` (R167). -/
def mcfgOk (x : Word) : Bool :=
  x == 0 || (x.extractLsb' 16 16 == 0 && (codeSize (aFmt x)).isSome && codeSize (aFmt x) == codeSize (bFmt x))

/-- Bytes of an element under `mcfg` (R165). -/
def mcfgSize (cfg : Word) : Nat := (codeSize (aFmt cfg)).getD 1

/-- The datum of an element (R102, R165, R167). -/
def codeVal (c x : Nat) : FVal :=
  if c = 0x40 then .ofInt (asSigned 1 x)
  else if c = 0x41 then .ofInt x
  else if c = 0x42 then bf16.read x
  else if c = 0x43 then fp32.read x
  else match N8.ofByte c with
    | some f => f.read x
    | none => .fin false 0 0

/-! ## The step (R164) -/

/-- One element of a step: the products of a row of A and a column of B, each 64 bytes, added exactly. -/
def dotRow (cfg : Word) (a b : List Byte) (c : LongAcc) : LongAcc × Word :=
  let z := mcfgSize cfg
  (List.range (64 / z)).foldl (fun r k =>
    let x := r.1.addProd (codeVal (aFmt cfg) (fieldAt a (z * k) z)) (codeVal (bFmt cfg) (fieldAt b (z * k) z))
    (x.1, r.2 ||| x.2)) (c, 0)

/-- Row or column `n` of a block. -/
def blockRow (l : List Byte) (n : Nat) : List Byte := (l.drop (64 * n)).take 64

/-- A step on a tile, with the flags of its terms. -/
def applyStep (cfg : Word) (a b : List Byte) (tile : List LongAcc) : List LongAcc × Word :=
  let out := tile.mapIdx fun n c => dotRow cfg (blockRow a (n / 16)) (blockRow b (n % 16)) c
  (out.map (·.1), out.foldl (fun w x => w ||| x.2) 0)

/-! ## Tile slots (R170, R171) -/

/-- The place of a slot of one of the team's cores among its tiles (R26, R170). -/
def Team.tileIdx (t : Team) (core slot : Nat) : Nat := (core - t.core) * t.record.slots + slot

/-- The elements of a tile. -/
def State.tile (s : State) (uid n : Nat) : List LongAcc := ((s.team? uid).bind fun t => t.tiles[n]?).getD []

/-- The elements of a tile replaced. -/
def State.setTile (s : State) (uid n : Nat) (l : List LongAcc) : State :=
  s.mapTeam uid fun t => { t with tiles := t.tiles.set n l }

/-- The tile of a command's slot field. -/
def State.ownTile (s : State) (o : EngOp) (slot : Nat) : Nat := ((s.team? o.uid).map fun t => t.tileIdx o.core slot).getD slot

/-- The tiles a command still touches, each with its place in the tile's order (R171). A peer drain is done with its own
slot once it has read it, and takes its place at the target when it reaches it. -/
def State.touches (s : State) (o : EngOp) : List (Nat × Nat × Nat) :=
  let own := fun slot => (o.uid, s.ownTile o slot, o.id)
  match o.body with
  | .mma slot _ _ _ => [own slot]
  | .mloop l => [own l.slot]
  | .mscale dst src _ _ => [own dst, own src]
  | .mzero slot => [own slot]
  | .mdrain slot (.peer uid tile _ vals pos) _ _ =>
    (if vals.isNone then [own slot] else []) ++ (if pos = 0 then [] else [(uid, tile, pos)])
  | .mdrain slot _ _ _ => [own slot]
  | _ => []

/-- The command's turn at a tile has come: every earlier command on it has done its last step (R171). -/
def State.turn (s : State) (o : EngOp) (uid tile pos : Nat) : Bool :=
  !(s.ops.any fun x => x.id != o.id && x.stage != .finished && !x.saved &&
    (s.touches x).any fun y => y.1 == uid && y.2.1 == tile && decide (y.2.2 < pos))

/-- The turn of a command at its own slot. -/
def State.ownTurn (s : State) (o : EngOp) (slot : Nat) : Bool := s.turn o o.uid (s.ownTile o slot) o.id

/-! ## Scaling (R176) -/

/-- An element of `mscale`: the new element of m_d, and whether a bit was lost. -/
def scaleElem (d x : LongAcc) (sa sb : Nat) : LongAcc × Bool :=
  if sa = 0xFF ∨ sb = 0xFF then ({ d with nan := true }, false)
  else
    let r := x.shift ((sa : Int) + sb - 254)
    (d.merge r.1, r.2 != 0)

/-- `mscale` applied (R176). -/
def State.scaleTile (s : State) (o : EngOp) (dst src : Nat) (sa sb : List Byte) : State :=
  let d := s.tile o.uid (s.ownTile o dst)
  let x := s.tile o.uid (s.ownTile o src)
  let out := d.mapIdx fun n c =>
    scaleElem c (x.getD n LongAcc.zero) ((sa.getD (n / 16) 0).toNat) ((sb.getD (n % 16) 0).toNat)
  let s := (s.setTile o.uid (s.ownTile o dst) (out.map (·.1))).setTile o.uid (s.ownTile o src) (x.map fun _ => LongAcc.zero)
  if out.any (·.2) then s.mapGroup o.uid o.gid fun g => { g with mLoss := true } else s

/-! ## Steps of the engine -/

/-- The next step of a loop (R174). -/
def State.loopStep (s : State) (o : EngOp) (l : Loop) : State :=
  match l.fetched with
  | [] => s
  | (a, b) :: rest =>
    let n := s.ownTile o l.slot
    let r := applyStep l.cfg a b (s.tile o.uid n)
    let s := ((s.setTile o.uid n r.1).opFlags o.id r.2).setBody o.id
      (.mloop { l with applied := l.applied + 1, fetched := rest })
    if l.steps ≤ l.applied + 1 then s.endOp o.id else s

/-- A step of `mma` or `mloop`, or the whole of `mscale` or `mzero`, is applied when its turn has come (R164, R171). -/
def State.matrixStep (s : State) (oid : Nat) : State :=
  match s.op? oid with
  | none => s
  | some o =>
    if !o.working then s
    else
      match o.body with
      | .mma slot cfg a b =>
        if !s.ownTurn o slot then s
        else
          let n := s.ownTile o slot
          let r := applyStep cfg a b (s.tile o.uid n)
          ((s.setTile o.uid n r.1).opFlags oid r.2).endOp oid
      | .mloop l => if s.ownTurn o l.slot then s.loopStep o l else s
      | .mscale dst src sa sb =>
        if s.ownTurn o dst ∧ s.ownTurn o src then (s.scaleTile o dst src sa sb).endOp oid else s
      | .mzero slot =>
        if s.ownTurn o slot then
          (s.setTile o.uid (s.ownTile o slot) (List.replicate 256 LongAcc.zero)).endOp oid
        else s
      | _ => s

/-! ## The operand fetcher (R172, R173) -/

/-- The bytes of elements in order, zeros of `n` bytes for those that have no address. -/
def fillIn (n : Nat) : List (Option Nat) → List (List Byte) → List Byte
  | [], _ => []
  | none :: rest, data => List.replicate n 0 ++ fillIn n rest data
  | some _ :: rest, data => data.headD [] ++ fillIn n rest data.tail

/-- The indices of a block of 16 rows or columns, dimension 0 along K. -/
def blockIdx (perRow : Nat) : List (List Nat) :=
  (List.range (16 * perRow)).map fun k => [k % perRow, k / perRow, 0, 0]

/-- A block of one step read through its handle (R57, R173). -/
def State.loopBlock (s : State) (o : EngOp) (h : Handle) (org : List Int) (shift : Int) : Except State (State × List Byte) :=
  let origin := org.mapIdx fun k x => if k = 0 then x + shift else x
  match s.blockEntries o h (h.someIn origin [64 / h.es, 16, 1]) 1 (origin.getD 3 0) with
  | .error s => .error s
  | .ok (s, blocks) =>
    let addrs := (blockIdx (64 / h.es)).map fun k => h.element blocks origin k
    if addrs.any fun a => a.any h.badAddr then .error (s.failOp o.id (handleFault 0x40))
    else match s.engLoads o h.es (addrs.filterMap id) with
      | .error s => .error s
      | .ok (s, data) => .ok (s, fillIn h.es addrs data)

/-- The handles of a loop, read once per command and checked (R58, R173). -/
def State.loopHandles (s : State) (o : EngOp) (l : Loop) : Except State (State × Loop × Handle × Handle) :=
  let fits := fun (h : Handle) => h.es == mcfgSize l.cfg
  match s.handleBytes o l.aVa.toNat l.aRaw with
  | .error s => .error s
  | .ok (s, a) =>
    let l := { l with aRaw := some a }
    let s := s.setBody o.id (.mloop l)
    match s.checkedHandle o a false fits with
    | .error s => .error s
    | .ok ha =>
      match s.handleBytes o l.bVa.toNat l.bRaw with
      | .error s => .error s
      | .ok (s, b) =>
        let l := { l with bRaw := some b }
        let s := s.setBody o.id (.mloop l)
        match s.checkedHandle o b false fits with
        | .error s => .error s
        | .ok hb => .ok (s, l, ha, hb)

/-- The fetcher reads the blocks of the next step, at most four steps ahead (R173). A fault of a step takes effect when
that step is the next to be applied, so that a loop that stops on it has applied every step before it (R174). -/
def State.loopFetch (s0 : State) (oid : Nat) : State :=
  match s0.op? oid with
  | none => s0
  | some o =>
    match o.body with
    | .mloop l =>
      let q := l.applied + l.fetched.length
      let bad := fun s => if l.fetched = [] then s else s0
      if !o.working ∨ 4 ≤ l.fetched.length ∨ l.steps ≤ q then s0
      else
        match s0.loopHandles o l with
        | .error s => bad s
        | .ok (s, l, ha, hb) =>
          match s.loopBlock o ha l.aOrg (q * l.aInc) with
          | .error s => bad s
          | .ok (s, a) =>
            match s.loopBlock o hb l.bOrg (q * l.bInc) with
            | .error s => bad s
            | .ok (s, b) => s.setBody oid (.mloop { l with fetched := l.fetched ++ [(a, b)] })
    | _ => s0

/-! ## Drains (R177 to R179) -/

/-- The tile of a drain is read: each element is rounded once (R177). -/
def State.drainRead (s : State) (o : EngOp) (slot : Nat) (dest : DrainTo) (left : List Nat) : State :=
  let r := (s.tile o.uid (s.ownTile o slot)).map fun c => c.round fp32 (modeOf o.round) (satOf o.round)
  (s.setBody o.id (.mdrain slot dest (r.map fun x => BitVec.ofNat 32 x.1) left)).opFlags o.id
    (r.foldl (fun w x => w ||| x.2) 0)

/-- Parts of a row of a global drain: 64 bytes touch at most five aligned 16-byte parts (R86). -/
def drainRowParts : Nat := 5

/-- The columns of row p / 5 that lie in its `p % 5`-th aligned 16-byte part of global memory (R86, R93). -/
def drainCols (h : Handle) (block : Nat) (origin : List Int) (p : Nat) : List Nat :=
  let start := h.addr block (coords origin [0, p / drainRowParts, 0, 0]) % 16
  (List.range 16).filter fun k => (start + 4 * k) / 16 == p % drainRowParts

/-- The addresses of the elements of part `p` of a global drain (R177). -/
def drainAddrs (h : Handle) (block : Nat) (origin : List Int) (p : Nat) : List (Option Nat) :=
  (drainCols h block origin p).map fun k => h.element [block] origin [k, p / drainRowParts, 0, 0]

/-- The words of part `p` of a global drain with the addresses they go to; an element without one is dropped (R57, R177). -/
def drainCells (h : Handle) (block : Nat) (origin : List Int) (vals : List Word) (p : Nat) : List (Nat × Word) :=
  (drainCols h block origin p).filterMap fun k =>
    (h.element [block] origin [k, p / drainRowParts, 0, 0]).map fun va => (va, vals.getD (16 * (p / drainRowParts) + k) 0)

/-- A global drain reads its handle and its table entry and checks its addresses before a byte moves (R57, R58, R337). -/
def State.drainStart (s : State) (o : EngOp) (hva : DWord) (origin : List Int) (raw : Option (List Byte)) :
    Except State (State × DrainTo) :=
  match s.handleBytes o hva.toNat raw with
  | .error s => .error s
  | .ok (s, raw) =>
    match s.checkedHandle o raw false (fun h => h.es == 4) with
    | .error s => .error s
    | .ok h =>
      match s.blockEntries o h (h.someIn origin [16, 16, 1]) 1 (origin.getD 3 0) with
      | .error s => .error s
      | .ok (s, blocks) =>
        let blk := blocks.headD 0
        if (List.range (16 * drainRowParts)).any fun p => (drainAddrs h blk origin p).any fun a => a.any h.badAddr then
          .error (s.failOp o.id (handleFault 0x40))
        else .ok (s, .global hva origin (some raw) (some h) blk)

/-- A part of a drain is done; the last one ends the command. -/
def State.drainDone (s : State) (o : EngOp) (slot : Nat) (dest : DrainTo) (vals : List Word) (left : List Nat) : State :=
  let s := s.setBody o.id (.mdrain slot dest vals left)
  if left = [] then s.endOp o.id else s

/-- The C fragment of a thread (R168, R177). -/
def fragOf (width : Nat) (vals : List Word) (t : Nat) : List Word :=
  let c := fragRegs width
  (vals.drop (16 * (t % 16) + c * (t / 16))).take c

/-- One part of a drain whose tile has been read. -/
def State.drainPart (s : State) (o : EngOp) (slot : Nat) (dest : DrainTo) (vals : List Word) (left : List Nat) (p : Nat) :
    State :=
  let rest := left.erase p
  let four := (vals.drop (16 * (p / 4) + 4 * (p % 4))).take 4
  match dest with
  | .regs d =>
    if !left.contains p then s
    else
      let width := ((s.team? o.uid).map fun t => t.hdr.groupWidth).getD 16
      (s.mapGroup o.uid o.gid fun g =>
        (g.completeRegs false p d o.id (fragOf width vals p)).wake Wait.isReg).drainDone o slot dest vals rest
  | .scratch marks pitch =>
    if !left.contains p then s
    else (s.engSpWrite o marks (pitch * (p / 4) + 16 * (p % 4)) (wordsBytes four)).drainDone o slot dest vals rest
  | .global _ origin _ h blk =>
    match h with
    | none => s
    | some h =>
      if !left.contains p then s
      else
        let own := fun q => (drainAddrs h blk origin q).filterMap id
        let ps := if (own p).length = 4 then [p] else partners own left p
        let rest := left.filter fun q => !ps.contains q
        let addrs := ps.flatMap own
        let s := s.engDrain o .write 4 addrs
        if s.engHeld o .write 4 addrs then s
        else match s.engFirst o .write addrs with
        | some (va, x) => s.blockOp o va .write x
        | none =>
          ((ps.flatMap fun q => drainCells h blk origin vals q).foldl (fun s x =>
            let y := s.engPa o x.1 .write; s.engWrite o y.1 y.2 (leBytes 4 x.2.toNat))
            (s.engFill o .write addrs)).drainDone o slot dest vals rest
  | .queue =>
    let done := left.headD 256
    match (s.group? o.uid o.gid).bind fun g => (g.boundTo 2).map fun q => queueWords - (g.queue q).words.length with
    | none => s
    | some room =>
      let n := min room (256 - done)
      if n = 0 then s
      else match s.pushPort o.uid o.gid 2 ((vals.drop done).take n) with
        | none => s
        | some s => s.drainDone o slot dest vals (if done + n = 256 then [] else [done + n])
  | .peer _ _ _ _ _ => s

/-- A global drain reads its handle, when it could not at issue (R58). -/
def State.drainHandle (s : State) (o : EngOp) (slot : Nat) (dest : DrainTo) (left : List Nat) : State :=
  match dest with
  | .global hva origin none h blk =>
    match s.handleBytes o hva.toNat none with
    | .error s => s
    | .ok (s, raw) => s.setBody o.id (.mdrain slot (.global hva origin (some raw) h blk) [] left)
  | _ => s

/-- The scratchpad pieces that a drain writes. -/
def DrainTo.marks (d : DrainTo) : List Mark :=
  match d with
  | .scratch marks _ => marks
  | _ => []

/-- A drain reads its slot when its turn has come, and then writes part after part (R177, R178). -/
def State.drainWrite (s : State) (oid part : Nat) : State :=
  match s.op? oid with
  | none => s
  | some o =>
    match o.body with
    | .mdrain slot dest vals left =>
      if !o.working then s
      else if vals ≠ [] then (if s.cutOff o dest.marks then s else s.drainPart o slot dest vals left part)
      else if o.handleUnread then s.drainHandle o slot dest left
      else if !s.ownTurn o slot then s
      else match dest with
        | .peer uid tile arr none pos =>
          s.setBody oid (.mdrain slot (.peer uid tile arr (some (s.tile o.uid (s.ownTile o slot))) pos) [] left)
        | .peer _ _ _ (some _) _ => s
        | .global hva origin raw none _ =>
          match s.drainStart o hva origin raw with
          | .error s => s
          | .ok (s, dest) => s.drainRead o slot dest left
        | _ => s.drainRead o slot dest left
    | _ => s

/-- A tile merged into another, element by element (R120). -/
def mergeTile (a b : List LongAcc) : List LongAcc := List.zipWith LongAcc.merge a b

/-- The group's buffered stores of before a command drained (R76). -/
def State.drainBefore (s : State) (o : EngOp) : State :=
  s.drainWhere o.cl o.core fun e => e.uid == o.uid && e.gid == o.gid && decide (e.id < o.id)

/-- The conditions of a release of device class for what the group issued before a command (R76, R179). -/
def State.releasedBefore (s : State) (o : EngOp) : Bool :=
  !((s.groupFlights o.uid o.gid).any fun f => decide (f.id < o.id) || f.size == 0)
    && decide (((s.group? o.uid o.gid).map (·.fhz)).getD 0 + Config.skew ≤ s.now)

/-- A peer drain reaches its target, and is merged there as one command when its turn has come; then it arrives (R171,
R179). One that arrives is a release at clu scope, for which it waits (R83). A merge whose target has exited is dropped;
so is one whose target is saved (DESIGN CHOICE, log 67). -/
def State.peerMerge (s : State) (oid : Nat) : State :=
  match s.op? oid with
  | none => s
  | some o =>
    match o.body with
    | .mdrain slot (.peer uid tile arr (some vals) pos) _ left =>
      if !o.working then s
      else
        let here := if pos = 0 then s.nextId else pos
        let s := if pos = 0 then
            { s.setBody oid (.mdrain slot (.peer uid tile arr (some vals) here) [] left) with nextId := s.nextId + 1 }
          else s
        let s := if arr.isNone then s else s.drainBefore o
        if !s.turn o uid tile here ∨ (arr.isSome ∧ !s.releasedBefore o) ∨ (uid ≠ o.uid ∧ !s.netUp o.cl) then s
        else
          let s := s.setTile uid tile (mergeTile (s.tile uid tile) vals)
          (match arr with
            | some x => s.reachLatch x Latch.arrive
            | none => s).endOp oid
    | _ => s

/-! ## The words (R330 to R337, R339) -/

/-- The whole group runs the word (R168). -/
def Issue.whole (i : Issue) : Bool := i.ts.length == i.g.threads.length

/-- A matrix command (R330). -/
def matrixCommand (i : Issue) (s : State) (body : OpBody) : Done := command i s 1 none false .running body

/-- A block from register fragments (R168). -/
def Issue.fragment (i : Issue) (base : Nat) : List Byte :=
  let width := i.t.hdr.groupWidth
  let c := fragRegs width
  (List.range 16).flatMap fun r =>
    (List.range (width / 16)).flatMap fun p => wordsBytes (i.rdN (r + 16 * p) base c)

/-- `mma` (R332, R333). -/
def mmaDone (w : RR) (s : State) (i : Issue) : Done :=
  if !i.whole ∨ i.g.mcfg = 0 then allTrap s cIllegal i.c.word
  else matrixCommand i s (.mma w.d.toNat i.g.mcfg (i.fragment w.a.toNat) (i.fragment w.b.toNat))

/-- Loops of a group outstanding (R174). -/
def State.loops (s : State) (uid gid : Nat) : Nat :=
  ((s.classOps uid gid 1).filter fun o =>
    match o.body with
    | .mloop _ => true
    | _ => false).length

/-- A signed register. -/
def Issue.rdS (i : Issue) (n : Nat) : Int := (i.rd i.first n).toInt

/-- `mloop` (R172, R174, R334): its handles are read at issue when they can be (R58). -/
def mloopDone (w : RR) (s : State) (i : Issue) : Done :=
  let t := i.first
  let a := w.a.toNat
  let aVa := i.rd2 t a
  let bVa := i.rd2 t (a + 2)
  let n := (i.rd t (a + 14)).toNat
  let l : Loop :=
    { slot := w.d.toNat, cfg := i.g.mcfg, aVa := aVa, bVa := bVa, aOrg := (List.range 4).map fun k => i.rdS (a + 4 + k),
      bOrg := (List.range 4).map fun k => i.rdS (a + 8 + k), aInc := i.rdS (a + 12), bInc := i.rdS (a + 13), steps := n,
      applied := 0, aRaw := none, bRaw := none, fetched := [] }
  let o := fun (s : State) => i.op s 1 none false .running (.mloop l)
  checked s
    [(decide (n = 0) || decide (65535 < n) || i.rd t (a + 15) != 0 || i.g.mcfg == 0, cIllegal, i.c.word),
     (aVa.extractLsb' 48 16 != 0, cXlate, aVa.extractLsb' 32 32),
     (bVa.extractLsb' 48 16 != 0, cXlate, bVa.extractLsb' 32 32),
     (aVa.extractLsb' 0 6 != 0, cMisalign, aVa.extractLsb' 0 32), (bVa.extractLsb' 0 6 != 0, cMisalign, bVa.extractLsb' 0 32)]
    (if 4 ≤ s.loops i.c.uid i.c.gid ∨ 255 ≤ s.counter i.c.uid i.c.gid 1 ∨ s.acquiring i ∨ s.accessing i then retry s i
     else
       let x := s.readHandle (o s) aVa.toNat
       let y := x.1.readHandle (o x.1) bVa.toNat
       matrixCommand i y.1 (.mloop { l with aRaw := x.2, bRaw := y.2 }))

/-- `mscale` (R176, R335). -/
def mscaleDone (w : RR) (s : State) (i : Issue) : Done :=
  let b := w.b.toNat
  matrixCommand i s (.mscale w.d.toNat w.a.toNat (wordsBytes (i.rdN i.first b 4)) (wordsBytes (i.rdN i.first (b + 4) 4)))

/-- `mzero` (R170, R339). -/
def mzeroDone (w : RM) (s : State) (i : Issue) : Done := matrixCommand i s (.mzero w.d.toNat)

/-- `mdrain.r` (R336, R337). -/
def mdrainRDone (w : RM) (s : State) (i : Issue) : Done :=
  let d := w.d.toNat
  if !i.whole then allTrap s cIllegal i.c.word
  else
    { matrixCommand i s (.mdrain w.a.toNat (.regs d) [] (List.range i.g.threads.length)) with
        pend := fun _ => (List.range (fragRegs i.t.hdr.groupWidth)).map fun k => (d + k, s.nextId) }

/-- `mdrain.sp` (R336). -/
def mdrainSpDone (w : RM) (s : State) (i : Issue) : Done :=
  let base := i.rd i.first w.a.toNat
  let pitch := (i.rd i.first (w.a.toNat + 1)).toNat
  let marks := s.spMarks i.t base (15 * pitch + 64)
  checked s
    [(decide (pitch < 64), cIllegal, i.c.word), (marks.isNone, cSpRange, base),
     (base.extractLsb' 0 4 != 0 || pitch % 16 != 0, cMisalign, base)]
    (matrixCommand i s (.mdrain w.d.toNat (.scratch (marks.getD []) pitch) [] (List.range 64)))

/-- `mdrain.gl` (R336, R337): its handle is read at issue when it can be (R58). -/
def mdrainGlDone (w : RM) (s : State) (i : Issue) : Done :=
  let t := i.first
  let a := w.a.toNat
  let hva := i.rd2 t a
  checked s
    [(i.rd t (a + 6) != 0 || i.rd t (a + 7) != 0, cIllegal, i.c.word),
     (hva.extractLsb' 48 16 != 0, cXlate, hva.extractLsb' 32 32), (hva.extractLsb' 0 6 != 0, cMisalign, hva.extractLsb' 0 32)]
    (if 255 ≤ s.counter i.c.uid i.c.gid 1 ∨ s.acquiring i ∨ s.accessing i then retry s i
     else
       let body := fun raw => OpBody.mdrain w.d.toNat (.global hva ((i.rdN t (a + 2) 4).map BitVec.toInt) raw none 0) []
         (List.range (16 * drainRowParts))
       let x := s.readHandle (i.op s 1 none false .running (body none)) hva.toNat
       matrixCommand i x.1 (body x.2))

/-- The fields of a slot reference that give ILLEGAL (R179). -/
def slotRefIllegal (w : Word) : Bool :=
  w.extractLsb' 10 7 != 0 || w.getLsbD 8 || w.extractLsb' 2 2 != 0
    || (w.extractLsb' 30 2 == 0 && w.extractLsb' 17 13 != 0)

/-- `mdrain.peer` (R179, R336). Its arrival counts from outside the core whatever the form (R83). A reference to the
drained slot itself is taken, and the slot added to itself (log 64: the spec gives no trap for it). -/
def mdrainPeerDone (w : RM) (s : State) (i : Issue) : Done :=
  let r := i.srcA w i.first
  let slot := (r.extractLsb' 0 2).toNat
  let here := i.t.coreOf i.c.gid
  let far := r.extractLsb' 30 2 != 0
  let core := if far then (r.extractLsb' 22 8).toNat else here
  let dst := (s.refTeam i.t r).filter fun x => decide (slot < x.record.slots)
  if slotRefIllegal r then allTrap s cIllegal i.c.word
  else match dst with
    | none => allTrap s cSpRange r
    | some x =>
      let arr : Option LatchTarget := if r.getLsbD 9 then some { uid := x.uid, lk := (r.extractLsb' 4 4).toNat, far := true } else none
      matrixCommand i s (.mdrain w.d.toNat
        (.peer x.uid (x.tileIdx core slot) arr none (if core = here then s.nextId else 0)) [] [0])

/-- `mdrain.q` (R336). -/
def mdrainQDone (w : RM) (s : State) (i : Issue) : Done :=
  if (i.g.boundTo 2).isNone then allTrap s cQueue 0xFFFFFFFF
  else matrixCommand i s (.mdrain w.d.toNat .queue [] [0])

/-- A write of csr `mcfg` (R167, R339, R341). -/
def writeMcfg (s : State) (i : Issue) (x : Word) : Done :=
  if mcfgOk x then nothing (s.mapGroup i.c.uid i.c.gid fun g => { g with mcfg := x }) else allTrap s cIllegal i.c.word

/-- `mcfg` (R339). -/
def mcfgDone (w : RM) (s : State) (i : Issue) : Done := writeMcfg s i (i.srcA w i.first)

/-- The slots a command of a group names (R175). -/
def OpBody.slots (b : OpBody) : List Nat :=
  match b with
  | .mma slot _ _ _ => [slot]
  | .mloop l => [l.slot]
  | .mscale dst src _ _ => [dst, src]
  | .mzero slot => [slot]
  | .mdrain slot _ _ _ => [slot]
  | _ => []

/-- The matrix status of a group (R175). -/
def State.matrixStatus (s : State) (uid gid : Nat) (g : Group) : Word :=
  let busy := (s.classOps uid gid 1).flatMap fun o => o.body.slots
  BitVec.ofNat 32 (g.mSteps * 2 ^ 16 + g.mCause * 2 ^ 13 + (if g.mLoss then 2 ^ 12 else 0)
    + ((List.range 4).map fun k => if busy.contains k then 2 ^ (4 + k) else 0).sum + s.loops uid gid)

/-- `mstat` (R175, R339). -/
def mstatDone (w : RM) (s : State) (i : Issue) : Done :=
  { nothing (s.mapGroup i.c.uid i.c.gid fun g => { g with mLoss := false }) with
      res := fun _ => [(w.d.toNat, s.matrixStatus i.c.uid i.c.gid i.g)] }

/-- MMA (R333): Applies one matrix step from register fragments into a tile slot. -/
def execMma (w : RR) (s : State) : Host.Outcome State Fault Refusal :=
  issueWord (.rr 0x78 .zero { l := true } w) (mmaDone w) s

/-- MLOOP (R334): Runs a sequence of matrix steps fetched through tile handles. -/
def execMloop (w : RR) (s : State) : Host.Outcome State Fault Refusal :=
  issueWord (.rr 0x79 .one { b := true, kb := true, eb := true, l := true } w) (mloopDone w) s

/-- MSCALE (R335): Merges a scaled source slot into a destination slot and clears the source. -/
def execMscale (w : RR) (s : State) : Host.Outcome State Fault Refusal :=
  issueWord (.rr 0x7A .one { ka := true, ea := true, l := true } w) (mscaleDone w) s

/-- MDRAIN_R (R336): Rounds a slot to FP32 into register fragments. -/
def execMdrainR (w : RM) (s : State) : Host.Outcome State Fault Refusal :=
  issueWord (.rm 0x7B 0 .zero { ka := true, ea := true, l := true } w) (mdrainRDone w) s

/-- MDRAIN_SP (R336): Rounds a slot to FP32 into scratchpad. -/
def execMdrainSp (w : RM) (s : State) : Host.Outcome State Fault Refusal :=
  issueWord (.rm 0x7B 1 .any { l := true } w) (mdrainSpDone w) s

/-- MDRAIN_GL (R336): Rounds a slot to FP32 into global memory through a tile handle. -/
def execMdrainGl (w : RM) (s : State) : Host.Outcome State Fault Refusal :=
  issueWord (.rm 0x7B 2 .any { l := true } w) (mdrainGlDone w) s

/-- MDRAIN_PEER (R336): Sends a slot's exact elements to merge into a peer slot. -/
def execMdrainPeer (w : RM) (s : State) : Host.Outcome State Fault Refusal :=
  issueWith (.rm 0x7B 3 .any {} w) (fun _ x => !slotRefIllegal x) (fun _ l => l)
    (mdrainPeerDone w) s

/-- MDRAIN_Q (R336): Rounds a slot to FP32 into the group's MDRAIN queue. -/
def execMdrainQ (w : RM) (s : State) : Host.Outcome State Fault Refusal :=
  issueWord (.rm 0x7B 4 .any { a := true, ka := true, ea := true, l := true } w) (mdrainQDone w) s

/-- MZERO (R339): Sets every element of a slot to zero with status clear. -/
def execMzero (w : RM) (s : State) : Host.Outcome State Fault Refusal :=
  issueWord (.rm 0x7D 0 .any { a := true, ka := true, ea := true, l := true } w) (mzeroDone w) s

/-- MCFG (R339): Writes the matrix format register. -/
def execMcfg (w : RM) (s : State) : Host.Outcome State Fault Refusal :=
  issueWith (.rm 0x7D 1 .any { d := true } w) (fun _ => mcfgOk) (fun _ l => l)
    (mcfgDone w) s

/-- MSTAT (R339): Returns the group's matrix status and clears LOSS. -/
def execMstat (w : RM) (s : State) : Host.Outcome State Fault Refusal :=
  issueWord (.rm 0x7D 3 .any { a := true, ka := true, ea := true, l := true } w) (mstatDone w) s

end Sys2Proof.Machine
end

