-- ==== Sys2Proof/Machine/Factor.lean ====
section
/-! DEFINITION. The factor unit (R180 to R186, R338 to R340): Cholesky factors with their pivots, triangular solves. -/

namespace Sys2Proof.Machine

open Sys2Proof

/-! ## The factor region (R180) -/

/-- Bytes of a region of order `n` (R180, R338). -/
def factBytes (n : Nat) : Nat := 64 + 4 * n * n

/-- The tag of a region (R180). -/
def factTag (n : Nat) : Nat := n + 0x01 * 2 ^ 8 + 0x07 * 2 ^ 16

/-- The fields of a header that a warm start checks (R180, R181); a captured MODE is 0 to 4 (log 26). -/
def warmOk (n : Nat) (l : List Byte) : Bool :=
  fieldAt l 0 4 == factTag n && decide (fieldAt l 4 4 ≤ n) && fieldAt l 9 1 / 16 == 0 && decide (fieldAt l 9 1 % 8 ≤ 4)
    && fieldAt l 10 1 / 4 == 0 && fieldAt l 11 1 == 0 && (l.drop 28).all (· == 0)

/-- The header that a cold start writes (R181). -/
def coldHeader (n : Nat) (round pivm pivt pivd : Word) : List Byte :=
  leBytes 4 (factTag n) ++ leBytes 4 0 ++ leBytes 1 1 ++ leBytes 1 (round.toNat % 16) ++ leBytes 1 (pivm.toNat % 4)
    ++ leBytes 1 0 ++ leBytes 4 0 ++ leBytes 4 pivt.toNat ++ leBytes 4 pivd.toNat ++ leBytes 4 0xFFFFFFFF
    ++ List.replicate 36 0

/-- Offset of element (i, j) of a region of order `n` from its header (R180). -/
def factAt (n i j : Nat) : Nat := 64 + 4 * (n * i + j)

/-! ## Exact arithmetic of the unit (R182, R186) -/

/-- The number an accumulator holds (R116, R121). -/
def LongAcc.datum (c : LongAcc) : FVal :=
  if c.nan || (c.pinf && c.ninf) then .nan false
  else if c.pinf then .inf false
  else if c.ninf then .inf true
  else .fin (c.value < 0) c.value.natAbs (-320)

/-- x minus the sum of the products of two lists of FP32 data, exact, with the flags of its terms (R117, R182). -/
def minusDot (x : Nat) (l m : List Nat) : LongAcc × Word :=
  (l.zip m).foldl (fun r p =>
    let y := r.1.addProd (fp32.read p.1).negate (fp32.read p.2)
    (y.1, r.2 ||| y.2)) (LongAcc.zero.addVal (fp32.read x))

/-- A rounding whose overflow saturates under SAT (R107). -/
def satOver (sat : Bool) (r : Nat × Word) : Nat × Word :=
  if sat ∧ r.2.getLsbD 2 then (fp32.max (decide (2 ^ 31 ≤ r.1)), flagSAT ||| flagNX) else r

/-- An exact numerator divided by an FP32 datum, rounded once (R182, R186). -/
def divOnce (round : Word) (x : FVal) (y : Nat) : Nat × Word :=
  satOver (satOf round) (fp32.div (modeOf round) x (fp32.read y))

/-- The diagonal element of an exact d (R182). -/
def rootOnce (round : Word) (d : FVal) : Nat × Word :=
  if d.isNan ∨ !(FVal.lt (.fin false 0 0) d) then (fp32.nan, flagIV) else satOver (satOf round) (Fn.eval .sqrt (modeOf round) d)

/-- d is flagged: a NaN, or at most the threshold (R182). DESIGN CHOICE: a NaN threshold flags no number and raises no IV
(log 64). -/
def pivotFlagged (d pthr : FVal) : Bool := d.isNan || (!pthr.isNan && !pthr.lt d)

/-- d after regularisation in pivot modes 1 to 3, with the IV of a signalling pdelta (R182). -/
def regularise (pmode : Nat) (c : LongAcc) (pdelta : Nat) : FVal × Word :=
  let d := c.datum
  let p := fp32.read pdelta
  let fl := if p.isSig then flagIV else 0
  if d.isNan ∨ pmode = 3 then (p, fl)
  else if pmode = 1 then ((c.addVal p).1.datum, fl)
  else (if p.isNan then d else if d.lt p then p else d, fl)

/-! ## mfact (R181 to R185, R338) -/

/-- The mark of a team-relative range. -/
def ownMark (uid : Nat) (addr : Word) : List Mark := [{ start := 0, uid := uid, off := addr.toNat % 2 ^ 30 }]

/-- A region of an unfinished factor of a team overlaps bytes of its scratchpad. -/
def State.factBusy (s : State) (uid lo n : Nat) : Bool :=
  s.ops.any fun o =>
    match o.body with
    | .mfact hdr m _ => o.uid == uid && o.stage != .finished && decide (hdr.toNat < lo + n) && decide (lo < hdr.toNat + factBytes m)
    | _ => false

/-- `mfact.chol` (R181, R338): its header is read once an earlier factor of the region has ended (log 26). -/
def mfactDone (w : RR) (s : State) (i : Issue) : Done :=
  let hdr := i.rd i.first w.a.toNat
  let n := (i.srcB w i.first).toNat
  checked s
    [(decide (n = 0) || decide (32 < n), cIllegal, i.c.word), (hdr.extractLsb' 30 2 != 0, cSpRange, hdr),
     (hdr.extractLsb' 0 6 != 0, cMisalign, hdr), ((s.spMarks i.t hdr (factBytes n)).isNone, cSpRange, hdr)]
    (if s.factBusy i.c.uid hdr.toNat (factBytes n) ∨ s.acquiring i then retry s i
     else
       let m := ownMark i.c.uid hdr
       let r := s.engSpRead (i.op s 1 none false .running (.mfact hdr n false)) m 0 64
       let status := fieldAt r.2 8 1
       if 4 ≤ status ∨ ((status = 1 ∨ status = 3) ∧ !warmOk n r.2) then allTrap s cStruct hdr
       else if 255 ≤ s.counter i.c.uid i.c.gid 1 then retry s i
       else
         let s := if status = 0 then r.1.spWriteRange m 0 (coldHeader n i.c.snap.round i.c.snap.pivm i.c.snap.pivt i.c.snap.pivd) else r.1
         command i s 1 none false (if status = 2 then .finished else .running) (.mfact hdr n (status == 3)))

/-- A word of the region. -/
def regionWord (l : List Byte) (k : Nat) : Nat := fieldAt l k 4

/-- Row `i` of L left of column `j`. -/
def rowBefore (l : List Byte) (n i j : Nat) : List Nat := (List.range j).map fun k => regionWord l (factAt n i k)

/-- A 4-byte part of the region written (R185). -/
def State.putWord (s : State) (o : EngOp) (m : List Mark) (k x : Nat) : State := s.engSpWrite o m k (leBytes 4 x)

/-- The elements of column `j` with the flags of their roundings, L[j][j] first (R182). -/
def factColumn (round : Word) (l : List Byte) (n j : Nat) (d : FVal) : List (Nat × Nat) × Word :=
  let ljj := rootOnce round d
  (List.range (n - (j + 1))).foldl (fun r k =>
    let i := j + 1 + k
    let x := minusDot (regionWord l (factAt n i j)) (rowBefore l n i j) (rowBefore l n j j)
    let q := divOnce round x.1.datum ljj.1
    (r.1 ++ [(i, q.1)], r.2 ||| x.2 ||| q.2)) ([(j, ljj.1)], ljj.2)

/-- A column written, and the header's `next`; after the last one the region is DONE (R182). -/
def State.putColumn (s : State) (o : EngOp) (hdr : Word) (n j : Nat) (col : List (Nat × Nat)) : State :=
  let m := ownMark o.uid hdr
  let s := col.foldl (fun s x => s.putWord o m (factAt n x.1 j) x.2) s
  let s := (s.putWord o m 4 (j + 1)).setBody o.id (.mfact hdr n false)
  if j + 1 < n then s.engSpWrite o m 8 [1] else (s.engSpWrite o m 8 [2]).endOp o.id

/-- A flagged column is reported: its two words, the count and the first flagged column; none when the queue has no room
(R183). -/
def State.reportPivot (s : State) (o : EngOp) (hdr : Word) (l : List Byte) (j : Nat) (c : LongAcc) : Option State :=
  let m := ownMark o.uid hdr
  let d := (c.round fp32 (modeOf (BitVec.ofNat 32 (fieldAt l 9 1))) (satOf (BitVec.ofNat 32 (fieldAt l 9 1)))).1
  let words := [BitVec.ofNat 32 (fieldAt l 10 1 % 4 * 2 ^ 8 + j), BitVec.ofNat 32 d]
  let bound := ((s.group? o.uid o.gid).bind fun g => g.boundTo 3).isSome
  (if bound then s.pushPort o.uid o.gid 3 words else some s).map fun s =>
    (s.putWord o m 12 (regionWord l 12 + 1)).putWord o m 24 (min (regionWord l 24) j)

/-- The unit holds at column `j` (R182). -/
def State.holdPivot (s : State) (o : EngOp) (hdr : Word) (j : Nat) : State :=
  let m := ownMark o.uid hdr
  (((s.putWord o m 4 j).engSpWrite o m 8 [3]).mapOp o.id fun o => { o with held := some j }).endOp o.id

/-- A factor that a deadline stops between columns: its header, whose `next` stands, takes status 1 (R184). -/
def State.stopFactor (s : State) (o : EngOp) : State :=
  match o.body with
  | .mfact hdr _ _ => if o.stage = .running then s.engSpWrite o (ownMark o.uid hdr) 8 [1] else s
  | _ => s

/-- One column of a factor (R182, R183). What the region holds now is read: stores of the group still on their way to the
SRAM are not waited for (R185). -/
def State.factStep (s : State) (oid : Nat) : State :=
  match s.op? oid with
  | none => s
  | some o =>
    match o.body with
    | .mfact hdr n again =>
      if !o.working then s
      else
        let l := s.spReadRange (ownMark o.uid hdr) 0 (factBytes n)
        let j := regionWord l 4
        let round := BitVec.ofNat 32 (fieldAt l 9 1)
        let pmode := fieldAt l 10 1 % 4
        if n ≤ j then (s.engSpWrite o (ownMark o.uid hdr) 8 [2]).endOp oid
        else
          let x := minusDot (regionWord l (factAt n j j)) (rowBefore l n j j) (rowBefore l n j j)
          let write := fun (s : State) (d : FVal) (fl : Word) =>
            let col := factColumn round l n j d
            (s.opFlags oid (x.2 ||| fl ||| col.2)).putColumn o hdr n j col.1
          if !pivotFlagged x.1.datum (fp32.read (regionWord l 16)) then write s x.1.datum 0
          else
            match (if again then some s else s.reportPivot o hdr l j x.1) with
            | none => s
            | some s =>
              if pmode = 0 then (s.opFlags oid x.2).holdPivot o hdr j
              else
                let d := regularise pmode x.1 (regionWord l 20)
                write s d.1 d.2
    | _ => s

/-! ## mtrsm (R186, R340) -/

/-- Two ranges of bytes share one. -/
def rangesMeet (a n b m : Nat) : Bool := decide (a < b + m) && decide (b < a + n)

/-- `mtrsm` (R186, R339, R340). -/
def mtrsmDone (w : RM) (s : State) (i : Issue) : Done :=
  let rg := fun k => i.rd i.first (w.a.toNat + k)
  let hdr := rg 0
  let src := rg 1
  let dst := rg 2
  let ctl := rg 3
  let n := (ctl.extractLsb' 8 6).toNat
  let r := (ctl.extractLsb' 0 6).toNat
  let size := 4 * n * r
  let out := fun (x : Word) (k : Nat) => x.extractLsb' 30 2 != 0 || (s.spMarks i.t x k).isNone
  checked s
    [(ctl.extractLsb' 14 17 != 0 || ctl.extractLsb' 6 2 != 0 || decide (n = 0) || decide (32 < n) || decide (r = 0)
        || decide (32 < r), cIllegal, i.c.word),
     (out hdr (factBytes n), cSpRange, hdr), (out src size, cSpRange, src), (out dst size, cSpRange, dst),
     (hdr.extractLsb' 0 6 != 0, cMisalign, hdr), (src.extractLsb' 0 4 != 0, cMisalign, src),
     (dst.extractLsb' 0 4 != 0, cMisalign, dst),
     (rangesMeet src.toNat size dst.toNat size || rangesMeet src.toNat size hdr.toNat (factBytes n)
        || rangesMeet dst.toNat size hdr.toNat (factBytes n), cSpRange, dst)]
    (let body := OpBody.mtrsm hdr src dst n r (ctl.getLsbD 31) 0
     let x := s.engSpRead (i.op s 1 none false .running body) (ownMark i.c.uid hdr) 0 64
     if s.acquiring i then retry s i
     else if fieldAt x.2 8 1 ≠ 2 ∨ fieldAt x.2 0 1 ≠ n then allTrap s cStruct hdr
     else if 255 ≤ s.counter i.c.uid i.c.gid 1 then retry s i
     else command i x.1 1 none false .running body)

/-- One row of a triangular solve (R186): row `row` of the solve order, from what its words hold now (R185). -/
def State.trsmRow (s : State) (oid : Nat) : State :=
  match s.op? oid with
  | none => s
  | some o =>
    match o.body with
    | .mtrsm hdr src dst n r back row =>
      if !o.working then s
      else
        let i := if back then n - 1 - row else row
        let l := s.spReadRange (ownMark o.uid hdr) 0 (factBytes n)
        let b := s.spReadRange (ownMark o.uid src) 0 (4 * n * r)
        let y := s.spReadRange (ownMark o.uid dst) 0 (4 * n * r)
        let ks := if back then (List.range (n - 1 - i)).map (· + i + 1) else List.range i
        let coef := ks.map fun k => regionWord l (if back then factAt n k i else factAt n i k)
        let cells := (List.range r).map fun c =>
          let x := minusDot (regionWord b (4 * (r * i + c))) coef (ks.map fun k => regionWord y (4 * (r * k + c)))
          let q := divOnce (BitVec.ofNat 32 (o.round.toNat % 8)) x.1.datum (regionWord l (factAt n i i))
          (q.1, x.2 ||| q.2)
        let s := (s.engSpWrite o (ownMark o.uid dst) (4 * r * i) (cells.flatMap fun x => leBytes 4 x.1)).opFlags oid
          (cells.foldl (fun w x => w ||| x.2) 0)
        let s := s.setBody oid (.mtrsm hdr src dst n r back (row + 1))
        if row + 1 < n then s else s.endOp oid
    | _ => s

/-- MFACT_CHOL (R338): Starts or resumes a Cholesky factorisation of a scratchpad region. -/
def execMfactChol (w : RR) (s : State) : Host.Outcome State Fault Refusal :=
  issueWith (.rr 0x7C .one { d := true } w) (fun _ x => decide (1 ≤ x.toNat) && decide (x.toNat ≤ 32)) (fun _ l => l)
    (mfactDone w) s

/-- MTRSM (R339): Starts a triangular solve with a completed factor. -/
def execMtrsm (w : RM) (s : State) : Host.Outcome State Fault Refusal :=
  issueWord (.rm 0x7D 2 .one { d := true, l := true } w) (mtrsmDone w) s

end Sys2Proof.Machine
end

