-- ==== Sys2Proof/Machine/System.lean ====
section
/-! DEFINITION. Csrs (R233, R341 to R344) and the system words but for the context words (R345, R346, R348). -/

namespace Sys2Proof.Machine

open Sys2Proof

/-! ## Csrs (R233, R341, R342) -/

/-- A counter as it stood before the chained set (R206, R231). -/
def State.counterBefore (s : State) (c : Cur) (cls : Nat) : Nat :=
  ((s.classOps c.uid c.gid cls).filter fun o => decide (o.id < c.start)).length

/-- The value of a csr for a thread, as it stood before the chained set (R206); csr 17 is read as a pair. -/
def Issue.csr (i : Issue) (s : State) (t m : Nat) : Word :=
  let th := ((i.c.snap.threads[t]?)).getD (Thread.placed i.t.hdr 0)
  let half := fun (x : Nat) (hi : Bool) => BitVec.ofNat 32 (if hi then x / 2 ^ 32 else x)
  match m with
  | 0 => BitVec.ofNat 32 t
  | 1 => BitVec.ofNat 32 i.c.gid
  | 2 => BitVec.ofNat 32 i.t.hdr.groupWidth
  | 3 => BitVec.ofNat 32 i.t.tmid
  | 4 => BitVec.ofNat 32 i.t.record.count
  | 5 => BitVec.ofNat 32 (256 * i.t.place + i.t.coreOf i.c.gid)
  | 6 => BitVec.ofNat 32 i.t.cl
  | 7 => BitVec.ofNat 32 (i.t.cl / 2)
  | 8 => half s.now false
  | 9 => half s.now true
  | 10 => i.c.snap.round
  | 11 => i.c.snap.lease
  | 12 => half i.c.snap.ffl false
  | 13 => half i.c.snap.fhz false
  | 14 => half i.c.snap.fhz true
  | 15 => th.fst
  | 16 => i.c.snap.fstm
  | 18 => th.hyp
  | 19 => i.c.snap.mcfg
  | 20 => i.c.snap.pivt
  | 21 => i.c.snap.pivd
  | 22 => i.c.snap.pivm
  | 23 => half i.t.dlin false
  | 24 => half i.t.dlin true
  | 25 => th.trapc
  | 26 => th.trapa.extractLsb' 0 32
  | 27 => th.trapa.extractLsb' 32 32
  | 28 => th.trapd
  | 29 => BitVec.ofNat 32 (((List.range 4).map fun k => s.counterBefore i.c k * 2 ^ (8 * k)).sum)
  | 30 => i.c.snap.absm
  | 31 => i.c.snap.cpol
  | 32 => i.t.amsrc
  | 33 => i.c.snap.lnkc
  | _ => 0

/-- A csr that each thread holds (R233). -/
def csrPerThread (m : Nat) : Bool := m == 15 || m == 17 || (25 ≤ m && m ≤ 28)

/-- The values that a write of a csr allows (R342). -/
def csrOk (m : Nat) (x : Word) : Bool :=
  match m with
  | 10 => x.extractLsb' 4 28 == 0 && decide ((x.extractLsb' 0 3).toNat ≤ 4)
  | 11 => x.extractLsb' 16 16 == 0
  | 15 => x.extractLsb' 7 25 == 0
  | 16 => x.extractLsb' 7 25 == 0
  | 19 => mcfgOk x
  | 22 => x.extractLsb' 2 30 == 0
  | 30 => x.extractLsb' 1 31 == 0
  | 31 => x.extractLsb' 3 29 == 0 && decide ((x.extractLsb' 0 3).toNat ≤ 4)
  | _ => true

/-- `csr.rd` (R341). -/
def csrRdDone (w : RN) (s : State) (i : Issue) : Done :=
  let d := w.d.toNat
  if w.m = 17 then
    { nothing s with res := fun t => pairOf d (((i.c.snap.threads[i.one t]?).map (·.meet)).getD 0) }
  else { nothing s with res := fun t => [(d, i.csr s (i.one t) w.m.toNat)] }

/-- A write of a per-group or per-team csr (R80, R196, R342, R344). -/
def State.groupCsr (s : State) (i : Issue) (m : Nat) (x : Word) : State :=
  let put := fun (f : Group → Group) => s.mapGroup i.c.uid i.c.gid f
  match m with
  | 10 => put fun g => { g with round := x }
  | 11 => put fun g => { g with lease := x }
  | 12 => s.raiseFfl i.c.uid i.c.gid s.now
  | 16 => put fun g => { g with fstm := x }
  | 19 => put fun g => { g with mcfg := x }
  | 20 => put fun g => { g with pivt := x }
  | 21 => put fun g => { g with pivd := x }
  | 22 => put fun g => { g with pivm := x }
  | 23 => put fun g => { g with dlinStage := some x }
  | 24 =>
    let lo := (i.g.dlinStage.map BitVec.toNat).getD (i.t.dlin % 2 ^ 32)
    (put fun g => { g with dlinStage := none }).mapTeam i.c.uid fun t => { t with dlin := x.toNat * 2 ^ 32 + lo }
  | 30 => put fun g => { g with absm := x }
  | 31 => put fun g => { g with cpol := x }
  | 33 => put fun g => { g with lnkc := 0 }
  | _ => s

/-- A write of a csr of one thread (R342). -/
def Thread.setCsr (th : Thread) (m : Nat) (x : Word) : Thread :=
  match m with
  | 15 => { th with fst := x }
  | 25 => { th with trapc := x }
  | 26 => { th with trapa := th.trapa.extractLsb' 32 32 ++ x }
  | 27 => { th with trapa := x ++ th.trapa.extractLsb' 0 32 }
  | 28 => { th with trapd := x }
  | _ => th

/-- The source of a `csr.wr` (R341). -/
def Issue.csrSource (i : Issue) (w : RN) (t : Nat) : Word := if w.l then i.lit else i.rd t w.a.toNat

/-- The value of a write of `meet` (R344). -/
def Issue.meetSource (i : Issue) (w : RN) (t : Nat) : DWord := if w.l then i.lit.setWidth 64 else i.rd2 t w.a.toNat

/-- A meeting address that R344 allows. -/
def meetOk (x : DWord) : Bool := x.extractLsb' 0 4 == 0 && x.extractLsb' 48 16 == 0

/-- `csr.wr` (R341 to R344). -/
def csrWrDone (w : RN) (s : State) (i : Issue) : Done :=
  let m := w.m.toNat
  if m = 17 then
    let x := i.meetSource w
    { nothing s with
        trap := fun t => if meetOk (x t) then none else some (cMisalign, (x t).extractLsb' 0 32),
        edit := fun t th => { th with meet := x (i.one t) } }
  else if csrPerThread m then
    let x := i.csrSource w
    { nothing s with
        trap := fun t => if csrOk m (x t) then none else some (cIllegal, i.c.word),
        edit := fun t th => th.setCsr m (x (i.one t)) }
  else if csrOk m (i.csrSource w i.first) then nothing (s.groupCsr i m (i.csrSource w i.first))
  else allTrap s cIllegal i.c.word

/-! ## sys.eret (R346) -/

/-- The PC that a thread returns to: its `trapa` as a 48-bit PC (R346). -/
def Issue.returnPc (i : Issue) (t : Nat) : DWord := pcWrap (((i.before? t).map (·.trapa)).getD 0)

/-- The trap of a thread at a `sys.eret`: outside a handler, or for its target (R203, R232, R346). -/
def Issue.eretTrap (i : Issue) (t : Nat) : Option (Nat × Word) :=
  if !((i.thread? t).map (·.inHandler)).getD false then some (cIllegal, i.c.word)
  else if pcOk (i.returnPc t) then none
  else some (cMisalign, (i.returnPc t).extractLsb' 0 32)

/-- `sys.eret` (R42, R203, R232, R346): with U = 1 the trap of one thread is that of the whole subset (R41). -/
def eretDone (s : State) (i : Issue) : Done :=
  { nothing s with
      trap := fun t => if i.v.u then i.ts.findSome? i.eretTrap else i.eretTrap t,
      jump := fun t => some (i.returnPc t),
      edit := fun _ th => th.returned }

/-! ## Translations dropped (R348, R416) -/

/-- A TLB entry falls under an invalidation: KIND 0 one page of an ASID, 1 an ASID, 2 all. -/
def TlbEntry.dropped (e : TlbEntry) (kind asid va : Nat) : Bool :=
  kind == 2 || (e.asid == asid && (kind == 1 || (decide (e.first ≤ va / 4096) && decide (va / 4096 < e.first + e.count))))

/-- An invalidation begins: the entries are dropped at once. -/
def State.beginInval (s : State) (x : Inval) : State :=
  { s with tlb := s.tlb.filter fun e => !e.dropped x.kind x.asid x.va,
           tlbBusy := s.tlbBusy.map fun y => if y.id = x.id then { y with bound := s.nextId } else y,
           nextId := s.nextId + 1 }

/-- An invalidation added; one from TLBICTL begins only when no earlier one from there is running (R416). -/
def State.addInval (s : State) (kind asid va : Nat) (host : Bool) : State :=
  let x : Inval := { id := s.nextId, kind := kind, asid := asid, va := va, bound := 0, host := host }
  let wait := host && s.tlbBusy.any (·.host)
  let s := { s with tlbBusy := s.tlbBusy ++ [x], nextId := s.nextId + 1 }
  if wait then s else s.beginInval x

/-- Every access that may have used a dropped entry has been performed (R416). -/
def State.invalDone (s : State) (x : Inval) : Bool :=
  x.bound != 0 && !(s.flights.any fun f =>
    decide (f.id < x.bound) && !f.done && f.size != 0 && (x.kind == 2 || (s.slot f.slot).asid == x.asid) &&
      (match f.tgt with
        | .mem _ => true
        | .sp _ _ => false))
    && !(s.cores.any fun c => c.sb.any fun e =>
      decide (e.id < x.bound) && (x.kind == 2 || (s.slot e.slot).asid == x.asid))

/-- TLB_INVALIDATION_COMPLETE (R416): the first invalidation that can complete does, and the next one from TLBICTL
begins. -/
def State.tlbComplete (s : State) : State :=
  match s.tlbBusy.find? s.invalDone with
  | none => s
  | some x =>
    let s := { s with tlbBusy := s.tlbBusy.filter fun y => y.id != x.id }
    match s.tlbBusy.find? fun y => y.host && y.bound == 0 with
    | some y => if x.host then s.beginInval y else s
    | none => s

/-- A stall on an invalidation: its number. -/
def invalStall (s : State) (i : Issue) (id : Word) : Done := stallFor s i id (s.now + 1)

/-- `sys.tlbinv` (R348). -/
def tlbinvDone (w : RM) (s : State) (i : Issue) : Done :=
  let rg := fun k => i.rd i.first (w.a.toNat + k)
  let x := rg 0
  let va := i.rd2 i.first (w.a.toNat + 2)
  let kind := (x.extractLsb' 0 2).toNat
  match i.begun with
  | some y => if s.tlbBusy.any fun b => BitVec.ofNat 32 b.id == y.result then invalStall s i y.result else nothing s
  | none =>
    if w.l ∨ x.extractLsb' 2 14 ≠ 0 ∨ kind = 3 ∨ rg 1 ≠ 0 then allTrap s cIllegal i.c.word
    else if kind = 0 ∧ va.extractLsb' 48 16 ≠ 0 then allTrap s cXlate (va.extractLsb' 32 32)
    else invalStall (s.addInval kind (x.extractLsb' 16 16).toNat va.toNat false) i (BitVec.ofNat 32 s.nextId)

/-! ## sys.l2flush (R348) -/

/-- The latest lease of any sector. -/
def State.lastExpiry (s : State) : Nat := s.sectors.foldl (fun c x => max c x.expiry) s.now

/-- Every ACC unit written back as its normalised image, and every dirty sector of the slices to the memory-side tier; with
`leave` a unit is in the ACC state no more and a sector of host memory, which has no tier below, is given up once its
leases have run out (R89, R91, R97, R348). -/
def State.flushAcc (s : State) (leave : Bool) : State :=
  let s := s.accUnits.foldl State.normaliseUnit s
  let s := s.dirtySectors.foldl State.writeBack s
  if leave then { s with accUnits := [], owned := s.owned.filter fun sec => decide (s.now < (s.times sec).expiry) } else s

/-- `sys.l2flush` (R348): a write-back changes no byte; a sector leaves the L2 once its leases have run out, so that the
invalidation is made when the latest of them has. -/
def l2flushDone (w : RM) (s : State) (i : Issue) : Done :=
  let x := i.srcA w i.first
  match i.begun with
  | some y => if s.now < y.waitUntil then stallFor s i 0 y.waitUntil else nothing (s.flushAcc true)
  | none =>
    if 3 ≤ x.toNat then allTrap s cIllegal i.c.word
    else if x = 0 then nothing (s.flushAcc false)
    else if s.lastExpiry ≤ s.now then nothing (s.flushAcc true)
    else stallFor (s.flushAcc true) i 0 s.lastExpiry

/-! ## sys.halt (R348, R408) -/

/-- A group stands at a packet boundary: no thread that could issue is inside a packet. -/
def Group.atBoundary (g : Group) : Bool :=
  (g.stall.map fun x => x.begun).getD false == false &&
    g.threads.all fun th => !th.issuable || slotOf th.pc == 0 || !g.parked.isEmpty

/-- The group that has stopped a team to save it is still at it (R47). -/
def State.saverAlive (s : State) (t : Team) : Bool :=
  match t.saving with
  | some (u, k) => ((s.group? u k).bind (·.stall)).any fun x => x.begun
  | none => false

/-- Issue has stopped for a group: its core is halted or is being halted and the group is at a packet boundary, or a
`sys.ctxsv` that is still at work has stopped its team (R47, R348). -/
def State.frozen (s : State) (t : Team) (gid : Nat) (g : Group) : Bool :=
  let c := s.core t.cl (t.coreOf gid)
  c.halted || ((c.halting || s.power.tripped || s.saverAlive t) && g.atBoundary)

/-- Every group of a core stands at a packet boundary. -/
def State.coreStopped (s : State) (cl core : Nat) : Bool :=
  s.teams.all fun t => (List.range t.groups.length).all fun k =>
    match t.groups[k]? with
    | some g => t.cl != cl || t.coreOf k != core || g.atBoundary
    | none => true

/-- A core is halted: after a thermal trip every core whose groups have stopped is (R408, R445). -/
def State.coreHalted (s : State) (cl core : Nat) : Bool :=
  (s.core cl core).halted || (s.power.tripped && s.coreStopped cl core)

/-- A core whose groups have all stopped is halted, and the driver is told (R348, R407). -/
def State.settleHalt (s : State) (cl core : Nat) : State :=
  let c := s.core cl core
  if c.halting ∧ !c.halted ∧ s.coreStopped cl core then
    (s.mapCore cl core fun c => { c with halted := true, halting := false }).sendVector 1
  else s

/-- Every core being halted looks again. -/
def State.settleHalts (s : State) : State :=
  (s.cores.filter fun c => c.halting).foldl (fun s c => s.settleHalt c.cl c.num) s

/-- `sys.halt` (R348). -/
def haltDone (s : State) (i : Issue) : Done :=
  nothing (s.mapCore i.t.cl (i.t.coreOf i.c.gid) fun c => { c with halting := true })

/-- RESUME (R408). -/
def State.resumeCore (s : State) (w : Word) : State :=
  let cl := (w.extractLsb' 8 3).toNat
  let core := (w.extractLsb' 0 8).toNat
  if w.extractLsb' 11 21 ≠ 0 ∨ !(s.core cl core).halted ∨ s.power.tripped then s
  else s.mapCore cl core fun c => { c with halted := false, halting := false }

/-- CSR_RD (R341): Reads a control and status register. -/
def execCsrRd (w : RN) (s : State) : Host.Outcome State Fault Refusal :=
  issueWord (.rn 0x7E false .any { a := true, ka := true, ea := true, l := true } w) (csrRdDone w) s

/-- CSR_WR (R341): Writes a control and status register under its own rules. -/
def execCsrWr (w : RN) (s : State) : Host.Outcome State Fault Refusal :=
  issueWith (.rn 0x7E true .any { d := true } w) (fun _ x => w.m = 17 || csrOk w.m.toNat x) (fun _ l => l)
    (csrWrDone w) s

/-- SYS_ERET (R346): Returns each active thread from its handler to trapa. -/
def execSysEret (w : RM) (s : State) : Host.Outcome State Fault Refusal :=
  issueWord (.rm 0x7F 0 .any { c := true, d := true, a := true, ka := true, ea := true, l := true } w) eretDone s

/-- SYS_TLBINV (R348): Invalidates translations and waits for completion. -/
def execSysTlbinv (w : RM) (s : State) : Host.Outcome State Fault Refusal :=
  issueWith (.rm 0x7F 3 .any { c := true, d := true } w) (fun _ _ => false) (fun _ l => l)
    (tlbinvDone w) s

/-- SYS_L2FLUSH (R348): Writes back and optionally invalidates the L2 and memory-side tier. -/
def execSysL2flush (w : RM) (s : State) : Host.Outcome State Fault Refusal :=
  issueWith (.rm 0x7F 4 .any { c := true, d := true } w) (fun _ x => decide (x.toNat < 3)) (fun _ l => l)
    (l2flushDone w) s

/-- SYS_HALT (R348): Stops issue on the core and raises the halt interrupt. -/
def execSysHalt (w : RM) (s : State) : Host.Outcome State Fault Refusal :=
  issueWord (.rm 0x7F 5 .any { c := true, d := true, a := true, ka := true, ea := true, l := true } w) haltDone s

end Sys2Proof.Machine
end

