-- ==== Sys2Proof/Machine/Context.lean ====
section
/-! DEFINITION. Saving and restoring teams (R47, R48, R139, R347, R421 to R426): the image of a team and the words
`sys.ctxsv` and `sys.ctxld`. -/

namespace Sys2Proof.Machine

open Sys2Proof

/-! ## The saved image (R422 to R424) -/

/-- A list of bytes made `n` bytes long with zeros. -/
def padTo (n : Nat) (l : List Byte) : List Byte := (l ++ List.replicate (n - l.length) 0).take n

/-- Register state codes: FULL 0, ABSENT 2 (R424); a team is saved with no result outstanding. -/
def Reg.code (r : Reg) : Nat := if r.st = .full then 0 else 2

/-- Two-bit codes packed four to a byte. -/
def packCodes : List Nat → List Byte
  | a :: b :: c :: d :: rest => BitVec.ofNat 8 (a + 4 * b + 16 * c + 64 * d) :: packCodes rest
  | [] => []
  | l => [BitVec.ofNat 8 (l.getD 0 0 + 4 * l.getD 1 0 + 16 * l.getD 2 0)]

/-- Code `k` of packed codes. -/
def codeAt (l : List Byte) (k : Nat) : Nat := (l.getD (k / 4) 0).toNat / 4 ^ (k % 4) % 4

/-- The 64 bytes of a thread (R424). -/
def Thread.image (th : Thread) (parked : Bool) : List Byte :=
  padTo 64 (leBytes 8 th.pc.toNat ++ leBytes 8 th.trapa.toNat ++ leBytes 8 th.meet.toNat ++ leBytes 4 th.fst.toNat
    ++ leBytes 4 th.hyp.toNat ++ leBytes 4 th.trapc.toNat ++ leBytes 4 th.trapd.toNat
    ++ leBytes 1 ((if th.live then 1 else 0) + (if th.isHeld then 2 else 0) + (if th.inHandler then 4 else 0)
      + (if parked then 8 else 0)))

/-- The 264 bytes of a queue register (R424). -/
def Queue.image (q : Queue) : List Byte :=
  padTo 264 (leBytes 4 q.bind.toNat ++ leBytes 4 q.words.length ++ wordsBytes (q.words.map (·.1)))

/-- The per-group csrs in csr-number order (R233, R424). -/
def State.csrImage (s : State) (t : Team) (gid : Nat) (g : Group) : List Byte :=
  let cnt := ((List.range 4).map fun k => s.counter t.uid gid k * 2 ^ (8 * k)).sum
  [gid, t.hdr.groupWidth, 256 * t.place + t.coreOf gid, g.round.toNat, g.lease.toNat, g.ffl, g.fhz % 2 ^ 32, g.fhz / 2 ^ 32,
    g.fstm.toNat, g.mcfg.toNat, g.pivt.toNat, g.pivd.toNat, g.pivm.toNat, cnt, g.absm.toNat, g.cpol.toNat,
    g.lnkc.toNat].flatMap (leBytes 8)

/-- The stage of `dlin.lo`: its value, and bit 32 when there is one. -/
def stageImage (x : Option Word) : List Byte :=
  leBytes 8 (match x with
    | some w => 2 ^ 32 + w.toNat
    | none => 0)

/-- `n` bytes of an engine-state area, free values (R423, R424). -/
def engineArea (base n : Nat) : List Byte := (List.range n).map fun k => Config.engineState (base + k)

/-- The 16 KiB record of a group (R424). -/
def State.groupImage (s : State) (t : Team) (gid : Nat) (g : Group) : List Byte :=
  let ths := g.threads
  let states := ths.flatMap fun th => (List.range 56).map fun k => ((th.v[k]?).map Reg.code).getD 0
  padTo 6144 (wordsBytes (ths.flatMap fun th => th.v.map (·.val)) ++
      (List.range t.hdr.accs).flatMap fun a => ths.flatMap fun th => ((th.acc[a]?).map fun c => c.acc.image).getD [])
    ++ padTo 1024 (packCodes states)
    ++ padTo 512 (wordsBytes (g.g.map (·.val)) ++ packCodes (g.g.map Reg.code))
    ++ padTo 4096 (ths.flatMap fun th => th.image !g.parked.isEmpty)
    ++ padTo 248 (s.csrImage t gid g) ++ stageImage g.dlinStage
    ++ padTo 256 []
    ++ padTo 2112 (g.queues.flatMap Queue.image)
    ++ engineArea (s.free + 4096 + 2048 * gid) 1984

/-- The 32 bytes of a latch (R423). -/
def Latch.image (l : Latch) : List Byte :=
  leBytes 4 ((if l.v then 1 else 0) + (if l.f then 2 else 0) + (if l.ph then 4 else 0)) ++ leBytes 2 l.ea ++ leBytes 2 0
    ++ leBytes 4 l.eb ++ intBytes 2 l.a ++ leBytes 2 0 ++ intBytes 4 l.b ++ leBytes 4 l.fw.toNat ++ leBytes 8 0

/-- Cores of a team (R26). -/
def Record.cores (r : Record) : Nat := if r.hinged then 2 else 1

/-- Bytes of the image of a team (R422). -/
def Record.imageSize (r : Record) : Nat :=
  4096 + 16384 * r.groups + r.cores * (32768 * r.slots + 1024 * r.sp)

/-- The image header (R423). -/
def State.headerImage (s : State) (t : Team) : List Byte :=
  let bits := (List.range 32).map fun b =>
    ((List.range 8).map fun k => if t.skeins.any fun e => e.sk == 8 * b + k then 2 ^ k else 0).sum
  padTo 4096 (leBytes 4 0x56534651 ++ leBytes 2 1 ++ [Config.stepping] ++ leBytes 1 (if t.record.hinged then 1 else 0)
    ++ leBytes 2 (s.slot t.slot).asid ++ leBytes 1 t.slot ++ leBytes 1 0
    ++ leBytes 4 (t.core + 256 * t.place + 65536 * t.cl) ++ t.record.bytes ++ leBytes 4 t.tmid
    ++ leBytes 4 t.record.imageSize ++ leBytes 8 s.now ++ leBytes 8 t.dlin ++ leBytes 4 t.gen ++ leBytes 4 0
    ++ t.latches.flatMap Latch.image ++ bits.map (BitVec.ofNat 8)
    ++ (List.range 256).flatMap (fun k => leBytes 4 (((t.skeins.find? fun e => e.sk == k).map (·.k)).getD 0))
    ++ engineArea s.free 2448)

/-- The image of a team (R422). -/
def State.image (s : State) (t : Team) : List Byte :=
  s.headerImage t
    ++ (List.range t.groups.length).flatMap (fun k => ((t.groups[k]?).map fun g => s.groupImage t k g).getD [])
    ++ t.tiles.flatMap (fun l => l.flatMap LongAcc.image)
    ++ Memory.readN t.scratch 0 t.spBytes

/-! ## Reading an image back (R48, R425) -/

/-- `n` bytes at offset `k`. -/
def sliceOf (l : List Byte) (k n : Nat) : List Byte := (l.drop k).take n

/-- A 32-bit field. -/
def wordAt (l : List Byte) (k : Nat) : Word := BitVec.ofNat 32 (fieldAt l k 4)
/-- A 64-bit field. -/
def dwordAt (l : List Byte) (k : Nat) : DWord := BitVec.ofNat 64 (fieldAt l k 8)

/-- A register from its value and its code. -/
def regOf (v : Word) (code : Nat) : Reg := { val := v, st := if code = 0 then .full else .absent, prod := 0 }

/-- A thread from its group's record, whose csrs the driver may have rewritten: reserved bits read 0 (R104, R145, R425).
What the image does not hold comes from the team as saved. -/
def Thread.restore (th : Thread) (h : Header) (l : List Byte) (t : Nat) : Thread :=
  let x := sliceOf l (7680 + 64 * t) 64
  let st := sliceOf l 6144 1024
  { th with
      v := (List.range h.regs).map fun k => regOf (wordAt l (4 * (t * h.regs + k))) (codeAt st (t * 56 + k)),
      acc := (List.range h.accs).map fun a =>
        { acc := LongAcc.ofImageRaw (sliceOf l (4 * h.groupWidth * h.regs + 128 * (h.groupWidth * a + t)) 128), prod := 0 },
      pc := pcWrap (dwordAt x 0), trapa := dwordAt x 8, meet := dwordAt x 16, fst := wordAt x 24 &&& 0x7F,
      hyp := wordAt x 28 &&& 0xFFFFF, trapc := wordAt x 32,
      trapd := wordAt x 36, live := fieldAt x 40 1 % 2 == 1, inHandler := fieldAt x 40 1 / 4 % 2 == 1, wait := .none,
      passed := if pcWrap (dwordAt x 0) = th.pc then th.passed else none }

/-- A queue register from its bytes. -/
def Queue.restore (q : Queue) (l : List Byte) : Queue :=
  let n := min queueWords (fieldAt l 4 4)
  { q with bind := wordAt l 0, words := (List.range n).map fun k => (wordAt l (8 + 4 * k), ((q.words[k]?).map (·.2)).getD false),
           stamps := q.stamps.take n }

/-- A group from its record (R424); reserved bits of its csrs read 0 (R105, R425). A `round` with MODE 5 to 7, which no
write allows, is kept and rounds as 4 does (log 27). -/
def Group.restore (g : Group) (h : Header) (l : List Byte) : Group :=
  let c := fun k => wordAt l (11776 + 8 * k)
  let stage := fieldAt l 12024 8
  { g with
      g := (List.range 64).map fun k => regOf (wordAt l (7168 + 4 * k)) (codeAt (sliceOf l 7424 16) k),
      threads := g.threads.mapIdx fun t th => th.restore h l t,
      round := c 3 &&& 0xF, lease := c 4 &&& 0xFFFF, ffl := fieldAt l (11776 + 40) 8, fhz := (c 6).toNat + 2 ^ 32 * (c 7).toNat, fstm := c 8 &&& 0x7F,
      mcfg := c 9 &&& 0xFFFF, pivt := c 10, pivd := c 11, pivm := c 12 &&& 3, absm := c 14 &&& 1, cpol := c 15 &&& 7, lnkc := c 16 &&& 0xFFFF03FF,
      dlinStage := if stage / 2 ^ 32 % 2 = 1 then some (BitVec.ofNat 32 stage) else none,
      queues := g.queues.mapIdx fun k q => q.restore (sliceOf l (12288 + 264 * k) 264), stall := none }

/-- A latch from its bytes. -/
def Latch.restore (x : Latch) (l : List Byte) : Latch :=
  let b := fieldAt l 0 1
  { x with v := b % 2 == 1, f := b / 2 % 2 == 1, ph := b / 4 % 2 == 1, ea := fieldAt l 4 2, eb := fieldAt l 8 4,
           a := bytesInt (sliceOf l 12 2), b := bytesInt (sliceOf l 16 4), fw := wordAt l 20 }

/-- A deadline of the team has fallen due and `dlin` is cleared, as a write of DLNOW leaves a saved team (R46, R48). -/
def Team.deadlinePassed (t : Team) : Bool := t.dlin == 0 && t.groups.any fun g => g.threads.any fun th => th.dlPend.isSome

/-- A team from its image (R48). -/
def Team.restore (t : Team) (l : List Byte) : Team :=
  let slots := 4096 + 16384 * t.groups.length
  { t with
      groups := t.groups.mapIdx fun k g => g.restore t.hdr (sliceOf l (4096 + 16384 * k) 16384),
      dlin := if t.deadlinePassed then 0 else fieldAt l 64 8, latches := t.latches.mapIdx fun k x => x.restore (sliceOf l (80 + 32 * k) 32),
      tiles := t.tiles.mapIdx fun n tile => tile.mapIdx fun e _ => LongAcc.ofImageRaw (sliceOf l (slots + 32768 * n + 128 * e) 128),
      scratch := Memory.writeN [] 0 (sliceOf l (slots + 32768 * t.tiles.length) t.spBytes), saving := none }

/-! ## The save area (R347, R421) -/

/-- The pages of a save area. -/
def areaPages (va n : Nat) : List Nat := (List.range ((n + 4095) / 4096)).map fun k => va + 4096 * k

/-- What the pages of a save area give: usable, unresolvable, or faults to wait for. -/
inductive Area where
  | usable
  | unresolvable
  | faults (l : List Blocked)
  deriving DecidableEq, Repr

/-- The check of a save area (R347): it must lie in device memory. -/
def State.areaCheck (s : State) (i : Issue) (va n : Nat) (acc : AccessKind) : Area :=
  let sl := s.slot i.t.slot
  let pages := areaPages va n
  let bad := pages.any fun a =>
    decide (2 ^ 48 ≤ a) || (i.failedKind a).isSome || (match s.translate sl a acc with
      | .ok pa _ _ => isHost pa
      | .untracked => true
      | .bad _ _ => false)
  let held := pages.filterMap fun a =>
    match s.translate sl a acc with
    | .bad kind level => some ({ va := a, kind := kind, level := level, tagged := false } : Blocked)
    | _ => none
  if bad then .unresolvable else if held ≠ [] then .faults held else .usable

/-- The physical address of a page of a save area. -/
def State.areaPa (s : State) (i : Issue) (va : Nat) (acc : AccessKind) : Nat :=
  match s.translate (s.slot i.t.slot) va acc with
  | .ok pa _ _ => pa
  | _ => 0

/-- An image written to its save area, page by page; the largest completion time (R421). -/
def State.writeArea (s : State) (i : Issue) (va : Nat) (bytes : List Byte) : State × Nat :=
  (areaPages va bytes.length).foldl (fun r a =>
    let x := r.1.commit (r.1.areaPa i a .write) ((bytes.drop (a - va)).take 4096)
    (x.1, max r.2 x.2)) (s, s.now)

/-- Some byte of a save area lies in a poisoned sector (R439). -/
def State.areaPoisoned (s : State) (i : Issue) (va n : Nat) : Bool :=
  (areaPages va n).any fun a => s.isPoisoned (s.areaPa i a .read) (min 4096 (va + n - a))

/-- The bytes of a save area. -/
def State.readArea (s : State) (i : Issue) (va n : Nat) : State × List Byte :=
  (areaPages va n).foldl (fun r a =>
    let x := r.1.sliceRead (r.1.areaPa i a .read) (min 4096 (va + n - a))
    (x.1, r.2 ++ x.2)) (s, [])

/-! ## Saving (R47, R347) -/

/-- An engine command that a save need not wait for: it stops at a boundary of R46, waits in a queue, or is finished. -/
def EngOp.canStop (o : EngOp) : Bool :=
  o.stage == .finished || o.parked ||
    (match o.body with
      | .copy _ _ _ _ => true
      | .tile _ _ => true
      | .skein _ => true
      | .prefetch _ _ _ => true
      | .mloop _ => true
      | .mdrain _ .queue _ _ => true
      | .mfact _ _ _ => true
      | .mtrsm _ _ _ _ _ _ _ => true
      | .xfer x => !x.sent
      | _ => false)

/-- The team is ready to be saved: its groups stand at packet boundaries, its long-latency producers and stores have
completed, its store-buffer entries are drained and its other engine commands have run to their end (R47). -/
def State.canSave (s : State) (t : Team) : Bool :=
  t.groups.all Group.atBoundary && !(s.flights.any fun f => f.uid == t.uid) && !(s.acqrs.any fun a => a.uid == t.uid)
    && !(s.cores.any fun c => c.sb.any fun e => e.uid == t.uid) && (s.ops.all fun o => o.uid != t.uid || o.canStop)

/-- The buffered stores of a team drained (R47). -/
def State.drainTeam (s : State) (t : Team) : State :=
  (List.range t.groups.length).foldl (fun s k => s.drainGroup t.cl (t.coreOf k) t.uid k) s

/-- The skein requests of a team: fills on their way land, the others leave their gathers (R139). -/
def State.withdrawSkeins (s : State) (uid : Nat) : State :=
  let mine := s.ops.filter fun o => o.uid == uid && o.stage != .finished && o.request?.isSome
  let s := mine.foldl (fun s o => if (o.request?.bind (·.fill)).isSome then s.fillLand o.id else s) s
  let ids := (mine.filter fun o => (o.request?.bind (·.fill)).isNone).map (·.id)
  let s := ids.foldl (fun s oid => s.mapRequest oid fun r => { r with sent := false }) s
  { s with gathers := s.gathers.map fun g => if g.closed then g else { g with members := g.members.filter fun m => !ids.contains m } }

/-- A team leaves its place with its state kept (R47, R426): its commands stay with it, its waits are abandoned. -/
def State.putAway (s : State) (t : Team) : State :=
  let s := s.withdrawSkeins t.uid
  match s.team? t.uid with
  | none => s
  | some t =>
    { s with teams := s.teams.filter fun x => x.uid != t.uid,
             saved := s.saved ++ [({ t.mapThreads (fun th => { th with wait := .none, popping := none, cover := 0 }) with saving := none }, s.now)],
             ops := s.ops.map fun o => if o.uid = t.uid then { o with saved := true } else o }

/-- The checks of a context word (R347, R446): the block, then the address. -/
def contextChecks (w : RM) (i : Issue) : List (Bool × Nat × Word) :=
  let va := i.rd2 i.first w.a.toNat
  let x := i.rd i.first (w.a.toNat + 2)
  [(w.l || x.extractLsb' 13 19 != 0 || i.rd i.first (w.a.toNat + 3) != 0, cIllegal, i.c.word),
   (va.extractLsb' 48 16 != 0, cXlate, va.extractLsb' 32 32), (va.extractLsb' 0 12 != 0, cMisalign, va.extractLsb' 0 32)]

/-- The team that a target word names (R347). -/
def State.contextTarget (s : State) (i : Issue) (x : Word) : Option Team :=
  s.teamAt i.t.cl (x.extractLsb' 0 8).toNat (x.extractLsb' 8 5).toNat

/-- The status of a context word. -/
def contextGive (w : RM) (s : State) (x : Word) : Done := { nothing s with res := fun _ => [(w.d.toNat, x)] }

/-- The stall result of a save that has begun and has not written its image: the placement it saves. -/
def savePending (uid : Nat) : Word := BitVec.ofNat 32 uid ||| 0x80000000

/-- The free values that an image may take are used up (log 27). -/
def State.tookFree (s : State) : State := { s with free := s.free + 2048 * 64 }

/-- The image of a stopped team is written and its place freed (R47, R421). -/
def saveTeam (s : State) (i : Issue) (t : Team) (va : Nat) : Done :=
  let s := s.putAway t
  match s.saved.getLast? with
  | none => stallFor s i 1 s.now
  | some (t, _) =>
    let r := s.writeArea i va (s.image t)
    stallFor r.1.tookFree i 0 r.2

/-- `sys.ctxsv` (R47, R347, R421). -/
def ctxsvDone (w : RM) (s : State) (i : Issue) : Done :=
  let va := (i.rd2 i.first w.a.toNat).toNat
  let x := i.rd i.first (w.a.toNat + 2)
  let me := some (i.c.uid, i.c.gid)
  let again := fun (s : State) (t : Team) => stallFor s i (savePending t.uid) (s.now + 1)
  let claim := fun (s : State) (t : Team) =>
    s.mapTeam t.uid fun t => if s.saverAlive t then t else { t with saving := me }
  match i.begun with
  | some y =>
    if !y.result.getLsbD 31 then
      (if s.now < y.waitUntil then stallFor s i y.result y.waitUntil else contextGive w s y.result)
    else
      match (s.contextTarget i x).filter fun t => savePending t.uid == y.result with
      | none => contextGive w s 1
      | some t =>
        if t.saving ≠ me then again (claim s t) t
        else
          match s.areaCheck i va t.record.imageSize .write with
          | .unresolvable => contextGive w (s.mapTeam t.uid fun t => { t with saving := none }) 2
          | .faults l => { st := s.park i .write false l, hold := some .park }
          | .usable =>
            let s := s.drainTeam t
            if s.canSave t then saveTeam s i t va else again s t
  | none =>
    checked s (contextChecks w i)
      (match s.contextTarget i x with
        | none => contextGive w s 1
        | some t =>
          match s.areaCheck i va t.record.imageSize .write with
          | .unresolvable => contextGive w s 2
          | .faults l => { st := s.park i .write false l, hold := some .park }
          | .usable => again (claim s t) t)

/-! ## Restoring (R48, R347, R425) -/

/-- An image is rejected (R425). -/
def State.imageRefused (s : State) (l : List Byte) (size : Nat) (cl core : Nat) : Bool :=
  let sl := s.slot (fieldAt l 10 1)
  let src := fieldAt l 12 4
  fieldAt l 0 4 != 0x56534651 || fieldAt l 4 2 != 1 || l.getD 6 0 != Config.stepping || !sl.en || sl.asid != fieldAt l 8 2
    || src % 256 != core || src / 65536 % 8 != cl || fieldAt l 52 4 != size

/-- The saved team an image stands for (DESIGN CHOICE, log 27: an image whose team is not saved any more, or whose
record is another, gives status 3): the one saved from this core and place with this generation. -/
def State.savedTeam (s : State) (l : List Byte) : Option (Team × Nat) :=
  let src := fieldAt l 12 4
  s.saved.find? fun x =>
    x.1.core == src % 256 && x.1.place == src / 256 % 32 && x.1.cl == src / 65536 % 8 && x.1.gen == fieldAt l 72 4

/-- The core is in service (R5), the place is free, the carve matches or the core is empty and re-carves, and the lanes
have room (R24, R27, R347, R426). -/
def State.canRestore (s : State) (t : Team) (place : Nat) : Bool :=
  let r := t.record
  let cores := if r.hinged then [t.core, t.core + 1] else [t.core]
  decide (place < places r.slots r.sp) && cores.all fun c =>
    !s.coreOut t.cl c && (s.teamAt t.cl c place).isNone && s.carveOk t.cl c r.slots r.sp && s.domainOk t.cl c t.launch t.hdr.fusion
      && decide (r.groupsOn (c != t.core) ≤ s.coreRoom t.cl c t.hdr.reservation)

/-- A command of a saved team has room where it is to go on: in the copy queue of its core, or in the table of armed
transfers (R132, R144, R198). -/
def State.roomFor (s : State) (o : EngOp) : Bool :=
  if o.stage = .finished then true
  else if o.cls = 0 then decide ((s.copyQueue o.cl o.core).length < 64)
  else if o.xfer?.any fun x => x.armed.isSome then decide ((s.armedTable o.cl o.core).length < 64)
  else true

/-- Commands of restored teams come back, in issue order, as there is room for them; a copy waits its turn in the queue
again (R48, R132, R144, log 47). -/
def State.bringBack (s : State) : State :=
  (s.ops.filter fun o => o.saved && (s.team? o.uid).isSome).foldl (fun s o =>
    if s.roomFor o then s.mapOp o.id fun o => { o with saved := false, place := ((s.team? o.uid).map (·.place)).getD o.place, stage := if o.cls = 0 ∧ o.stage = .running then .queued else o.stage }
    else s) s

/-- A restored team takes its lanes group by group; an empty core re-carves for it (R24), a team of another launch
empties the instruction buffers (R377), the L1 keeps no line of it (R48; every line of that L1 is dropped, log 47), and
a skein request is sent again (R139). Its commands come back with `State.bringBack`. -/
def State.takeBack (s : State) (t : Team) (place : Nat) : State :=
  let cores := if t.record.hinged then [t.core, t.core + 1] else [t.core]
  let s := cores.foldl (fun s c =>
    ((s.recarve t.cl c t.record.slots t.record.sp).dropL1 t.cl c).mapCore t.cl c fun x => x.codeOf t.launch) s
  let s := { s with
    saved := s.saved.filter fun x => x.1.uid != t.uid,
    teams := s.teams ++ [{ t with place := place, groups := [] }] }
  (List.range t.groups.length).foldl (fun s k =>
    match t.groups[k]? with
    | none => s
    | some g =>
      let core := t.coreOf k
      let lane := s.pickLane t.cl core t.hdr.reservation
      let active := !((s.laneGroups t.cl core lane).any fun x => x.2.2.active)
      let g := { g with lane := lane, active := active, since := s.now, age := s.nextId }
      { s.mapTeam t.uid fun t => { t with groups := t.groups ++ [g] } with nextId := s.nextId + 1 }) s

/-- `sys.ctxld` (R48, R347, R425). A poisoned sector of the image kills the team that loads it (R439). -/
def ctxldDone (w : RM) (s : State) (i : Issue) : Done :=
  let va := (i.rd2 i.first w.a.toNat).toNat
  let x := i.rd i.first (w.a.toNat + 2)
  let core := (x.extractLsb' 0 8).toNat
  checked s (contextChecks w i)
    (match s.areaCheck i va 4096 .read with
      | .unresolvable => contextGive w s 2
      | .faults l => { st := s.park i .read false l, hold := some .park }
      | .usable =>
        if s.areaPoisoned i va 4096 then nothing (s.killTeam i.c.uid cEcc 0)
        else
        let h := s.readArea i va 4096
        match Record.parse (sliceOf h.2 16 32) with
        | none => contextGive w h.1 3
        | some r =>
          if h.1.imageRefused h.2 r.imageSize i.t.cl core then contextGive w h.1 3
          else match h.1.areaCheck i va r.imageSize .read with
            | .unresolvable => contextGive w h.1 2
            | .faults l => { st := h.1.park i .read false l, hold := some .park }
            | .usable =>
              if h.1.areaPoisoned i va r.imageSize then nothing (h.1.killTeam i.c.uid cEcc 0)
              else
              let b := h.1.readArea i va r.imageSize
              match b.1.savedTeam b.2 with
              | none => contextGive w b.1 3
              | some (t, _) =>
                if t.record ≠ r then contextGive w b.1 3
                else if !b.1.canRestore t (x.extractLsb' 8 5).toNat then contextGive w b.1 1
                else contextGive w (b.1.takeBack ((t.restore b.2).mapThreads (b.1.slot t.slot).resumed) (x.extractLsb' 8 5).toNat) 0)

/-- SYS_CTXSV (R347): Saves the team at a target place into an image and frees the place. -/
def execSysCtxsv (w : RM) (s : State) : Host.Outcome State Fault Refusal :=
  issueWith (.rm 0x7F 1 .any { c := true } w) (fun _ _ => false) (fun _ l => l)
    (ctxsvDone w) s

/-- SYS_CTXLD (R347): Restores a saved image into an empty place and resumes the team. -/
def execSysCtxld (w : RM) (s : State) : Host.Outcome State Fault Refusal :=
  issueWith (.rm 0x7F 2 .any { c := true } w) (fun _ _ => false) (fun _ l => l)
    (ctxldDone w) s

end Sys2Proof.Machine
end

