-- ==== Sys2Proof/Machine/Convert.lean ====
section
/-! DEFINITION. Conversions (R276 to R281). -/

namespace Sys2Proof.Machine

open Sys2Proof

/-- One entry of `cvt` (R276, R277): the source is a register or a pair, the result too. -/
def convert (m : Nat) (w : RM) (i : Issue) (t : Nat) : Result :=
  let a : DWord :=
    if w.l then i.lit.setWidth 64
    else if (cvtWidths m).2 = 2 then i.rd2 t w.a.toNat else (i.rd t w.a.toNat).setWidth 64
  let r := cvtEntry m i.mode i.sat a
  (if (cvtWidths m).1 = 2 then pairOf w.d.toNat r.1 else [(w.d.toNat, r.1.extractLsb' 0 32)], r.2)

/-- A thread whose narrow control word is illegal traps (R278). -/
def Issue.narrowTrap (i : Issue) (w : RR) (t : Nat) : Option (Nat × Word) :=
  if narrowOk (i.srcB w t) then none else some (cIllegal, i.c.word)

/-- `ncvt.p` (R279). -/
def ncvtPDone (w : RR) (s : State) (i : Issue) : Done :=
  let r := fun t =>
    narrowPack i.mode i.sat (i.srcB w t) (i.rd t w.a.toNat) (i.rd t (w.a.toNat + 1)) (i.rd t (w.a.toNat + 2))
      (i.rd t (w.a.toNat + 3))
  { nothing s with trap := i.narrowTrap w, res := fun t => [(w.d.toNat, (r t).1)],
                   flags := fun t => (r (if w.u then i.first else t)).2 }

/-- `ncvt.u` (R280). -/
def ncvtUDone (w : RR) (s : State) (i : Issue) : Done :=
  let r := fun t k => narrowUnpack i.mode (i.srcB w t) (i.rd t w.a.toNat) k
  let fl := fun t => (r t 0).2 ||| (r t 1).2 ||| (r t 2).2 ||| (r t 3).2
  { nothing s with trap := i.narrowTrap w, res := fun t => (List.range 4).map fun k => (w.d.toNat + k, (r t k).1),
                   flags := fun t => fl (if w.u then i.first else t) }

/-- CVT_F32_F16 (R277): Converts FP16 a[15:0] to FP32 exactly. -/
def execCvtF32F16 (w : RM) (s : State) : Host.Outcome State Fault Refusal :=
  issueWord (.rm 0x4C 0 .any {} w) (compute (convert 0 w)) s

/-- CVT_F32_F16_HI (R277): Converts FP16 a[31:16] to FP32 exactly. -/
def execCvtF32F16Hi (w : RM) (s : State) : Host.Outcome State Fault Refusal :=
  issueWord (.rm 0x4C 1 .any {} w) (compute (convert 1 w)) s

/-- CVT_F32_BF16 (R277): Converts BF16 a[15:0] to FP32 exactly. -/
def execCvtF32Bf16 (w : RM) (s : State) : Host.Outcome State Fault Refusal :=
  issueWord (.rm 0x4C 2 .any {} w) (compute (convert 2 w)) s

/-- CVT_F32_BF16_HI (R277): Converts BF16 a[31:16] to FP32 exactly. -/
def execCvtF32Bf16Hi (w : RM) (s : State) : Host.Outcome State Fault Refusal :=
  issueWord (.rm 0x4C 3 .any {} w) (compute (convert 3 w)) s

/-- CVT_F16_F32 (R277): Rounds FP32 to FP16. -/
def execCvtF16F32 (w : RM) (s : State) : Host.Outcome State Fault Refusal :=
  issueWord (.rm 0x4C 4 .any {} w) (compute (convert 4 w)) s

/-- CVT_BF16_F32 (R277): Rounds FP32 to BF16. -/
def execCvtBf16F32 (w : RM) (s : State) : Host.Outcome State Fault Refusal :=
  issueWord (.rm 0x4C 5 .any {} w) (compute (convert 5 w)) s

/-- CVT_F16X2_F32 (R277): Rounds an FP32 pair to packed FP16. -/
def execCvtF16x2F32 (w : RM) (s : State) : Host.Outcome State Fault Refusal :=
  issueWord (.rm 0x4C 6 .any {} w) (compute (convert 6 w)) s

/-- CVT_BF16X2_F32 (R277): Rounds an FP32 pair to packed BF16. -/
def execCvtBf16x2F32 (w : RM) (s : State) : Host.Outcome State Fault Refusal :=
  issueWord (.rm 0x4C 7 .any {} w) (compute (convert 7 w)) s

/-- CVT_F64_F32 (R277): Widens FP32 to FP64. -/
def execCvtF64F32 (w : RM) (s : State) : Host.Outcome State Fault Refusal :=
  issueWord (.rm 0x4C 8 .any {} w) (compute (convert 8 w)) s

/-- CVT_F32_F64 (R277): Rounds FP64 to FP32. -/
def execCvtF32F64 (w : RM) (s : State) : Host.Outcome State Fault Refusal :=
  issueWord (.rm 0x4C 9 .any {} w) (compute (convert 9 w)) s

/-- CVT_F32_S32 (R277): Converts signed 32-bit integer to FP32. -/
def execCvtF32S32 (w : RM) (s : State) : Host.Outcome State Fault Refusal :=
  issueWord (.rm 0x4C 10 .any {} w) (compute (convert 10 w)) s

/-- CVT_F32_Z32 (R277): Converts unsigned 32-bit integer to FP32. -/
def execCvtF32Z32 (w : RM) (s : State) : Host.Outcome State Fault Refusal :=
  issueWord (.rm 0x4C 11 .any {} w) (compute (convert 11 w)) s

/-- CVT_F32_S64 (R277): Converts signed 64-bit integer to FP32. -/
def execCvtF32S64 (w : RM) (s : State) : Host.Outcome State Fault Refusal :=
  issueWord (.rm 0x4C 12 .any {} w) (compute (convert 12 w)) s

/-- CVT_F32_Z64 (R277): Converts unsigned 64-bit integer to FP32. -/
def execCvtF32Z64 (w : RM) (s : State) : Host.Outcome State Fault Refusal :=
  issueWord (.rm 0x4C 13 .any {} w) (compute (convert 13 w)) s

/-- CVT_F64_S32 (R277): Converts signed 32-bit integer to FP64. -/
def execCvtF64S32 (w : RM) (s : State) : Host.Outcome State Fault Refusal :=
  issueWord (.rm 0x4C 14 .any {} w) (compute (convert 14 w)) s

/-- CVT_F64_Z32 (R277): Converts unsigned 32-bit integer to FP64. -/
def execCvtF64Z32 (w : RM) (s : State) : Host.Outcome State Fault Refusal :=
  issueWord (.rm 0x4C 15 .any {} w) (compute (convert 15 w)) s

/-- CVT_F64_S64 (R277): Converts signed 64-bit integer to FP64. -/
def execCvtF64S64 (w : RM) (s : State) : Host.Outcome State Fault Refusal :=
  issueWord (.rm 0x4C 16 .any {} w) (compute (convert 16 w)) s

/-- CVT_F64_Z64 (R277): Converts unsigned 64-bit integer to FP64. -/
def execCvtF64Z64 (w : RM) (s : State) : Host.Outcome State Fault Refusal :=
  issueWord (.rm 0x4C 17 .any {} w) (compute (convert 17 w)) s

/-- CVT_S32_F32 (R277): Converts FP32 to signed 32-bit integer in the sampled mode. -/
def execCvtS32F32 (w : RM) (s : State) : Host.Outcome State Fault Refusal :=
  issueWord (.rm 0x4C 18 .any {} w) (compute (convert 18 w)) s

/-- CVT_Z32_F32 (R277): Converts FP32 to unsigned 32-bit integer in the sampled mode. -/
def execCvtZ32F32 (w : RM) (s : State) : Host.Outcome State Fault Refusal :=
  issueWord (.rm 0x4C 19 .any {} w) (compute (convert 19 w)) s

/-- CVT_S32_F32_RZ (R277): Converts FP32 to signed 32-bit integer toward zero. -/
def execCvtS32F32Rz (w : RM) (s : State) : Host.Outcome State Fault Refusal :=
  issueWord (.rm 0x4C 20 .any {} w) (compute (convert 20 w)) s

/-- CVT_Z32_F32_RZ (R277): Converts FP32 to unsigned 32-bit integer toward zero. -/
def execCvtZ32F32Rz (w : RM) (s : State) : Host.Outcome State Fault Refusal :=
  issueWord (.rm 0x4C 21 .any {} w) (compute (convert 21 w)) s

/-- CVT_S64_F32 (R277): Converts FP32 to signed 64-bit integer. -/
def execCvtS64F32 (w : RM) (s : State) : Host.Outcome State Fault Refusal :=
  issueWord (.rm 0x4C 22 .any {} w) (compute (convert 22 w)) s

/-- CVT_Z64_F32 (R277): Converts FP32 to unsigned 64-bit integer. -/
def execCvtZ64F32 (w : RM) (s : State) : Host.Outcome State Fault Refusal :=
  issueWord (.rm 0x4C 23 .any {} w) (compute (convert 23 w)) s

/-- CVT_S32_F64 (R277): Converts FP64 to signed 32-bit integer. -/
def execCvtS32F64 (w : RM) (s : State) : Host.Outcome State Fault Refusal :=
  issueWord (.rm 0x4C 24 .any {} w) (compute (convert 24 w)) s

/-- CVT_Z32_F64 (R277): Converts FP64 to unsigned 32-bit integer. -/
def execCvtZ32F64 (w : RM) (s : State) : Host.Outcome State Fault Refusal :=
  issueWord (.rm 0x4C 25 .any {} w) (compute (convert 25 w)) s

/-- CVT_S64_F64 (R277): Converts FP64 to signed 64-bit integer. -/
def execCvtS64F64 (w : RM) (s : State) : Host.Outcome State Fault Refusal :=
  issueWord (.rm 0x4C 26 .any {} w) (compute (convert 26 w)) s

/-- CVT_Z64_F64 (R277): Converts FP64 to unsigned 64-bit integer. -/
def execCvtZ64F64 (w : RM) (s : State) : Host.Outcome State Fault Refusal :=
  issueWord (.rm 0x4C 27 .any {} w) (compute (convert 27 w)) s

/-- CVT_S32_F64_RZ (R277): Converts FP64 to signed 32-bit integer toward zero. -/
def execCvtS32F64Rz (w : RM) (s : State) : Host.Outcome State Fault Refusal :=
  issueWord (.rm 0x4C 28 .any {} w) (compute (convert 28 w)) s

/-- CVT_S64_F64_RZ (R277): Converts FP64 to signed 64-bit integer toward zero. -/
def execCvtS64F64Rz (w : RM) (s : State) : Host.Outcome State Fault Refusal :=
  issueWord (.rm 0x4C 29 .any {} w) (compute (convert 29 w)) s

/-- CVT_F16_F64 (R277): Rounds FP64 to FP16 once. -/
def execCvtF16F64 (w : RM) (s : State) : Host.Outcome State Fault Refusal :=
  issueWord (.rm 0x4C 30 .any {} w) (compute (convert 30 w)) s

/-- CVT_BF16_F64 (R277): Rounds FP64 to BF16 once. -/
def execCvtBf16F64 (w : RM) (s : State) : Host.Outcome State Fault Refusal :=
  issueWord (.rm 0x4C 31 .any {} w) (compute (convert 31 w)) s

/-- CVT_F64_F16 (R277): Widens FP16 to FP64. -/
def execCvtF64F16 (w : RM) (s : State) : Host.Outcome State Fault Refusal :=
  issueWord (.rm 0x4C 32 .any {} w) (compute (convert 32 w)) s

/-- CVT_F64_BF16 (R277): Widens BF16 to FP64. -/
def execCvtF64Bf16 (w : RM) (s : State) : Host.Outcome State Fault Refusal :=
  issueWord (.rm 0x4C 33 .any {} w) (compute (convert 33 w)) s

/-- CVT_BF16_F16 (R277): Rounds FP16 to BF16. -/
def execCvtBf16F16 (w : RM) (s : State) : Host.Outcome State Fault Refusal :=
  issueWord (.rm 0x4C 34 .any {} w) (compute (convert 34 w)) s

/-- CVT_F16_BF16 (R277): Rounds BF16 to FP16. -/
def execCvtF16Bf16 (w : RM) (s : State) : Host.Outcome State Fault Refusal :=
  issueWord (.rm 0x4C 35 .any {} w) (compute (convert 35 w)) s

/-- CVT_S8_F32 (R277): Converts FP32 to a sign-extended 8-bit integer. -/
def execCvtS8F32 (w : RM) (s : State) : Host.Outcome State Fault Refusal :=
  issueWord (.rm 0x4C 36 .any {} w) (compute (convert 36 w)) s

/-- CVT_Z8_F32 (R277): Converts FP32 to a zero-extended 8-bit integer. -/
def execCvtZ8F32 (w : RM) (s : State) : Host.Outcome State Fault Refusal :=
  issueWord (.rm 0x4C 37 .any {} w) (compute (convert 37 w)) s

/-- CVT_S16_F32 (R277): Converts FP32 to a sign-extended 16-bit integer. -/
def execCvtS16F32 (w : RM) (s : State) : Host.Outcome State Fault Refusal :=
  issueWord (.rm 0x4C 38 .any {} w) (compute (convert 38 w)) s

/-- CVT_Z16_F32 (R277): Converts FP32 to a zero-extended 16-bit integer. -/
def execCvtZ16F32 (w : RM) (s : State) : Host.Outcome State Fault Refusal :=
  issueWord (.rm 0x4C 39 .any {} w) (compute (convert 39 w)) s

/-- NCVT_P (R279): Packs four scaled FP32 values into n8 bytes. -/
def execNcvtP (w : RR) (s : State) : Host.Outcome State Fault Refusal :=
  issueWith (.rr 0x4D .any {} w) (fun _ => narrowOk) (fun _ l => l) (ncvtPDone w) s

/-- NCVT_U (R280): Unpacks four n8 bytes into scaled FP32 values. -/
def execNcvtU (w : RR) (s : State) : Host.Outcome State Fault Refusal :=
  issueWith (.rr 0x4E .any {} w) (fun _ => narrowOk) (fun _ l => l) (ncvtUDone w) s

/-- FSCALE (R281): Writes a × 2^b rounded. -/
def execFscale (w : RR) (s : State) : Host.Outcome State Fault Refusal :=
  issueWord (.rr 0x4F .any {} w) (compute (fbinary fpScale w)) s

end Sys2Proof.Machine
end

