-- ==== Sys2Proof/Machine/Cross.lean ====
section
/-! DEFINITION. Cross-thread reads, votes and scans, register indirection (R253 to R259). -/

namespace Sys2Proof.Machine

open Sys2Proof

/-- The value thread `j` gives a cross-thread read of field `n` (R38). -/
def Issue.other (i : Issue) (n : Nat) (fill : Word) (j : Int) : Word :=
  if j < 0 ∨ (i.g.threads.length : Int) ≤ j then fill
  else
    let k := j.toNat
    if !((i.c.snap.threads[k]?.map (·.live)).getD false) then 0
    else if i.ts.contains k then i.rd k n
    else
      let r := i.regState k n
      if r.st = .full then r.val else 0

/-- A cross-thread word (R253, R254): `src` gives j from t and e; with L = 1, e is the modifier field. -/
def crossRead (signed : Bool) (src : Int → Int → Int) (w : RR) (i : Issue) (t : Nat) : Result :=
  let e : Int := if w.l then w.b.toNat else if signed then (i.rd t w.b.toNat).toInt else (i.rd t w.b.toNat).toNat
  ([(w.d.toNat, i.other w.a.toNat (if w.l then i.lit else 0) (src t e))], 0)

/-- The threads of the subset whose a is not 0 (R256). -/
def Issue.trueOnes (i : Issue) (w : RM) : List Nat := i.ts.filter fun t => i.srcA w t != 0

/-- A vote or a scan (R255, R256). -/
def vote (f : Issue → RM → Nat → Word) (w : RM) (i : Issue) (t : Nat) : Result := ([(w.d.toNat, f i w t)], 0)

/-- The mask of the threads with a nonzero a (R256). -/
def ballot (i : Issue) (w : RM) : DWord := (i.trueOnes w).foldl (fun m t => m ||| BitVec.ofNat 64 (2 ^ t)) 0

/-- The sum of a over some threads, modulo 2^32 (R256). -/
def sumOf (i : Issue) (w : RM) (ts : List Nat) : Word := ts.foldl (fun x t => x + i.srcA w t) 0

/-- Index k of `rget` and `rput`, as a signed number (R257). -/
def Issue.index (i : Issue) (w : RR) (t : Nat) : Int := (i.rd t w.a.toNat + i.srcB w t).toInt

/-- k names a register of the kernel (R257). -/
def Issue.indexOk (i : Issue) (w : RR) (t : Nat) : Bool :=
  decide (0 ≤ i.index w t) && decide (i.index w t < (i.t.hdr.regs : Int))

/-- ILLEGAL for an index out of range (R257). -/
def Issue.indexTrap (i : Issue) (w : RR) (t : Nat) : Option (Nat × Word) :=
  if i.indexOk w t then none else some (cIllegal, i.c.word)

/-- The banks touched: those of the indices of all active threads, whether or not they name a register (R257). DESIGN CHOICE:
a thread whose own source traps, and so has no index, counts with the value that the trapping register keeps (log 11). -/
def Issue.banks (i : Issue) (w : RR) : List Nat := (i.c.active.map fun t => (i.index w t % 4).toNat).dedup

/-- `rget` (R258): v_k blocks while EMPTY; an ABSENT one in trap mode traps with k; over more than one bank the word is
a long-latency producer. -/
def rgetDone (w : RR) (s : State) (i : Issue) : Done :=
  let k := fun t => (i.index w t).toNat
  let st := fun t => (i.regState t (k t)).st
  let ok := i.ts.filter fun t => i.indexOk w t
  let trap := fun t =>
    if !i.indexOk w t then some (cIllegal, i.c.word)
    else if st t = .absent ∧ i.c.snap.absm ≠ 0 then some (cRegAbsent, BitVec.ofNat 32 (k t))
    else none
  let run := ok.filter fun t => (trap t).isNone
  let banks := i.banks w
  if ok.any fun t => st t == .empty then waitFor s .reg
  else if banks.length ≤ 1 then
    if run.any fun t => i.destBusy t w.d.toNat 1 then waitFor s .reg
    else { nothing s with trap := trap, res := fun t => [(w.d.toNat, i.rd t (k t))] }
  else
    let fl := run.mapIdx fun n t => i.flight s t n (.regs w.d.toNat [i.rd t (k t)])
    { nothing (s.addFlights fl) with
        trap := trap,
        pend := fun t => ((fl.filter fun f => f.thread == t).map fun f => (w.d.toNat, f.id)) }

/-- `rput` (R259): within one bank it writes v_k, after its older producers; over more than one it is a long-latency
producer (R237). -/
def rputDone (w : RR) (s : State) (i : Issue) : Done :=
  let k := fun t => (i.index w t).toNat
  let run := i.ts.filter fun t => i.indexOk w t
  if run.any fun t => i.destBusy t (k t) 1 then waitFor s .reg
  else if (i.banks w).length ≤ 1 then { nothing s with trap := i.indexTrap w, res := fun t => [(k t, i.rd t w.d.toNat)] }
  else
    let fl := run.mapIdx fun n t => i.flight s t n (.regs (k t) [i.rd t w.d.toNat])
    { nothing (s.addFlights fl) with
        trap := i.indexTrap w,
        pend := fun t => (fl.filter fun f => f.thread == t).map fun f => (k t, f.id) }

/-- XIDX (R253): Reads register A of thread e. -/
def execXidx (w : RR) (s : State) : Host.Outcome State Fault Refusal :=
  issueWord (.rr 0x26 .zero {} w) (compute (crossRead true (fun _ e => e) w)) s

/-- XUP (R253): Reads register A of thread t − e. -/
def execXup (w : RR) (s : State) : Host.Outcome State Fault Refusal :=
  issueWord (.rr 0x27 .zero {} w) (compute (crossRead true (fun t e => t - e) w)) s

/-- XDOWN (R253): Reads register A of thread t + e. -/
def execXdown (w : RR) (s : State) : Host.Outcome State Fault Refusal :=
  issueWord (.rr 0x28 .zero {} w) (compute (crossRead true (fun t e => t + e) w)) s

/-- XXOR (R253): Reads register A of thread t XOR e. -/
def execXxor (w : RR) (s : State) : Host.Outcome State Fault Refusal :=
  issueWord (.rr 0x29 .zero {} w) (compute (crossRead false (fun t e => ((t.toNat ^^^ e.toNat : Nat) : Int)) w)) s

/-- ANY (R256): Writes 1 if any participating thread's a is nonzero. -/
def execAny (w : RM) (s : State) : Host.Outcome State Fault Refusal :=
  issueWord (.rm 0x2A 0 .zero {} w) (compute (vote (fun i w _ => truth (!(i.trueOnes w).isEmpty)) w)) s

/-- ALL (R256): Writes 1 if every participating thread's a is nonzero. -/
def execAll (w : RM) (s : State) : Host.Outcome State Fault Refusal :=
  issueWord (.rm 0x2A 1 .zero {} w) (compute (vote (fun i w _ => truth ((i.trueOnes w).length == i.ts.length)) w)) s

/-- BALLOT_LO (R256): Writes the low 32 bits of the vote mask. -/
def execBallotLo (w : RM) (s : State) : Host.Outcome State Fault Refusal :=
  issueWord (.rm 0x2A 2 .zero {} w) (compute (vote (fun i w _ => (ballot i w).extractLsb' 0 32) w)) s

/-- BALLOT_HI (R256): Writes the high 32 bits of the vote mask. -/
def execBallotHi (w : RM) (s : State) : Host.Outcome State Fault Refusal :=
  issueWord (.rm 0x2A 3 .zero {} w) (compute (vote (fun i w _ => (ballot i w).extractLsb' 32 32) w)) s

/-- COUNT (R256): Writes the number of threads with nonzero a. -/
def execCount (w : RM) (s : State) : Host.Outcome State Fault Refusal :=
  issueWord (.rm 0x2A 4 .zero {} w) (compute (vote (fun i w _ => BitVec.ofNat 32 (i.trueOnes w).length) w)) s

/-- ELECT (R256): Writes 1 to the lowest thread with nonzero a. -/
def execElect (w : RM) (s : State) : Host.Outcome State Fault Refusal :=
  issueWord (.rm 0x2A 5 .zero {} w) (compute (vote (fun i w t => truth ((i.trueOnes w).head? == some t)) w)) s

/-- MATCH (R256): Writes the lowest thread index with an equal a. -/
def execXmatch (w : RM) (s : State) : Host.Outcome State Fault Refusal :=
  issueWord (.rm 0x2A 6 .zero {} w)
    (compute (vote (fun i w t => BitVec.ofNat 32 ((i.ts.find? fun u => i.srcA w u == i.srcA w t).getD t)) w)) s

/-- SCAN_ADD (R256): Writes the inclusive running sum of a. -/
def execScanAdd (w : RM) (s : State) : Host.Outcome State Fault Refusal :=
  issueWord (.rm 0x2A 7 .zero {} w) (compute (vote (fun i w t => sumOf i w (i.ts.filter fun u => u ≤ t)) w)) s

/-- SUM_ADD (R256): Writes the sum of a over participating threads. -/
def execSumAdd (w : RM) (s : State) : Host.Outcome State Fault Refusal :=
  issueWord (.rm 0x2A 8 .zero {} w) (compute (vote (fun i w _ => sumOf i w i.ts) w)) s

/-- RGET (R258): Reads register v_k selected by a + b. -/
def execRget (w : RR) (s : State) : Host.Outcome State Fault Refusal :=
  issueWord (.rr 0x2B .zero {} w) (rgetDone w) s

/-- RPUT (R259): Writes d into register v_k selected by a + b. -/
def execRput (w : RR) (s : State) : Host.Outcome State Fault Refusal :=
  issueWord (.rr 0x2C .zero {} w) (rputDone w) s

end Sys2Proof.Machine
end

