-- ==== Sys2Proof/Machine/Events.lean ====
section
/-! DEFINITION. What happens on its own in the cores: placement, carves and stealing (R19 to R28), the exit of teams (R17,
R18, R447), exchanges and meetings (R32 to R36), the instruction buffers (R205, R376, R377), deadlines and orphans (R44,
R46, R160), drains and acknowledgements (R70 to R75, R84, R97), walks (R414). -/

namespace Sys2Proof.Machine

open Sys2Proof

/-! ## Carves, stealing, priorities (R21, R22, R25) -/

/-- A record waits only because no core in service has a matching carve: every core it may use holds teams of another
carve (R25). -/
def State.carveBlocked (s : State) (cl : Nat) (q : QRec) : Bool :=
  let cores := (List.range Config.coresPerCluster).filter fun c => !s.coreOut cl c && (q.pin.isNone || q.pin == some c)
  cores.all (fun c =>
    !(s.teamsOn cl c).isEmpty && (s.core cl c).carve != some (q.record.slots, q.record.sp)) && !s.placeable cl q

/-- The head records of a cluster, highest level first, that wait for their carve. -/
def State.carveWaiters (s : State) (cl : Nat) : List QRec :=
  if (s.cluster cl).queue.isEmpty then []
  else [3, 2, 1, 0].filterMap fun p => (s.head cl p).filter fun q => s.carveBlocked cl q

/-- A cluster's note of the head records that wait for their carve, and since when; a reservation whose record has left
the queue is dropped (R25). -/
def State.noteWaiter (s : State) (c : Cluster) : Cluster :=
  { c with
      waits := (s.carveWaiters c.num).map fun q => (c.waits.find? fun x => x.1 == q.id).getD (q.id, s.now),
      reserved := c.reserved.filter fun r => c.queue.any fun q => q.id == r.record }

/-- A head record has waited 200 µs for its carve and has no core kept for it (R25). -/
def State.carveDue (s : State) (cl : Nat) (q : QRec) : Bool :=
  ((s.cluster cl).waits.any fun x => x.1 == q.id && decide (x.2 + Config.carveAfter ≤ s.now))
    && !((s.cluster cl).reserved.any fun r => r.record == q.id)

/-- The core with the fewest resident teams kept for the carve of a record (R25), among those it may use that are not kept
for another record (log 51). -/
def State.reserveCore (s : State) (cl : Nat) (q : QRec) : State :=
  let cores := (List.range Config.coresPerCluster).filter fun n =>
    !s.coreOut cl n && (q.pin.isNone || q.pin == some n) && !((s.cluster cl).reserved.any fun r => r.core == n)
  match leastBy (fun n => (s.teamsOn cl n).length) cores with
  | some n =>
    s.mapCluster cl fun c => { c with reserved := c.reserved ++ [{ core := n, slots := q.record.slots, sp := q.record.sp, record := q.id }] }
  | none => s

/-- CARVE_RESERVATION (R25): a core is kept for each head record that has waited 200 µs for its carve. -/
def State.carveReserve (s : State) (cl : Nat) : State :=
  ((s.carveWaiters cl).filter fun q => s.carveDue cl q).foldl (fun s q => s.reserveCore cl q) s

/-- The clusters a cluster looks at to steal: its own die first, then the others, ascending (R22). -/
def stealOrder (cl : Nat) : List Nat :=
  let mate := if cl % 2 = 0 then cl + 1 else cl - 1
  mate :: (List.range Config.clusters).filter fun c => c != cl && c != mate

/-- The first record of other clusters that a cluster can place: no gang, no handler record (R22). DESIGN CHOICE:
records rank by the level they are served at, raised ones by their raised level (log 51). -/
def State.stealable (s : State) (cl : Nat) : Option (Nat × QRec) :=
  [3, 2, 1, 0].findSome? fun p => (stealOrder cl).findSome? fun c =>
    (leastBy (fun q => q.pushed) ((s.cluster c).queue.filter fun q =>
      q.level == p && !q.record.gang && q.msg.isNone && s.placeable cl q)).map fun q => (c, q)

/-- STEAL (R22): the upper half of the unplaced indices, or the one that remains. -/
def State.steal (s : State) (cl : Nat) : State :=
  if !(s.cluster cl).queue.isEmpty ∨ (s.clusters.all fun c => c.queue.isEmpty) then s
  else
    match s.stealable cl with
    | none => s
    | some (c, q) =>
      match s.readBack c q with
      | (s, false) => s
      | (s, true) =>
        let r := q.stop - q.next
        let k := if r = 1 then 1 else r / 2
        let s := s.mapRec c q.id fun q => if k = r then none else some { q with stop := q.stop - k }
        { s.mapCluster cl fun x => { x with queue := x.queue ++ [{ q with id := s.nextId, next := q.stop - k, spillAt := none }] } with
            nextId := s.nextId + 1 }

/-- PRIORITY_RAISE (R21): a record that has waited more than 1 ms is served one level higher. -/
def State.raisePriority (s : State) (cl rid : Nat) : State :=
  s.mapRec cl rid fun q =>
    some (if !q.raised ∧ q.prio < 3 ∧ q.pushed + Config.raiseAfter < s.now then { q with raised := true } else q)

/-! ## The exit of a team (R17, R18, R447) -/

/-- Every thread of the team has exited. -/
def Team.over (t : Team) : Bool := t.groups.all fun g => g.threads.all fun th => !th.live

/-- The counters that hold a team's exit have reached zero: copy, matrix and collective (R18). -/
def State.countersZero (s : State) (uid : Nat) : Bool := !(s.ops.any fun o => o.uid == uid && o.cls != 2)

/-- The stores of a placement are performed and acknowledged, its buffer entries among them (R18). -/
def State.storesAcked (s : State) (uid : Nat) : Bool :=
  !(s.flights.any fun f => f.uid == uid && !f.acked) && !(s.cores.any fun c => c.sb.any fun e => e.uid == uid)

/-- The oldest engine event of a team not reported, with the `exit` of its group (R447). -/
def Team.oldestEvent (t : Team) : Option (EngEvent × DWord) :=
  leastBy (fun x => x.1.seq) (t.groups.flatMap fun g => g.events.map fun e => (e, g.lastExit))

/-- The join block of a team that has exited is decremented, and its record taken up at zero (R17). -/
def State.joinExit (s : State) (t : Team) : State :=
  if t.record.join = 0 then s
  else
    let s' := s.addJoin t t.core t.record.join true none
    match s'.joins.getLast? with
    | some j => s'.owedDecrement j
    | none => s'

/-- TEAM_EXIT (R17, R18, R447). -/
def State.teamExit (s : State) (uid : Nat) : State :=
  match s.team? uid with
  | none => s
  | some t =>
    if !t.over ∨ !s.countersZero uid ∨ !s.storesAcked uid then s
    else
      match t.oldestEvent with
      | some (e, va) => s.killTeam uid (if e.pivot then cPivot else cLatchFault) va
      | none =>
        if t.record.join ≠ 0 ∧ s.now < t.horizon + Config.skew then s
        else (s.releaseTeam t false).joinExit t

/-! ## Lanes (R32, R33) -/

/-- GROUP_EXCHANGE (R32): a waiting active group gives its lane to the oldest ready pending one. -/
def State.waitExchange (s : State) (uid gid : Nat) : State :=
  match s.group? uid gid with
  | none => s
  | some g => if g.active ∧ g.isWaiting ∧ !(g.stall.map (·.begun)).getD false then s.exchange uid gid else s

/-- Arithmetic clocks that a group may hold its lane (R33). -/
def sliceClocks : Nat := 4096

/-- GROUP_TIMESLICE_EXCHANGE (R33): at a packet boundary, after 4,096 ck at the present clock. -/
def State.sliceExchange (s : State) (uid gid : Nat) : State :=
  match s.group? uid gid with
  | none => s
  | some g =>
    if g.active ∧ !g.isWaiting ∧ g.atBoundary ∧ sliceClocks * 1000 ≤ (s.now - g.since) * s.power.clock then s.exchange uid gid
    else s

/-! ## Meetings (R35, R36) -/

/-- The set held at an address is complete: every live thread whose meeting register is the address is held there. -/
def Group.meetingFull (g : Group) (m : DWord) : Bool := g.threads.all fun th => !th.live || th.meet != m || th.isHeld

/-- The meeting address whose set is released now: the lowest that is complete, or the lowest of all when every live
thread is held. -/
def Group.meetingDue (g : Group) : Option DWord :=
  let held := (g.threads.filter Thread.isHeld).map (·.meet)
  let full := held.filter g.meetingFull
  leastBy BitVec.toNat (if full = [] ∧ g.threads.all (fun th => !th.live || th.isHeld) then held else full)

/-- MEETING_RELEASE (R35, R36): the threads go on as one subset. -/
def State.releaseMeeting (s : State) (uid gid : Nat) : State :=
  match (s.group? uid gid).bind Group.meetingDue with
  | none => s
  | some m =>
    { s.mapGroup uid gid fun g =>
        { g with threads := g.threads.map fun th =>
            if th.isHeld ∧ th.meet = m then { th with meet := 0, lastIssue := s.nextId } else th } with
      nextId := s.nextId + 1 }

/-! ## What may issue (R34, R44, R46, R160, R296) -/

/-- The group may issue: it is active, not parked, not stopped, not stalled for longer, and a thread of it may issue. -/
def State.mayIssue (s : State) (t : Team) (gid : Nat) (g : Group) : Bool :=
  g.active && g.ready && !s.frozen t gid g && g.stall.all fun x => decide (x.waitUntil ≤ s.now)

/-- The subset that issues: that of a stalled set once its time has come, else the one whose turn it is (R34, R296). -/
def Group.issueSubset (g : Group) : Option (DWord × List Nat) :=
  match g.stall with
  | none => g.subset
  | some x =>
    let ts := g.threadsWith fun th => th.issuable && th.pc == x.setPc
    if ts = [] then g.subset else some (x.setPc, ts)

/-- The group has begun a word that completes before a trap at a boundary may be taken (R296). -/
def Group.busyWith (g : Group) (pc : DWord) : Bool := g.stall.any fun x => x.begun && x.setPc == pc

/-- The thread may take its pending DEADLINE now (R44, R46): at a packet boundary, out of a wait, or at the target of an
`eret`; a set that it was parked in is replayed first. -/
def Group.deadlineDue (g : Group) (t : Nat) : Bool :=
  match g.threads[t]? with
  | none => false
  | some th => th.live && th.dlPend.isSome && !th.inHandler && !th.orphan && g.parked.isEmpty && !g.busyWith th.pc
      && !(g.replay.contains t && th.wait == .none)
      && (slotOf th.pc == 0 || th.wait != .none || th.atEret)

/-- The thread may take ORPHAN now (R160). -/
def Group.orphanDue (g : Group) (t : Nat) : Bool :=
  match g.threads[t]? with
  | none => false
  | some th => th.live && th.orphan && !g.busyWith th.pc

/-- A thread of a subset takes a trap that has fallen due before its next word (R44). -/
def Group.trapDue (g : Group) (ts : List Nat) : Bool := ts.any fun t => g.orphanDue t || g.deadlineDue t

/-! ## Instruction buffers (R205, R376, R377) -/

/-- Lines of an instruction buffer (R376). -/
def bufferLines : Nat := 32

/-- The partition of a lane (R3). -/
def partOf (lane : Nat) : Nat := lane / 8

/-- The line of the group's partition that holds an address. -/
def State.codeLine (s : State) (t : Team) (gid : Nat) (g : Group) (va : Nat) : Option CodeLine :=
  (s.core t.cl (t.coreOf gid)).code.find? fun l => l.slot == t.slot && l.part == partOf g.lane && l.va == va / 256

/-- The line that gives way in a full buffer: the least recently used; a line that no issue has used yet stays while
another has been used (R376, log 7). -/
def oldestLine (l : List CodeLine) : Option CodeLine :=
  match leastBy (fun x => x.used) (l.filter fun x => x.used != 0) with
  | some x => some x
  | none => l.getLast?

/-- A line put into a partition's buffer, in place of another when the buffer is full (R376). -/
def Core.putLine (c : Core) (l : CodeLine) : Core :=
  let mine := c.code.filter fun x => x.part == l.part
  { c with
      code := l :: (match if mine.length < bufferLines then none else oldestLine mine with
        | some x => c.code.erase x
        | none => c.code),
      ahead := c.ahead.filter fun a => !(a.slot == l.slot && a.part == l.part && a.va == l.va) }

/-- How the fetch of a line ends. -/
inductive Fetch where
  | filled (s : State)
  | fault (kind level : Nat)
  | denied
  deriving DecidableEq, Repr

/-- A line read from its home slices through translation (R205, R376). -/
def State.fetchLine (s : State) (t : Team) (gid : Nat) (g : Group) (va : Nat) : Fetch :=
  let base := va / 256 * 256
  match s.translate (s.slot t.slot) base .fetch with
  | .untracked => .denied
  | .bad kind level => if kind = kPerm then .denied else .fault kind level
  | .ok pa _ e =>
    let r := (s.tlbFill e).sliceRead pa 256
    .filled (r.1.mapCore t.cl (t.coreOf gid) fun c =>
      c.putLine { slot := t.slot, part := partOf g.lane, va := va / 256, bytes := r.2, used := 0 })

/-- The threads of a subset take PERM for a fetch (R205). -/
def State.denyFetch (s : State) (uid gid : Nat) (pc : DWord) (ts : List Nat) : State :=
  ts.foldl (fun s t => s.takeTrap uid gid t cPerm (pc.extractLsb' 0 32) pc)
    { s.servedFails uid gid pc with nextId := s.nextId + 1 }

/-- The group is parked on the fault of a fetch (R41, R205, R418). -/
def State.parkFetch (s : State) (t : Team) (gid : Nat) (pc : DWord) (ts : List Nat) (kind level : Nat) : State :=
  let who : Accessor := .group t.uid gid
  let s := s.raiseFault t.slot pc.toNat kind (accBits .fetch false false) level (t.groupSource gid) who
  s.mapGroup t.uid gid fun g =>
    { g with parked := (s.faults.filter fun f => f.who.contains who).map (·.id), parkPc := pc, replay := ts,
             failed := if g.parkPc = pc then g.failed else [] }

/-- The line of a subset's packet is fetched; a fault parks its group, or is its trap (R205, R376, R419). -/
def State.fetchFor (s : State) (t : Team) (gid : Nat) (g : Group) (pc : DWord) (ts : List Nat) : State :=
  if g.parkPc = pc ∧ g.failed.any fun x => x.1 == pc.toNat / 4096 then s.denyFetch t.uid gid pc ts
  else match s.fetchLine t gid g pc.toNat with
  | .filled s => s
  | .denied => s.denyFetch t.uid gid pc ts
  | .fault kind level => s.parkFetch t gid pc ts kind level

/-- A fetch ahead ended by a fault: the line stays absent (R376). -/
def State.dropAhead (s : State) (t : Team) (gid : Nat) (x : CodeAhead) : State :=
  s.mapCore t.cl (t.coreOf gid) fun c => { c with ahead := c.ahead.erase x }

/-- INSTRUCTION_LINE_FILL (R376): the line that the group's next subset needs to issue, or a line that its partition fetches ahead:
a fault on that one leaves it absent. -/
def State.lineFill (s : State) (uid gid : Nat) (va : DWord) : State :=
  match s.team? uid with
  | none => s
  | some t =>
    match t.groups[gid]? with
    | none => s
    | some g =>
      let x : CodeAhead := { slot := t.slot, part := partOf g.lane, va := va.toNat / 256 }
      if (s.core t.cl (t.coreOf gid)).ahead.contains x then
        match if (s.codeLine t gid g va.toNat).isSome then .denied else s.fetchLine t gid g va.toNat with
        | .filled s => s
        | _ => s.dropAhead t gid x
      else match g.issueSubset with
        | none => s
        | some (pc, ts) =>
          if !s.mayIssue t gid g ∨ g.trapDue ts ∨ (s.codeLine t gid g va.toNat).isSome ∨ va.toNat / 256 ≠ pc.toNat / 256 then s
          else s.fetchFor t gid g pc ts

/-- The thread is in the middle of an execution of the packet: past its slot 0, stalled in it, or in a handler that it
entered from there (R377). -/
def Group.midPacket (g : Group) (p : DWord) (t : Nat) : Bool :=
  g.threads[t]?.any fun th => th.live && ((packetOf th.pc == p && (slotOf th.pc != 0 || g.stall.any fun x => x.setPc == th.pc))
    || (th.inHandler && packetOf th.trapa == p && slotOf th.trapa != 0))

/-- The bytes with which an execution of a packet now begins: those of the last fill, or, when the packet has been stored
to since, a free choice between the two (R377, log 7). -/
def State.freshBytes (s : State) (t : Team) (l : CodeLine) (p : DWord) : State × List Byte :=
  let held := (l.bytes.drop (p.toNat % 256)).take 16
  match s.translate (s.slot t.slot) p.toNat .fetch with
  | .ok pa _ _ =>
    let now := Memory.readN s.mem pa 16
    if now = held then (s, held)
    else ({ s with free := s.free + 1 }, if Config.fetchFresh s.free then now else held)
  | _ => (s, held)

/-- The bytes with which a thread has begun the execution of a packet that it is in the middle of (R377). -/
def Group.keptBytes (g : Group) (p : DWord) (t : Nat) : Option (List Byte) :=
  if g.midPacket p t then (g.packets.find? fun x => x.1 == p && x.2.1.contains t).map (·.2.2) else none

/-- The threads of a subset that go on with the same bytes as its lowest one; others issue in a turn of their own, as
one word cannot be two (R377). -/
def Group.sameBytes (g : Group) (p : DWord) (ts : List Nat) : List Nat :=
  ts.filter fun t => g.keptBytes p t == g.keptBytes p (ts.headD 0)

/-- The 16 bytes that an execution of a packet uses as a whole: those it began with (R377). -/
def State.packetBytes (s : State) (t : Team) (g : Group) (l : CodeLine) (pc : DWord) (ts : List Nat) : State × List Byte :=
  match g.keptBytes (packetOf pc) (ts.headD 0) with
  | some x => (s, x)
  | none => s.freshBytes t l (packetOf pc)

/-- The bytes of a packet kept for the rest of its execution by some threads (R377). -/
def Group.keepPacket (g : Group) (p : DWord) (ts : List Nat) (bytes : List Byte) : Group :=
  { g with packets := (p, ts, bytes) :: (g.packets.map fun x =>
      (x.1, x.2.1.filter fun t => !(x.1 == p && ts.contains t) && g.midPacket x.1 t, x.2.2)).filter fun x => x.2.1 != [] }

/-! ## Deadlines and orphans (R44, R46, R160) -/

/-- An engine command that a deadline stops (R46). -/
def EngOp.dlStops (o : EngOp) : Bool :=
  match o.body with
  | .copy _ _ _ _ => true
  | .tile _ _ => true
  | .prefetch _ _ _ => true
  | .mloop _ => true
  | .mfact _ _ _ => true
  | .mtrsm _ _ _ _ _ _ _ => true
  | _ => false

/-- DEADLINE falls due in a thread; an earlier one still pending stays (R42, R46). -/
def Thread.due (old : Nat) (th : Thread) : Thread :=
  if th.live ∧ th.dlPend.isNone then { th with dlPend := some old } else th

/-- A deadline falls due in a team (R46, R184). -/
def State.expire (s : State) (uid old : Nat) : State :=
  let s := (s.ops.filter fun o => o.uid == uid && !o.saved).foldl State.stopFactor s
  { s.mapTeam uid fun t => { t.mapThreads (Thread.due old) with dlin := 0 } with
      ops := s.ops.map fun o => if o.uid = uid ∧ o.dlStops then o.stopAt 1 else o }

/-- DEADLINE_EXPIRY (R46). -/
def State.deadlineExpiry (s : State) (uid : Nat) : State :=
  match s.team? uid with
  | none => s
  | some t => if t.dlin ≠ 0 ∧ t.dlin ≤ s.now then s.expire uid t.dlin else s

/-- DEADLINE_TRAP (R42, R44, R46). -/
def State.deadlineTrap (s : State) (uid gid t : Nat) : State :=
  match s.group? uid gid with
  | none => s
  | some g =>
    match g.threads[t]? with
    | none => s
    | some th =>
      if !g.deadlineDue t then s
      else
        let datum := BitVec.ofNat 32 (s.now - th.dlPend.getD 0)
        let s := s.mapGroup uid gid fun g => g.mapThread t fun th => { th with dlPend := none, atEret := false }
        ({ s with nextId := s.nextId + 1 }.takeTrap uid gid t cDeadline datum th.pc).mapGroup uid gid fun h => h.afterPops g

/-- A group whose parked threads have all left it is parked no more (R160). -/
def Group.unparkEmpty (g : Group) : Group :=
  if g.threads.any fun th => th.live && th.pc == g.parkPc then g else { g with parked := [] }

/-- ORPHAN_TRAP (R43, R160). -/
def State.orphanTrap (s : State) (uid gid t : Nat) : State :=
  match s.group? uid gid with
  | none => s
  | some g =>
    match g.threads[t]? with
    | none => s
    | some th =>
      if !g.orphanDue t then s
      else
        let s := s.mapGroup uid gid fun g => g.mapThread t fun th => { th with orphan := false }
        let s := { s with nextId := s.nextId + 1 }.takeTrap uid gid t cOrphan th.hyp th.pc
        s.mapGroup uid gid fun h => ((h.mapThread t fun th => { th with hyp := 0 }).unparkEmpty).afterPops g

/-! ## The store buffer, `acqr`, the directory (R70, R84, R89, R97) -/

/-- STORE_BUFFER_ENTRY_DRAIN (R70): an entry that no older one precedes (R81). -/
def State.entryDrain (s : State) (cl core eid : Nat) : State :=
  match (s.core cl core).sb.find? fun e => e.id == eid with
  | none => s
  | some e => if ((s.core cl core).sb.takeWhile fun x => x.id != eid).any fun x => x.before e then s else s.drainOne cl core e

/-- An `acqr` changed. -/
def State.mapAcqr (s : State) (aid : Nat) (f : Acqr → Acqr) : State :=
  { s with acqrs := s.acqrs.map fun a => if a.id = aid then f a else a }

/-- ACQR_TARGET_DRAIN (R84): the request arrives and takes its cut; then the entries of the cut drain, and once every
store of it is acknowledged the L1 that serves the core is emptied. -/
def State.acqrDrain (s : State) (aid : Nat) : State :=
  match s.acqrs.find? fun a => a.id == aid with
  | none => s
  | some a =>
    if a.drained then s
    else if !a.arrived then
      let cut := s.cutOf a.cl a.core
      let first := s.nextId
      let s := (s.core a.cl a.core).sb.foldl (fun s e => s.drainOne a.cl a.core e) s
      let acks := (s.flights.filter fun f => f.cl == a.cl && f.core == a.core && decide (first ≤ f.id)).map (·.id)
      s.mapAcqr aid fun a => { a with arrived := true, cutFlights := cut.1 ++ acks, cutEntries := cut.2 }
    else if s.flights.any fun f => a.cutFlights.contains f.id && !f.acked then s
    else (s.dropL1 a.cl a.core).mapAcqr aid fun a => { a with drained := true }

/-- ACQR_REPORT (R84): the target's report reaches the issuer. -/
def State.acqrReport (s : State) (aid : Nat) : State := s.mapAcqr aid fun a => if a.drained then { a with reported := true } else a

/-- A core-side slice evicts a sector: a dirty one is written back (R97). -/
def State.evictSector (s : State) (sec : Nat) : State := if s.isDirty sec then s.writeBack sec else s

/-- DIRECTORY_SNOOP (R95, R97): the home slice of a sector of device memory answers with its bytes, which it writes back
when it holds them dirty; a sector whose write-back is pending is answered from there. -/
def State.directorySnoop (s : State) (pa : Nat) : State :=
  if Config.deviceBytes ≤ pa then s else if s.isDirty (pa / 64) then s.writeBack (pa / 64) else s.normalise (64 * (pa / 64)) 64

/-- WRITEBACK_ACKNOWLEDGE (R97): the slice no longer answers snoops of the sector. -/
def State.writebackAck (s : State) (pa : Nat) : State := { s with writebacks := s.writebacks.erase (pa / 64) }

/-- HOST_HOME_AGENT_SNOOP (R89): the home slice gives up a tracked sector of host memory. -/
def State.homeAgentSnoop (s : State) (pa : Nat) : State := { s with owned := s.owned.erase (pa / 64) }

/-- PAGE_WALK (R414): the entry of an address that missed the TLBs; one that does not translate leaves none. -/
def State.pageWalk (s : State) (p : Nat) (va : DWord) (acc : AccessKind) : State :=
  if !(s.slot p).en ∨ 2 ^ 48 ≤ va.toNat then s
  else match s.translate (s.slot p) va.toNat acc with
    | .ok _ _ e => s.tlbFill e
    | _ => s

/-- HYP_ID_FREE (R146). -/
def State.hypIdFree (s : State) (p id : Nat) : State := if s.idIdle p id then s.freeId p id else s

/-! ## The operations -/

/-- TEAM_PLACEMENT (R23): A core places a team from the head record of its cluster queue once it has a team place,
register room, group places, tile slots and a latch set. -/
def execTeamPlacement (cl core : Nat) (s : State) : Host.Outcome State Fault Refusal := .next (s.teamPlacement cl core)

/-- CARVE_RESERVATION (R25): After a head record has waited 200 µs for a matching carve, the cluster stops placing other
carves on one chosen core. -/
def execCarveReservation (cl : Nat) (s : State) : Host.Outcome State Fault Refusal := .next (s.carveReserve cl)

/-- STEAL (R22): A cluster with empty queues and a free core takes the upper half of the unplaced team indices of
another cluster's first placeable non-gang record. -/
def execSteal (cl : Nat) (s : State) : Host.Outcome State Fault Refusal := .next (s.steal cl)

/-- PRIORITY_RAISE (R21): A record that has waited more than 1 ms since its push is served one priority level higher. -/
def execPriorityRaise (cl rid : Nat) (s : State) : Host.Outcome State Fault Refusal := .next (s.raisePriority cl rid)

/-- TEAM_EXIT (R18): A team exits once all its groups have exited, its counters are zero and its global stores are
acknowledged, and its resources are freed. -/
def execTeamExit (uid : Nat) (s : State) : Host.Outcome State Fault Refusal := .next (s.teamExit uid)

/-- JOIN_RECORD_PUSH (R17): When a decrement takes the join count from 1 to 0 the device reads the join record and
pushes it into the cluster queue. -/
def execJoinRecordPush (jid : Nat) (s : State) : Host.Outcome State Fault Refusal := .next (s.joinRecordPush jid)

/-- GROUP_EXCHANGE (R32): A waiting active group is exchanged in 2 ck for the oldest ready pending group of its lane. -/
def execGroupExchange (uid gid : Nat) (s : State) : Host.Outcome State Fault Refusal := .next (s.waitExchange uid gid)

/-- GROUP_TIMESLICE_EXCHANGE (R33): An active group that has held its lane for 4,096 ck without waiting is exchanged at
its next packet boundary. -/
def execGroupTimesliceExchange (uid gid : Nat) (s : State) : Host.Outcome State Fault Refusal :=
  .next (s.sliceExchange uid gid)

/-- MEETING_RELEASE (R35): Threads held at a meeting address are released together when every live thread with that
meeting register is held or exited. -/
def execMeetingRelease (uid gid : Nat) (s : State) : Host.Outcome State Fault Refusal :=
  .next (s.releaseMeeting uid gid)

/-- PRODUCER_COMPLETION (R39): A long-latency producer completes and its destination becomes FULL when no younger
producer of the register is outstanding. -/
def execProducerCompletion (fid : Nat) (s : State) : Host.Outcome State Fault Refusal := .next (s.complete fid)

/-- INSTRUCTION_LINE_FILL (R376): A 256-byte line of packets arrives from its home slice into the partition's
instruction buffer. -/
def execInstructionLineFill (uid gid : Nat) (va : BitVec 64) (s : State) : Host.Outcome State Fault Refusal :=
  .next (s.lineFill uid gid va)

/-- DEADLINE_EXPIRY (R46): When global time reaches dlin the device clears it, makes DEADLINE fall due for every live
thread and stops the team's engine operations at their boundaries. -/
def execDeadlineExpiry (uid : Nat) (s : State) : Host.Outcome State Fault Refusal := .next (s.deadlineExpiry uid)

/-- DEADLINE_TRAP (R44): A thread takes a pending DEADLINE at its next packet boundary or after its eret. -/
def execDeadlineTrap (uid gid t : Nat) (s : State) : Host.Outcome State Fault Refusal :=
  .next (s.deadlineTrap uid gid t)

/-- ORPHAN_TRAP (R160): An orphaned thread takes ORPHAN before its next word, with hyp set to 0. -/
def execOrphanTrap (uid gid t : Nat) (s : State) : Host.Outcome State Fault Refusal := .next (s.orphanTrap uid gid t)

/-- STORE_BUFFER_ENTRY_DRAIN (R70): A store-buffer entry is sent and performed at its home slice, in issue order per
group and within 2 µs. -/
def execStoreBufferEntryDrain (cl core eid : Nat) (s : State) : Host.Outcome State Fault Refusal :=
  .next (s.entryDrain cl core eid)

/-- HOME_SLICE_WRITE (R74): A store, atomic or merge reaching its home slice is performed with completion time max(Now,
latest granted expiry) and acknowledged. -/
def execHomeSliceWrite (fid : Nat) (s : State) : Host.Outcome State Fault Refusal := .next (s.reachSlice fid)

/-- WRITE_ACKNOWLEDGE (R75): An acknowledgement arriving for a group raises its fence horizon to the completion time. -/
def execWriteAcknowledge (fid : Nat) (s : State) : Host.Outcome State Fault Refusal := .next (s.acknowledge fid)

/-- ACQR_TARGET_DRAIN (R84): An acqr request reaching its target core drains the stores of the cut, waits for their
acknowledgement and invalidates the L1. -/
def execAcqrTargetDrain (aid : Nat) (s : State) : Host.Outcome State Fault Refusal := .next (s.acqrDrain aid)

/-- ACQR_REPORT (R84): The target's report reaches the issuer, which completes acqr as a dev-scope acquire. -/
def execAcqrReport (aid : Nat) (s : State) : Host.Outcome State Fault Refusal := .next (s.acqrReport aid)

/-- DIRECTORY_SNOOP (R97): The memory-side directory snoops the core-side home slice for an outside read of a sector. -/
def execDirectorySnoop (pa : Nat) (s : State) : Host.Outcome State Fault Refusal := .next (s.directorySnoop pa)

/-- WRITEBACK_ACKNOWLEDGE (R97): The memory-side tier acknowledges a dirty sector's write-back, ending the slice's snoop
duty for it. -/
def execWritebackAcknowledge (pa : Nat) (s : State) : Host.Outcome State Fault Refusal := .next (s.writebackAck pa)

/-- HOST_HOME_AGENT_SNOOP (R89): The host's home agent, ordering a host access against the device, snoops a tracked
host-memory sector that a device home slice holds exclusively through CXL.cache, so the slice gives up or writes back
that sector. -/
def execHostHomeAgentSnoop (pa : Nat) (s : State) : Host.Outcome State Fault Refusal := .next (s.homeAgentSnoop pa)

/-- PAGE_WALK (R414): A walker reads table entries at their home slices to translate an access that missed the TLBs. -/
def execPageWalk (slot : Nat) (va : BitVec 64) (acc : AccessKind) (s : State) : Host.Outcome State Fault Refusal :=
  .next (s.pageWalk slot va acc)

/-- LATCH_REMOTE_ARRIVAL (R125): An arrive.remote reaches its target latch over the cluster network and lowers A. -/
def execLatchRemoteArrival (mid : Nat) (s : State) : Host.Outcome State Fault Refusal := .next (s.latchArrival mid)

/-- COPY_COMMAND_START (R132): A queued copy command starts when the engine has fewer than 8 commands in progress. -/
def execCopyCommandStart (oid : Nat) (s : State) : Host.Outcome State Fault Refusal := .next (s.startCopy oid)

/-- COPY_PART (R316): A 16-byte part of a copy is read and written and its bytes are counted on the named latch. -/
def execCopyPart (oid part : Nat) (s : State) : Host.Outcome State Fault Refusal := .next (s.copyStep oid part)

/-- COMMAND_RETIRE (R314): An engine command retires on its class counter in issue order, raising fhz and arriving on
its latch if counted. -/
def execCommandRetire (oid : Nat) (s : State) : Host.Outcome State Fault Refusal := .next (s.retireOp oid)

/-- PFR_LINE_RESIDENT (R65): A prefetched line becomes resident or is skipped and its bytes are counted on the latch. -/
def execPfrLineResident (oid line : Nat) (s : State) : Host.Outcome State Fault Refusal :=
  .next (s.lineResident oid line)

/-- SKEIN_REQUEST_ARRIVAL (R137): A skein load request reaches its anchor slice and joins the gather for (skein, k) or
is served as a unicast fetch. -/
def execSkeinRequestArrival (oid : Nat) (s : State) : Host.Outcome State Fault Refusal := .next (s.skeinArrive oid)

/-- GATHER_TIMEOUT (R137): An open gather's deadline passes and the gather fires. -/
def execGatherTimeout (launch sk k : Nat) (s : State) : Host.Outcome State Fault Refusal :=
  .next (s.gatherTimeout launch sk k)

/-- SKEIN_FILL_LAND (R137): A skein fill lands in a requester's scratchpad and counts on its latch. -/
def execSkeinFillLand (oid : Nat) (s : State) : Host.Outcome State Fault Refusal := .next (s.fillLand oid)

/-- PEER_WORD_ARRIVAL (R143): Words pushed on a PEER channel arrive in a bound in queue in push order. -/
def execPeerWordArrival (uid gid q : Nat) (s : State) : Host.Outcome State Fault Refusal := .next (s.peerWord uid gid q)

/-- MATRIX_STEP (R164): The matrix engine applies one step of exact products into a tile slot. -/
def execMatrixStep (oid : Nat) (s : State) : Host.Outcome State Fault Refusal := .next (s.matrixStep oid)

/-- MLOOP_OPERAND_FETCH (R173): The operand fetcher reads a loop step's blocks through the tile handles, up to four
steps ahead. -/
def execMloopOperandFetch (oid : Nat) (s : State) : Host.Outcome State Fault Refusal := .next (s.loopFetch oid)

/-- MDRAIN_WRITE (R177): The engine rounds a slot once per element and writes it to the drain's destination. -/
def execMdrainWrite (oid part : Nat) (s : State) : Host.Outcome State Fault Refusal := .next (s.drainWrite oid part)

/-- PEER_DRAIN_MERGE (R179): A peer drain's exact tile is merged as one command into the target slot and the arrival is
made if ARR is set. -/
def execPeerDrainMerge (oid : Nat) (s : State) : Host.Outcome State Fault Refusal := .next (s.peerMerge oid)

/-- MFACT_COLUMN (R182): The factor unit computes and writes one Cholesky column, flagging and regularising a small
pivot. -/
def execMfactColumn (oid : Nat) (s : State) : Host.Outcome State Fault Refusal := .next (s.factStep oid)

/-- MTRSM_ROW (R186): The factor unit solves one row of a triangular system. -/
def execMtrsmRow (oid : Nat) (s : State) : Host.Outcome State Fault Refusal := .next (s.trsmRow oid)

/-- AMSG_ARRIVAL (R192): An active message reaches its target cluster and becomes a handler record. -/
def execAmsgArrival (mid : Nat) (s : State) : Host.Outcome State Fault Refusal := .next (s.amsgArrival mid)

/-- XFER_ARMED_FIRE (R198): An armed transfer fires when its latch's B falls to N or its phase flips. -/
def execXferArmedFire (oid : Nat) (s : State) : Host.Outcome State Fault Refusal := .next (s.armedFire oid)

/-- XFER_REMOTE_REQUEST (R197): A put, putred or get request reaching a target device is matched to a pod-job slot,
translated and performed. -/
def execXferRemoteRequest (req : RemoteRequest) (s : State) : Host.Outcome State Fault Refusal :=
  .next (s.remoteRequest req)

/-- XFER_RESPONSE (R194): The acknowledgement or data of a transfer returns to the issuing device and is counted on the
latch. -/
def execXferResponse (oid : Nat) (resp : XferReply) (s : State) : Host.Outcome State Fault Refusal :=
  .next (s.xferResponse oid resp)

/-- XFER_TIMEOUT (R196): A transfer with no response in 10 ms retires with TIMEOUT recorded in lnkc. -/
def execXferTimeout (oid : Nat) (s : State) : Host.Outcome State Fault Refusal := .next (s.xferTimeout oid)

/-- APERTURE_DOWN_MESSAGE (R200): The reduced result of an aperture chunk arrives from the switch and is written over
the local source. -/
def execApertureDownMessage (oid rtype : Nat) (data : List (BitVec 8)) (s : State) : Host.Outcome State Fault Refusal :=
  .next (s.downMessage oid rtype data)

/-- HYP_ID_FREE (R146): A resolved hypothesis ID returns to free once its holders, entries and children are gone,
raising its generation. -/
def execHypIdFree (slot id : Nat) (s : State) : Host.Outcome State Fault Refusal := .next (s.hypIdFree slot id)

end Sys2Proof.Machine
end

