-- ==== Sys2Proof/Machine/Float.lean ====
section
/-! DEFINITION. Floating-point arithmetic, compares and functions (R267 to R275). -/

namespace Sys2Proof.Machine

open Sys2Proof

/-- FADD (R269): FP32 addition rounded once. -/
def execFadd (w : RR) (s : State) : Host.Outcome State Fault Refusal :=
  issueWord (.rr 0x35 .any {} w) (compute (fbinary fpAdd w)) s

/-- FSUB (R269): FP32 subtraction rounded once. -/
def execFsub (w : RR) (s : State) : Host.Outcome State Fault Refusal :=
  issueWord (.rr 0x36 .any {} w) (compute (fbinary fpSub w)) s

/-- FMUL (R269): FP32 multiplication rounded once. -/
def execFmul (w : RR) (s : State) : Host.Outcome State Fault Refusal :=
  issueWord (.rr 0x37 .any {} w) (compute (fbinary fpMul w)) s

/-- FFMA (R269): Fused FP32 a × b + d. -/
def execFfma (w : RR) (s : State) : Host.Outcome State Fault Refusal :=
  issueWord (.rr 0x38 .any {} w) (compute (fternary fpFma w)) s

/-- FMIN (R269): FP32 minimum by R103. -/
def execFmin (w : RR) (s : State) : Host.Outcome State Fault Refusal :=
  issueWord (.rr 0x39 .any {} w) (compute (fbinary (fun _ => fpMin) w)) s

/-- FMAX (R269): FP32 maximum by R103. -/
def execFmax (w : RR) (s : State) : Host.Outcome State Fault Refusal :=
  issueWord (.rr 0x3A .any {} w) (compute (fbinary (fun _ => fpMax) w)) s

/-- FCMP_EQ (R271): Writes 1 when a = b in FP32. -/
def execFcmpEq (w : RR) (s : State) : Host.Outcome State Fault Refusal :=
  issueWord (.rr 0x3B .any {} w) (compute (fbinary (fun _ => fpEq) w)) s

/-- FCMP_LT (R271): Writes 1 when a < b in FP32. -/
def execFcmpLt (w : RR) (s : State) : Host.Outcome State Fault Refusal :=
  issueWord (.rr 0x3C .any {} w) (compute (fbinary (fun _ => fpLt) w)) s

/-- FCMP_LE (R271): Writes 1 when a ≤ b in FP32. -/
def execFcmpLe (w : RR) (s : State) : Host.Outcome State Fault Refusal :=
  issueWord (.rr 0x3D .any {} w) (compute (fbinary (fun _ => fpLe) w)) s

/-- FCMP_UN (R271): Writes 1 when a or b is a NaN. -/
def execFcmpUn (w : RR) (s : State) : Host.Outcome State Fault Refusal :=
  issueWord (.rr 0x3E .any {} w) (compute (fbinary (fun _ => fpUn) w)) s

/-- FABS (R273): Clears the sign bit. -/
def execFabs (w : RM) (s : State) : Host.Outcome State Fault Refusal :=
  issueWord (.rm 0x3F 0 .any {} w) (compute (funary (fun _ => fpAbs) w)) s

/-- FNEG (R273): Flips the sign bit. -/
def execFneg (w : RM) (s : State) : Host.Outcome State Fault Refusal :=
  issueWord (.rm 0x3F 1 .any {} w) (compute (funary (fun _ => fpNeg) w)) s

/-- RCP (R273): Correctly rounded reciprocal. -/
def execRcp (w : RM) (s : State) : Host.Outcome State Fault Refusal :=
  issueWord (.rm 0x3F 2 .any {} w) (compute (funary (fpFn .rcp) w)) s

/-- RSQ (R273): Correctly rounded reciprocal square root. -/
def execRsq (w : RM) (s : State) : Host.Outcome State Fault Refusal :=
  issueWord (.rm 0x3F 3 .any {} w) (compute (funary (fpFn .rsq) w)) s

/-- SQRT (R273): Correctly rounded square root. -/
def execSqrt (w : RM) (s : State) : Host.Outcome State Fault Refusal :=
  issueWord (.rm 0x3F 4 .any {} w) (compute (funary (fpFn .sqrt) w)) s

/-- EXP2 (R273): Correctly rounded 2^a. -/
def execExp2 (w : RM) (s : State) : Host.Outcome State Fault Refusal :=
  issueWord (.rm 0x3F 5 .any {} w) (compute (funary (fpFn .exp2) w)) s

/-- LOG2 (R273): Correctly rounded log2 a. -/
def execLog2 (w : RM) (s : State) : Host.Outcome State Fault Refusal :=
  issueWord (.rm 0x3F 6 .any {} w) (compute (funary (fpFn .log2) w)) s

/-- SIN (R273): Correctly rounded sine. -/
def execSin (w : RM) (s : State) : Host.Outcome State Fault Refusal :=
  issueWord (.rm 0x3F 7 .any {} w) (compute (funary (fpFn .sin) w)) s

/-- COS (R273): Correctly rounded cosine. -/
def execCos (w : RM) (s : State) : Host.Outcome State Fault Refusal :=
  issueWord (.rm 0x3F 8 .any {} w) (compute (funary (fpFn .cos) w)) s

/-- TRUNC (R273): Integral value toward zero. -/
def execTrunc (w : RM) (s : State) : Host.Outcome State Fault Refusal :=
  issueWord (.rm 0x3F 9 .any {} w) (compute (funary (fun _ => fpIntegral .rz false) w)) s

/-- FLOOR (R273): Integral value toward −∞. -/
def execFloor (w : RM) (s : State) : Host.Outcome State Fault Refusal :=
  issueWord (.rm 0x3F 10 .any {} w) (compute (funary (fun _ => fpIntegral .rd false) w)) s

/-- CEIL (R273): Integral value toward +∞. -/
def execCeil (w : RM) (s : State) : Host.Outcome State Fault Refusal :=
  issueWord (.rm 0x3F 11 .any {} w) (compute (funary (fun _ => fpIntegral .rp false) w)) s

/-- RINT (R273): Integral value in the sampled mode. -/
def execRint (w : RM) (s : State) : Host.Outcome State Fault Refusal :=
  issueWord (.rm 0x3F 12 .any {} w) (compute (funary (fun m => fpIntegral m true) w)) s

/-- FRAC (R273): Writes a − trunc(a) exactly. -/
def execFrac (w : RM) (s : State) : Host.Outcome State Fault Refusal :=
  issueWord (.rm 0x3F 13 .any {} w) (compute (funary (fun _ => fpFrac) w)) s

/-- CLASS (R274): Writes a one-bit class mask of a. -/
def execClass (w : RM) (s : State) : Host.Outcome State Fault Refusal :=
  issueWord (.rm 0x3F 14 .any {} w) (compute (unary fpClass w)) s

/-- FDIV (R272): Correctly rounded FP32 division. -/
def execFdiv (w : RR) (s : State) : Host.Outcome State Fault Refusal :=
  issueWord (.rr 0x40 .any {} w) (compute (fbinary fpDiv w)) s

/-- BADD (R275): Packed BF16 addition. -/
def execBadd (w : RR) (s : State) : Host.Outcome State Fault Refusal :=
  issueWord (.rr 0x41 .any {} w) (compute (fbinary (fun m => packedBin bf16 (bf16.add m)) w)) s

/-- BMUL (R275): Packed BF16 multiplication. -/
def execBmul (w : RR) (s : State) : Host.Outcome State Fault Refusal :=
  issueWord (.rr 0x42 .any {} w) (compute (fbinary (fun m => packedBin bf16 (bf16.mul m)) w)) s

/-- BFMA (R275): Packed BF16 fused multiply-add. -/
def execBfma (w : RR) (s : State) : Host.Outcome State Fault Refusal :=
  issueWord (.rr 0x43 .any {} w) (compute (fternary (packedFma bf16) w)) s

/-- BMIN (R275): Packed BF16 minimum. -/
def execBmin (w : RR) (s : State) : Host.Outcome State Fault Refusal :=
  issueWord (.rr 0x44 .any {} w) (compute (fbinary (fun _ => packedMinmax bf16 false) w)) s

/-- BMAX (R275): Packed BF16 maximum. -/
def execBmax (w : RR) (s : State) : Host.Outcome State Fault Refusal :=
  issueWord (.rr 0x45 .any {} w) (compute (fbinary (fun _ => packedMinmax bf16 true) w)) s

/-- HADD (R275): Packed FP16 addition. -/
def execHadd (w : RR) (s : State) : Host.Outcome State Fault Refusal :=
  issueWord (.rr 0x46 .any {} w) (compute (fbinary (fun m => packedBin fp16 (fp16.add m)) w)) s

/-- HMUL (R275): Packed FP16 multiplication. -/
def execHmul (w : RR) (s : State) : Host.Outcome State Fault Refusal :=
  issueWord (.rr 0x47 .any {} w) (compute (fbinary (fun m => packedBin fp16 (fp16.mul m)) w)) s

/-- HFMA (R275): Packed FP16 fused multiply-add. -/
def execHfma (w : RR) (s : State) : Host.Outcome State Fault Refusal :=
  issueWord (.rr 0x48 .any {} w) (compute (fternary (packedFma fp16) w)) s

/-- DADD (R275): FP64 addition. -/
def execDadd (w : RR) (s : State) : Host.Outcome State Fault Refusal :=
  issueWord (.rr 0x49 .any {} w) (compute (dbinary dpAdd w)) s

/-- DMUL (R275): FP64 multiplication. -/
def execDmul (w : RR) (s : State) : Host.Outcome State Fault Refusal :=
  issueWord (.rr 0x4A .any {} w) (compute (dbinary dpMul w)) s

/-- DFMA (R275): FP64 fused multiply-add. -/
def execDfma (w : RR) (s : State) : Host.Outcome State Fault Refusal :=
  issueWord (.rr 0x4B .any {} w) (compute (dternary dpFma w)) s

end Sys2Proof.Machine
end

