-- ==== Sys2Proof/Machine/HostSide.lean ====
section
/-! DEFINITION. The host interface: process slots and their teardown (R399 to R402), launches and completions (R403 to
R406), Window 1 and CXL.mem (R395, R398), answers to faults (R415, R419), invalidations (R416), the version store (R417).
While the device is in recovery or without power its host link is down (R432), and nothing of the host reaches it. -/

namespace Sys2Proof.Machine

open Sys2Proof

/-- The host link can come up: the device has power and is not in recovery (R432, R433). -/
def State.hostLinkable (s : State) : Bool := s.boot.powered && !s.boot.recovery

/-- The host link carries traffic: it can come up, and it is not DOWN (R432, R433, R437). -/
def State.hostLink (s : State) : Bool := s.hostLinkable && !s.linksDown.contains unitHost

/-- An operation of the host; nothing while its link is down (R432). -/
def State.fromHost (s : State) (f : State → State) : State := if s.hostLink then f s else s

/-! ## Enabling a slot (R399, R415) -/

/-- A ring size that R399 allows. -/
def ringSize (n : Nat) : Bool := decide (16 ≤ n) && decide (n ≤ 65536) && n == 2 ^ n.log2

/-- A base address of R399: below 2^48 and aligned. -/
def baseOk (a : DWord) (align : Nat) : Bool := decide (a.toNat < 2 ^ 48) && a.toNat % align == 0

/-- The pod job a slot names. -/
def Slot.job (sl : Slot) : Option Nat :=
  if sl.podjob.getLsbD 31 then some (sl.podjob.extractLsb' 0 16).toNat else none

/-- The fields of a slot that R399 asks for. -/
def Slot.ringsOk (sl : Slot) : Bool :=
  baseOk sl.lqbase 64 && ringSize sl.lqsize && baseOk sl.cqbase 64 && ringSize sl.cqsize && baseOk sl.spbase 65536
    && sl.spsize != 0 && sl.spsize % 65536 == 0 && decide (sl.spsize < 2 ^ 32)
    && sl.vec.extractLsb' 11 5 == 0 && sl.vec.extractLsb' 27 5 == 0

/-- The translation fields of a slot that R415 asks for. -/
def Slot.translationOk (sl : Slot) : Bool :=
  sl.xctl.getLsbD 0 && sl.xctl.extractLsb' 3 29 == 0 && sl.ptbase.extractLsb' 0 12 == 0 && sl.ptbase.extractLsb' 51 13 == 0
    && baseOk sl.fbbase 64 && ringSize sl.fbsize && sl.podjob.extractLsb' 16 15 == 0

/-- Every field of a slot is legal, its ASID and job its own among the enabled slots (R399, R415). -/
def State.slotLegal (s : State) (sl : Slot) : Bool :=
  sl.ringsOk && sl.translationOk && !sl.teardown
    && s.slots.all fun x => x.num == sl.num || !x.en || (x.asid != sl.asid && (sl.job.isNone || x.job != sl.job))

/-- SLOT_ENABLE (R399, R401, R404, R415): EN is set when every field is legal, and reads 0 otherwise, also where it was set
before a live write; teams that are there run on, and keep their hypotheses when EN is set again (DEDUCED, log 50). -/
def State.slotEnable (s : State) (p : Nat) : State :=
  let sl := s.slot p
  if !s.slotLegal sl then s.mapSlot p fun sl => { sl with en := false, hold := false }
  else if sl.en then s.mapSlot p fun sl => { sl with hold := false }
  else
    let keep := (s.teams ++ s.saved.map (·.1)).any fun t => t.slot == p
    s.mapSlot p fun sl =>
      { sl with en := true, hold := false, err := 0, lqpi := 0, lqci := 0, cqci := 0, cqpi := 0, fbpi := 0, fbci := 0,
                nextFault := if keep then sl.nextFault else 1, failPages := [], hyps := if keep then sl.hyps else [] }

/-- SLOT_HOLD (R399, R405). -/
def State.slotHold (s : State) (p : Nat) (hold : Bool) : State := s.mapSlot p fun sl => { sl with hold := hold }

/-! ## Teardown (R402, R417) -/

/-- The launches of a process that are not complete. -/
def State.launchesOf (s : State) (p : Nat) : List Launch := s.launches.filter fun l => l.slot == p

/-- The origin of an entry's launch. -/
def entryOrigin (p : Nat) (l : List Byte) : Origin := .host p (BitVec.ofNat 32 (fieldAt l 36 4)) (fieldAt l 33 1)

/-- The held entries of a process aborted (R402). -/
def State.abortEntries (s : State) (p : Nat) : State :=
  let s := (s.heldEntries.filter fun e => e.slot == p).foldl (fun s e =>
    let x := s.newLaunch p (entryOrigin p e.bytes) 0
    x.1.mapLaunch x.2 fun l => { l with status := 3 }) s
  { s with heldEntries := s.heldEntries.filter fun e => e.slot != p }

/-- The queued records of a process discarded: each launch they came from is aborted (R402). -/
def State.discardRecords (s : State) (p : Nat) : State :=
  let s := s.abortEntries p
  let gone := (s.queuedOf p).map (·.launch)
  { s with
      clusters := s.clusters.map fun c => { c with queue := c.queue.filter fun q => q.slot != p },
      launches := s.launches.map fun l => if gone.contains l.id then { l with unplaced := 0, status := 3 } else l }

/-- The teams of a process killed without join decrement and without a fault entry (R402, R420). -/
def State.killAll (s : State) (p : Nat) : State :=
  let s := (s.teams.filter fun t => t.slot == p).foldl (fun s t => s.releaseTeam t true) s
  let mine := (s.saved.filter fun x => x.1.slot == p).map (·.1)
  let s := mine.foldl (fun s t => s.mapLaunch t.launch fun l => l.leave t true) s
  { s with
      saved := s.saved.filter fun x => x.1.slot != p,
      ops := s.ops.filter fun o => o.slot != p,
      gathers := s.gathers.filter fun g => !((s.launchesOf p).any fun l => l.id == g.launch) }.releaseDomains

/-- Requests of peer devices held on faults of a process end (R197). -/
def State.dropRemotes (s : State) (p : Nat) : State :=
  (s.remotes.filter fun r => r.slot == p).foldl (fun s r => s.resumeRemote r.id true) s

/-- Every hypothesis of a process refuted (R417). -/
def State.refuteAll (s : State) (p : Nat) : State :=
  (((s.slot p).hyps.filter fun h => h.st == .live && h.parent == 0).map (·.id)).foldl (fun s id =>
    (s.refuteTree p id .refuted).1) s

/-- SLOT_TEARDOWN (R402, R417): BUSY holds until every launch of the slot has completed. -/
def State.slotTeardown (s : State) (p : Nat) : State :=
  if !(s.slot p).en then s
  else
    let s := (((s.mapSlot p fun sl => { sl with en := false }).discardRecords p).killAll p).refuteAll p
    let s := s.dropRemotes p
    let s := { s with
      joins := s.joins.filter fun j => j.slot != p,
      messages := s.messages.filter fun m => m.slot != p,
      faults := s.faults.filter fun f => f.slot != p }
    s.mapSlot p fun sl => { sl with teardown := !(s.launchesOf p).isEmpty }

/-- BUSY of a slot (R399). -/
def State.busy (s : State) (p : Nat) : Bool :=
  s.teams.any (fun t => t.slot == p) || s.saved.any (fun x => x.1.slot == p) || !(s.queuedOf p).isEmpty || (s.slot p).teardown

/-! ## Rings (R400, R404) -/

/-- The translation of a ring or of a header for the device: an address, a fault that waits for the driver, or a page that
cannot be resolved. -/
inductive Ring where
  | ok (s : State) (pa : Nat)
  | wait (s : State)
  | bad
  deriving DecidableEq, Repr

/-- A fault of the rings of a slot is waiting for the driver. -/
def State.ringHeld (s : State) (p : Nat) : Bool := s.faults.any fun f => f.who.contains (.launchEntry p)

/-- An access to a ring of a slot (R400, R418). -/
def State.ring (s : State) (p va : Nat) (acc : AccessKind) : Ring :=
  if 2 ^ 48 ≤ va then .bad
  else if (s.slot p).failPages.any fun x => x.1 == va / 4096 then .bad
  else match s.translate (s.slot p) va acc with
    | .ok pa _ e => .ok (s.tlbFill e) pa
    | .untracked => .bad
    | .bad kind level => .wait (s.raiseFault p va kind (accBits acc true false) level (0, 0, 0) (.launchEntry p))

/-- A ring cannot be used (R400): ERR 2, HOLD, the fault vector. -/
def State.ringError (s : State) (p : Nat) : State :=
  (s.mapSlot p fun sl => { sl with failPages := [] }).slotError p 2

/-! ## Launches (R403 to R405) -/

/-- LAUNCH_DOORBELL (R402, R404). -/
def State.doorbell (s : State) (p : Nat) (idx : Word) : State :=
  if (s.slot p).en then s.mapSlot p fun sl => { sl with lqpi := idx.toNat } else s

/-- The cluster a launch entry names; 8 chooses the one with the fewest queued teams (R403). -/
def State.targetCluster (s : State) (clu : Nat) : Nat :=
  if clu < 8 then clu
  else (leastBy (fun c => ((s.cluster c).queue.map fun q => q.stop - q.next).sum) (List.range Config.clusters)).getD 0

/-- An entry's own fields are legal (R403). -/
def entryOk (l : List Byte) : Bool :=
  let flags := fieldAt l 33 1
  decide (fieldAt l 32 1 ≤ 8) && decide (flags < 8) && (flags / 2 % 2 == 0 || flags % 2 == 1) && fieldAt l 34 2 == 0
    && (l.drop 40).all (· == 0)

/-- The entry has been taken (R405). -/
def State.taken (s : State) (p : Nat) : State :=
  s.mapSlot p fun sl => { sl with lqci := (sl.lqci + 1) % 2 ^ 32, failPages := [] }

/-- A refused entry: a launch that completes with REFUSED (R403, R406). -/
def State.refuseEntry (s : State) (p : Nat) (l : List Byte) : State :=
  let x := s.newLaunch p (entryOrigin p l) 0
  x.1.mapLaunch x.2 fun l => { l with status := 1 }

/-- The last team of a launch has gone, or it never had one (R406). -/
def Launch.over (l : Launch) : Bool := l.resident == 0 && l.unplaced == 0

/-- A launch of a ring is not complete, or its push is held (R405): its completion need not be written yet. -/
def State.ringBusy (s : State) (p : Nat) : Bool :=
  s.heldEntries.any (fun e => e.slot == p) || s.launches.any fun l => match l.origin with
    | .host q _ _ => q == p && !l.over
    | _ => false

/-- The check and the push of an entry's record; none when its own fields refuse it (R14, R403). -/
def State.pushEntry (s : State) (p id : Nat) (l : List Byte) (failed : Bool) : Pushed :=
  if !entryOk l then .refused s 1
  else match Record.parse (l.take 32) with
    | none => .refused s 1
    | some r => s.pushChecked (s.targetCluster (fieldAt l 32 1)) p (entryOrigin p l) r failed (0, 0, 0) (.heldEntry id)

/-- The entry waits for an answer to a fault. -/
def State.entryFaulted (s : State) (id : Nat) : Bool := s.faults.any fun f => f.who.contains (.heldEntry id)

/-- An entry that has been read (R403, R405). -/
def State.takeEntry (s : State) (p : Nat) (l : List Byte) : State :=
  let id := s.nextId
  if fieldAt l 33 1 / 4 % 2 = 1 ∧ s.ringBusy p then s
  else match State.pushEntry { s with nextId := id + 1 } p id l false with
    | .done s => s.taken p
    | .refused s _ => (s.refuseEntry p l).taken p
    | .held s' =>
      if s'.entryFaulted id then
        let e : HeldEntry := { id := id, slot := p, bytes := l, failed := false }
        State.taken { s' with heldEntries := s'.heldEntries ++ [e] } p
      else if (s'.slot p).hold ∨ s'.faults ≠ s.faults then s'
      else s

/-- A held entry whose fault has been answered is checked again (R15, R419). -/
def State.retryEntry (s : State) (e : HeldEntry) : State :=
  let drop := fun (s : State) => { s with heldEntries := s.heldEntries.filter fun x => x.id != e.id }
  match s.pushEntry e.slot e.id e.bytes e.failed with
  | .done s => drop s
  | .refused s _ => drop (s.refuseEntry e.slot e.bytes)
  | .held s => s

/-- LAUNCH_ENTRY_TAKE (R15, R405): a held entry goes on once its fault is answered, else the next entry of the ring is
taken. -/
def State.launchTake (s : State) (p : Nat) : State :=
  let sl := s.slot p
  match s.heldEntries.find? fun e => e.slot == p && !s.entryFaulted e.id with
  | some e => s.retryEntry e
  | none => if !sl.en ∨ sl.hold ∨ sl.lqci = sl.lqpi ∨ s.ringHeld p then s
  else if sl.lqsize < (sl.lqpi + 2 ^ 32 - sl.lqci) % 2 ^ 32 then s.slotError p 1
  else match s.ring p (sl.lqbase.toNat + 64 * (sl.lqci % sl.lqsize)) .read with
    | .bad => s.ringError p
    | .wait s => s
    | .ok s pa => let r := s.sliceRead pa 64; r.1.takeEntry p r.2

/-! ## Completions (R406) -/

/-- Stores of a process whose team has gone are not yet acknowledged. -/
def State.strayStores (s : State) (p : Nat) : Bool :=
  let gone := fun uid => !(s.teams.any fun t => t.uid == uid)
  s.flights.any (fun f => f.slot == p && !f.acked && gone f.uid)
    || s.cores.any fun c => c.sb.any fun e => e.slot == p && gone e.uid

/-- The launch is over, and the release for its teams is made (R95, R406). -/
def State.launchOver (s : State) (l : Launch) : Bool :=
  l.over && !s.strayStores l.slot && decide (l.fhz == 0 ∨ l.fhz + Config.skew ≤ s.now)

/-- A skein request of a launch. -/
def EngOp.askedBy (o : EngOp) (launch : Nat) : Bool :=
  match o.body with
  | .skein r => r.launch == launch
  | _ => false

/-- A completed launch leaves the device, with its gathers, the skein requests left behind and its fusion domains (R20,
R27, R135); BUSY of a torn-down slot clears with its last launch (R402). -/
def State.dropLaunch (s : State) (l : Launch) : State :=
  let s := { s with launches := s.launches.filter fun x => x.id != l.id,
                    gathers := s.gathers.filter fun g => g.launch != l.id,
                    ops := s.ops.filter fun o => !o.askedBy l.id }.releaseDomains
  if (s.launchesOf l.slot).isEmpty then s.mapSlot l.slot fun sl => { sl with teardown := false } else s

/-- The 16 bytes of a completion (R406). -/
def completionBytes (tag : Word) (status time : Nat) : List Byte := leBytes 4 tag.toNat ++ leBytes 4 status ++ leBytes 8 time

/-- The time of a launch's completion (R406). -/
def State.doneTime (s : State) (l : Launch) : Nat := (l.done.map (·.1)).getD s.now

/-- A completion of the ring that is due before this launch's: its launch completed earlier (R406). -/
def State.dueBefore (s : State) (l : Launch) (p : Nat) : Bool :=
  s.launches.any fun x =>
    match x.origin, x.done, l.done with
    | .host q _ flags, some a, some b =>
      q == p && (flags % 2 == 1 || x.status == 1) && (decide (a.2 < b.2) || (a.2 == b.2 && decide (x.id < l.id)))
    | _, _, _ => false

/-- A completion written at the next index of the ring, in completion order, and its interrupt (R404, R406). -/
def State.writeCompletion (s : State) (l : Launch) (p : Nat) (tag : Word) (flags : Nat) : State :=
  let sl := s.slot p
  if (sl.cqpi + 2 ^ 32 - sl.cqci) % 2 ^ 32 = sl.cqsize ∨ s.ringHeld p ∨ s.dueBefore l p then s
  else match s.ring p (sl.cqbase.toNat + 16 * (sl.cqpi % sl.cqsize)) .write with
    | .wait s => s
    | .bad => if !sl.en then (s.ringError p).dropLaunch l else if sl.hold ∧ sl.err = 2 then s else s.ringError p
    | .ok s pa =>
      let s := (s.commit pa (completionBytes tag l.status (s.doneTime l))).1
      let s := (s.mapSlot p fun sl => { sl with cqpi := (sl.cqpi + 1) % 2 ^ 32 }).dropLaunch l
      if flags % 4 = 3 then s.sendSlotVector sl.completionVector else s

/-- LAUNCH_COMPLETION (R406). -/
def State.launchComplete (s : State) (lid : Nat) : State :=
  match s.launch? lid with
  | none => s
  | some l =>
    if !s.launchOver l then s
    else match l.origin with
      | .host p tag flags => if flags % 2 = 1 ∨ l.status = 1 then s.writeCompletion l p tag flags else s.dropLaunch l
      | _ => s.dropLaunch l

/-- COMPLETION_CONSUMED (R404). -/
def State.consumed (s : State) (p : Nat) (idx : Word) : State := s.mapSlot p fun sl => { sl with cqci := idx.toNat }

/-! ## Window 1 and CXL.mem (R395, R398) -/

/-- The bytes of an access that lie in device memory. -/
def inDevice (pa n : Nat) : Nat := min n (Config.deviceBytes - pa)

/-- Bytes that the host writes to device memory; beyond its end they are dropped (R74, R398). -/
def State.hostWrite (s : State) (pa : Nat) (data : List Byte) : State :=
  (s.commit pa (data.take (inDevice pa data.length))).1

/-- Bytes that the host reads from device memory, all ones beyond its end, with the poison of their sectors (R398,
R439). -/
def State.hostRead (s : State) (pa n : Nat) : State :=
  let k := inDevice pa n
  let r := if k = 0 then (s, []) else s.sliceRead pa k
  { r.1 with output := r.1.output ++ [.hostData (r.2 ++ List.replicate (n - k) 0xFF) (k != 0 && s.isPoisoned pa k)] }

/-- The access lies in Window 1 (R394): nothing else of the host reaches the device through it. -/
def State.inWindow1 (s : State) (off n : Nat) : Bool := decide (off + n ≤ s.w1size)

/-- HOST_WINDOW1_WRITE (R394, R398). -/
def State.window1Write (s : State) (off : Nat) (data : List Byte) : State :=
  if s.inWindow1 off data.length then s.hostWrite (s.w1base + off) data else s

/-- HOST_WINDOW1_READ (R394, R398). -/
def State.window1Read (s : State) (off n : Nat) : State :=
  if s.inWindow1 off n then s.hostRead (s.w1base + off) n else s

/-- The host resizes Window 1 by Resizable BAR: 256 MiB to 1 TiB, a power of two (R394, log 68). -/
def State.resizeBar (s : State) (log2 : Nat) : State :=
  if s.hostLink ∧ 28 ≤ log2 ∧ log2 ≤ 40 then { s with w1size := 2 ^ log2 } else s

/-- Size, operation, operand and compare value of a PCIe AtomicOp (R394). -/
def HostAtomic.args (a : HostAtomic) : Nat × AtomOp × Nat × Nat :=
  match a with
  | .fetchAdd n x => (n, .add, x, 0)
  | .swap n x => (n, .swap, x, 0)
  | .cas n c x => (n, .cas, x, c)

/-- An AtomicOp of a size that R394 lists. -/
def HostAtomic.sizeOk (a : HostAtomic) : Bool := let n := (HostAtomic.args a).1; n == 4 || n == 8 || n == 16

/-- HOST_ATOMICOP (R81, R398): beyond the end of device memory it reads all ones and writes nothing. -/
def State.hostAtomic (s : State) (off : Nat) (a : HostAtomic) : State :=
  let x := HostAtomic.args a
  let pa := s.w1base + off
  if !HostAtomic.sizeOk a ∨ pa % x.1 ≠ 0 ∨ !s.inWindow1 off x.1 then s
  else if Config.deviceBytes < pa + x.1 then s.hostRead pa x.1
  else
    let r := s.sliceAtomic x.2.1 pa x.1 (x.2.2.1 % 2 ^ (8 * x.1)) (x.2.2.2 % 2 ^ (8 * x.1))
    { r.1 with output := r.1.output ++ [.hostData r.2.1 (s.isPoisoned pa x.1)] }

/-- HOST_CXL_MEM_ACCESS (R395): as Window 1, at a physical address of the device, while the link is CXL. -/
def State.cxlMem (s : State) (pa n : Nat) (data : Option (List Byte)) : State :=
  if !s.linkCxl ∨ Config.deviceBytes ≤ pa then s
  else match data with
    | some d => s.hostWrite pa d
    | none => s.hostRead pa n

/-- HOST_LINK_TRAINING (R394, R395, R397): a link that was DOWN is up again (R437, log 30). -/
def State.linkTraining (s : State) (cxl cache : Bool) : State :=
  if s.hostLinkable then { s with linkCxl := cxl, linkCache := cxl && cache, linksDown := s.linksDown.filter (· != unitHost) } else s

/-! ## Answers to faults (R418, R419) -/

/-- FBCI_WRITE (R415, R418): entries that wait for room are written. -/
def State.fbciWrite (s : State) (p : Nat) (idx : Word) : State :=
  (s.mapSlot p fun sl => { sl with fbci := idx.toNat }).flushFaults p

/-- The group of a fault answered: it replays once all its faults are, and a failed one is unresolvable to it (R419). -/
def Group.answered (g : Group) (id : Nat) (fail : Option (Nat × Nat)) : Group :=
  { g with parked := g.parked.erase id, failed := match fail with
      | some x => x :: g.failed
      | none => g.failed }

/-- A group of a resident or a saved team changed (R47). -/
def State.mapAnyGroup (s : State) (uid gid : Nat) (f : Group → Group) : State :=
  { s.mapGroup uid gid f with
      saved := s.saved.map fun x => if x.1.uid = uid then (x.1.mapGroup gid f, x.2) else x }

/-- A command of a fault answered; a transfer goes on by itself (R419). -/
def State.answerOp (s : State) (oid : Nat) (fail : Option (Nat × Nat)) : State :=
  (s.mapOp oid fun o => { o with parked := false, failPages := match fail with
      | some x => x :: o.failPages
      | none => o.failPages }).resumeXfer oid

/-- A held gather fires again (R137, R138). DESIGN CHOICE: one that had come due before the fault held it fires at the
answer, even where a save has taken a member from it since; whether it was full is judged at the moment it came due (log
40). -/
def State.answerGather (s : State) (launch sk k : Nat) (fail : Option (Nat × Nat)) : State :=
  match s.gather? launch sk k with
  | none => s
  | some g =>
    let s : State := match fail with
      | some x => g.members.foldl (fun (s : State) m => s.mapOp m fun o => { o with failPages := x :: o.failPages }) s
      | none => s
    let g' := { g with held := false }
    (s.mapGather g fun _ => g').fire g'

/-- One accessor of a fault that has been answered (R419). -/
def State.answerWho (s : State) (id page kind : Nat) (failed : Bool) (who : Accessor) : State :=
  let fail := if failed then some (page, kind) else none
  match who with
  | .group uid gid => s.mapAnyGroup uid gid fun g => g.answered id fail
  | .op oid => s.answerOp oid fail
  | .gather launch sk k => s.answerGather launch sk k fail
  | .join jid =>
    { s with joins := s.joins.map fun j => if j.id = jid then { j with parked := false, failed := failed } else j }
  | .message mid =>
    { s with messages := s.messages.map fun m => if m.id = mid then { m with parked := false, failed := failed } else m }
  | .heldEntry n =>
    { s with heldEntries := s.heldEntries.map fun e => if e.id = n then { e with failed := failed } else e }
  | .launchEntry p => if failed then s.mapSlot p fun sl => { sl with failPages := (page, kind) :: sl.failPages } else s
  | .spill p => if failed then s.slotError p 3 else s
  | .remote n => s.resumeRemote n failed

/-- An answer to a fault entry; an id that names none is ignored (R419). -/
def State.answerFault (s : State) (p id : Nat) (failed : Bool) : State :=
  match s.faults.find? fun f => f.slot == p && f.id == id && f.written && id != 0 with
  | none => s
  | some f =>
    f.who.foldl (fun s w => s.answerWho id f.page f.kind failed w)
      { s with faults := s.faults.filter fun g => !(g.slot == p && g.id == id) }

/-- DLNOW (R46, R415): a deadline falls due in every resident team of the slot, and in a saved one when it resumes; its
`dlin` is cleared as at any deadline. -/
def State.dlNow (s : State) (p : Nat) : State :=
  let s := ((s.teams.filter fun t => t.slot == p).map (·.uid)).foldl (fun s u => s.expire u s.now) s
  let mine := (s.saved.filter fun x => x.1.slot == p).map (·.1.uid)
  { s with
      saved := s.saved.map fun x => if x.1.slot = p then ({ x.1.mapThreads (Thread.due s.now) with dlin := 0 }, x.2) else x,
      ops := s.ops.map fun o => if mine.contains o.uid ∧ o.dlStops then o.stopAt 1 else o }

/-! ## The version store (R417) -/

/-- Live hypotheses of a slot (R415). -/
def Slot.hypLive (sl : Slot) : Nat := (sl.hyps.filter fun h => h.st == .live).length

/-- VSCFG_WRITE (R416, R417): SIZE above 32 is ignored; a change needs that no hypothesis is live. -/
def State.vscfgWrite (s : State) (w : Word) : State :=
  let size := (w.extractLsb' 0 31).toNat
  if 32 < size then s
  else if s.slots.any fun sl => sl.hypLive != 0 then { s with vsRefused := true }
  else { s with vscfg := size, vsRefused := false }

/-! ## The operations -/

/-- SLOT_ENABLE (R399): Writing SLOTCTL EN = 1 enables a process slot when all its fields are legal. -/
def execSlotEnable (p : Nat) (s : State) : Host.Outcome State Fault Refusal :=
  .next (s.fromHost fun s => s.slotEnable p)

/-- SLOT_HOLD (R399): Writing SLOTCTL HOLD stops or resumes the taking of launch entries. -/
def execSlotHold (p : Nat) (hold : Bool) (s : State) : Host.Outcome State Fault Refusal :=
  .next (s.fromHost fun s => s.slotHold p hold)

/-- SLOT_TEARDOWN (R402): Writing SLOTCTL EN = 0 discards queued records, aborts their launches and kills the process's
teams. -/
def execSlotTeardown (p : Nat) (s : State) : Host.Outcome State Fault Refusal :=
  .next (s.fromHost fun s => s.slotTeardown p)

/-- LAUNCH_DOORBELL (R404): A write of LQPI in the launch window announces new launch entries. -/
def execLaunchDoorbell (p : Nat) (idx : BitVec 32) (s : State) : Host.Outcome State Fault Refusal :=
  .next (s.fromHost fun s => s.doorbell p idx)

/-- LAUNCH_ENTRY_TAKE (R405): The device reads, checks and pushes one launch entry and advances LQCI. -/
def execLaunchEntryTake (p : Nat) (s : State) : Host.Outcome State Fault Refusal := .next (s.launchTake p)

/-- LAUNCH_COMPLETION (R406): When a launch completes the device makes a system release, writes a completion entry,
advances CQPI and may send MSI-X. -/
def execLaunchCompletion (lid : Nat) (s : State) : Host.Outcome State Fault Refusal := .next (s.launchComplete lid)

/-- COMPLETION_CONSUMED (R404): A write of CQCI frees completion ring entries so held completions can be written. -/
def execCompletionConsumed (p : Nat) (idx : BitVec 32) (s : State) : Host.Outcome State Fault Refusal :=
  .next (s.fromHost fun s => s.consumed p idx)

/-- HOST_WINDOW1_WRITE (R398): A host write through Window 1 is performed at the line's home slice as a device-class
store. -/
def execHostWindow1Write (off : Nat) (data : List (BitVec 8)) (s : State) : Host.Outcome State Fault Refusal :=
  .next (s.fromHost fun s => s.window1Write off data)

/-- HOST_WINDOW1_READ (R398): A host read through Window 1 returns committed data. -/
def execHostWindow1Read (off n : Nat) (s : State) : Host.Outcome State Fault Refusal :=
  .next (s.fromHost fun s => s.window1Read off n)

/-- HOST_ATOMICOP (R398): A PCIe AtomicOp from the host is performed at the home slice in the location's coherence
order. -/
def execHostAtomicop (off : Nat) (op : HostAtomic) (s : State) : Host.Outcome State Fault Refusal :=
  .next (s.fromHost fun s => s.hostAtomic off op)

/-- HOST_CXL_MEM_ACCESS (R395): A host access to device memory through CXL.mem is served as a Window 1 access. -/
def execHostCxlMemAccess (pa n : Nat) (data : Option (List (BitVec 8))) (s : State) : Host.Outcome State Fault Refusal :=
  .next (s.fromHost fun s => s.cxlMem pa n data)

/-- HOST_LINK_TRAINING (R394): The host link trains at PCIe 6.0 or CXL 3.1 and sets GSTAT. -/
def execHostLinkTraining (cxl cache : Bool) (s : State) : Host.Outcome State Fault Refusal :=
  .next (s.linkTraining cxl cache)

/-- RESUME (R408): A write to RESUME restarts issue on a halted core. -/
def execResume (w : BitVec 32) (s : State) : Host.Outcome State Fault Refusal :=
  .next (s.fromHost fun s => s.resumeCore w)

/-- FBCI_WRITE (R415): A write of FBCI frees fault-buffer entries so waiting faults can be written. -/
def execFbciWrite (p : Nat) (idx : BitVec 32) (s : State) : Host.Outcome State Fault Refusal :=
  .next (s.fromHost fun s => s.fbciWrite p idx)

/-- FACK_RETRY (R419): FACK with ACT RETRY makes every access of the fault entry walk again. -/
def execFackRetry (p id : Nat) (s : State) : Host.Outcome State Fault Refusal :=
  .next (s.fromHost fun s => s.answerFault p id false)

/-- FACK_FAIL (R419): FACK with ACT FAIL makes every access of the fault entry unresolvable, trapping groups and
stopping engine commands. -/
def execFackFail (p id : Nat) (s : State) : Host.Outcome State Fault Refusal :=
  .next (s.fromHost fun s => s.answerFault p id true)

/-- DLNOW (R415): A write of DLNOW makes a deadline fall due at once in every resident team of the slot. -/
def execDlnow (p : Nat) (s : State) : Host.Outcome State Fault Refusal := .next (s.fromHost fun s => s.dlNow p)

/-- TLBI_PAGE (R416): TLBICTL KIND 0 starts invalidation of one page of an ASID. -/
def execTlbiPage (asid : BitVec 16) (s : State) : Host.Outcome State Fault Refusal :=
  .next (s.fromHost fun s => s.addInval 0 asid.toNat s.tlbiVa.toNat true)

/-- TLBI_ASID (R416): TLBICTL KIND 1 starts invalidation of every page of an ASID. -/
def execTlbiAsid (asid : BitVec 16) (s : State) : Host.Outcome State Fault Refusal :=
  .next (s.fromHost fun s => s.addInval 1 asid.toNat 0 true)

/-- TLBI_ALL (R416): TLBICTL KIND 2 starts invalidation of every translation entry of the device. -/
def execTlbiAll (s : State) : Host.Outcome State Fault Refusal := .next (s.fromHost fun s => s.addInval 2 0 0 true)

/-- TLB_INVALIDATION_COMPLETE (R416): An invalidation completes once every access translated through a dropped entry is
performed, and BUSY clears. -/
def execTlbInvalidationComplete (s : State) : Host.Outcome State Fault Refusal := .next (s.tlbComplete)

/-- VSCFG_WRITE (R417): A VSCFG write resizes the version store when no hypothesis is live, else sets REFUSED. -/
def execVscfgWrite (w : BitVec 32) (s : State) : Host.Outcome State Fault Refusal :=
  .next (s.fromHost fun s => s.vscfgWrite w)

end Sys2Proof.Machine
end

