-- ==== Sys2Proof/Machine/IntAlu.lean ====
section
/-! DEFINITION. Integer, move and 64-bit address words, and the words of `misc` (R238 to R252). -/

namespace Sys2Proof.Machine

open Sys2Proof

/-- The group that its lane's exchange takes in (R239). -/
def yieldDone (s : State) (i : Issue) : Done := nothing (s.exchange i.c.uid i.c.gid)

/-- The operand of `free` with a K mark, so that the word's end frees it (R240). -/
def freeing (_ : Issue) (ops : List Opd) : List Opd := ops.map fun o => { o with k := true }

/-- NOP (R204): A nop is consumed by the grouping stage without an issue event. -/
def execNop (w : RM) (s : State) : Host.Outcome State Fault Refusal :=
  issueWord (.rm 0x00 0 .any { d := true, a := true, ka := true, ea := true, l := true } w)
    (fun s _ => { nothing s with quiet := true }) s

/-- BRK (R238): Every active thread takes BREAK. -/
def execBrk (w : RM) (s : State) : Host.Outcome State Fault Refusal :=
  issueWord (.rm 0x00 1 .any { d := true, a := true, ka := true, ea := true, l := true } w)
    (fun s _ => allTrap s cBreak 0) s

/-- YIELD (R239): Exchanges the group for the oldest ready pending group of its lane. -/
def execYield (w : RM) (s : State) : Host.Outcome State Fault Refusal :=
  issueWord (.rm 0x00 2 .any { d := true, a := true, ka := true, ea := true, l := true } w) yieldDone s

/-- FREE (R240): Makes a register ABSENT without reading it. -/
def execFree (w : RM) (s : State) : Host.Outcome State Fault Refusal :=
  issueWith (.rm 0x00 3 .any { d := true, ka := true, ea := true, l := true } w)
    (fun _ _ => true) freeing (fun s _ => nothing s) s

/-- WTIME (R241): Writes global time into a register pair from one instant. -/
def execWtime (w : RM) (s : State) : Host.Outcome State Fault Refusal :=
  issueWord (.rm 0x00 4 .any { a := true, ka := true, ea := true, l := true } w)
    (fun s _ => { nothing s with res := fun _ => pairOf w.d.toNat (BitVec.ofNat 64 s.now) }) s

/-- ADD (R242): Writes a + b. -/
def execAdd (w : RR) (s : State) : Host.Outcome State Fault Refusal :=
  issueWord (.rr 0x01 .any {} w) (compute (binary (fun a b => a + b) w)) s

/-- SUB (R242): Writes a − b. -/
def execSub (w : RR) (s : State) : Host.Outcome State Fault Refusal :=
  issueWord (.rr 0x02 .any {} w) (compute (binary (fun a b => a - b) w)) s

/-- MULLO (R242): Writes the low 32 bits of a × b. -/
def execMullo (w : RR) (s : State) : Host.Outcome State Fault Refusal :=
  issueWord (.rr 0x03 .any {} w) (compute (binary (fun a b => a * b) w)) s

/-- MULHI_S (R242): Writes the high 32 bits of the signed product. -/
def execMulhiS (w : RR) (s : State) : Host.Outcome State Fault Refusal :=
  issueWord (.rr 0x04 .any {} w) (compute (binary mulHiS w)) s

/-- MULHI_Z (R242): Writes the high 32 bits of the unsigned product. -/
def execMulhiZ (w : RR) (s : State) : Host.Outcome State Fault Refusal :=
  issueWord (.rr 0x05 .any {} w) (compute (binary mulHiZ w)) s

/-- MAD (R242): Writes d + low 32 bits of a × b. -/
def execMad (w : RR) (s : State) : Host.Outcome State Fault Refusal :=
  issueWord (.rr 0x06 .any {} w) (compute (ternary (fun a b d => d + a * b) w)) s

/-- MIN_S (R242): Writes the signed minimum. -/
def execMinS (w : RR) (s : State) : Host.Outcome State Fault Refusal :=
  issueWord (.rr 0x07 .any {} w) (compute (binary minSigned w)) s

/-- MIN_Z (R242): Writes the unsigned minimum. -/
def execMinZ (w : RR) (s : State) : Host.Outcome State Fault Refusal :=
  issueWord (.rr 0x08 .any {} w) (compute (binary minUnsigned w)) s

/-- MAX_S (R242): Writes the signed maximum. -/
def execMaxS (w : RR) (s : State) : Host.Outcome State Fault Refusal :=
  issueWord (.rr 0x09 .any {} w) (compute (binary maxSigned w)) s

/-- MAX_Z (R242): Writes the unsigned maximum. -/
def execMaxZ (w : RR) (s : State) : Host.Outcome State Fault Refusal :=
  issueWord (.rr 0x0A .any {} w) (compute (binary maxUnsigned w)) s

/-- AND (R242): Writes a AND b. -/
def execAnd (w : RR) (s : State) : Host.Outcome State Fault Refusal :=
  issueWord (.rr 0x0B .any {} w) (compute (binary (fun a b => a &&& b) w)) s

/-- OR (R242): Writes a OR b. -/
def execOr (w : RR) (s : State) : Host.Outcome State Fault Refusal :=
  issueWord (.rr 0x0C .any {} w) (compute (binary (fun a b => a ||| b) w)) s

/-- XOR (R242): Writes a XOR b. -/
def execXor (w : RR) (s : State) : Host.Outcome State Fault Refusal :=
  issueWord (.rr 0x0D .any {} w) (compute (binary (fun a b => a ^^^ b) w)) s

/-- ANDN (R242): Writes a AND NOT b. -/
def execAndn (w : RR) (s : State) : Host.Outcome State Fault Refusal :=
  issueWord (.rr 0x0E .any {} w) (compute (binary (fun a b => a &&& ~~~b) w)) s

/-- SHL (R243): Shifts left, giving 0 for amounts of 32 or more. -/
def execShl (w : RR) (s : State) : Host.Outcome State Fault Refusal :=
  issueWord (.rr 0x0F .any {} w) (compute (binary shiftL w)) s

/-- SHR (R243): Shifts right logically. -/
def execShr (w : RR) (s : State) : Host.Outcome State Fault Refusal :=
  issueWord (.rr 0x10 .any {} w) (compute (binary shiftR w)) s

/-- SAR (R243): Shifts right arithmetically. -/
def execSar (w : RR) (s : State) : Host.Outcome State Fault Refusal :=
  issueWord (.rr 0x11 .any {} w) (compute (binary shiftA w)) s

/-- ROT (R243): Rotates left by s mod 32. -/
def execRot (w : RR) (s : State) : Host.Outcome State Fault Refusal :=
  issueWord (.rr 0x12 .any {} w) (compute (binary rotL w)) s

/-- BFE_Z (R244): Extracts a bit field zero-extended. -/
def execBfeZ (w : RR) (s : State) : Host.Outcome State Fault Refusal :=
  issueWord (.rr 0x13 .any {} w) (compute (binary bitField w)) s

/-- BFE_S (R244): Extracts a bit field sign-extended. -/
def execBfeS (w : RR) (s : State) : Host.Outcome State Fault Refusal :=
  issueWord (.rr 0x14 .any {} w) (compute (binary bitFieldS w)) s

/-- BFI (R244): Inserts a bit field into d. -/
def execBfi (w : RR) (s : State) : Host.Outcome State Fault Refusal :=
  issueWord (.rr 0x15 .any {} w) (compute (ternary bitInsert w)) s

/-- NOT (R245): Writes NOT a. -/
def execNot (w : RM) (s : State) : Host.Outcome State Fault Refusal :=
  issueWord (.rm 0x16 0 .any {} w) (compute (unary (fun a => ~~~a) w)) s

/-- NEG (R245): Writes 0 − a. -/
def execNeg (w : RM) (s : State) : Host.Outcome State Fault Refusal :=
  issueWord (.rm 0x16 1 .any {} w) (compute (unary (fun a => 0 - a) w)) s

/-- ABS (R245): Writes the absolute value of a. -/
def execAbs (w : RM) (s : State) : Host.Outcome State Fault Refusal :=
  issueWord (.rm 0x16 2 .any {} w) (compute (unary absWord w)) s

/-- POPC (R245): Writes the number of 1 bits. -/
def execPopc (w : RM) (s : State) : Host.Outcome State Fault Refusal :=
  issueWord (.rm 0x16 3 .any {} w) (compute (unary popCount w)) s

/-- CLZ (R245): Writes the count of leading zeros. -/
def execClz (w : RM) (s : State) : Host.Outcome State Fault Refusal :=
  issueWord (.rm 0x16 4 .any {} w) (compute (unary leadingZeros w)) s

/-- CTZ (R245): Writes the count of trailing zeros. -/
def execCtz (w : RM) (s : State) : Host.Outcome State Fault Refusal :=
  issueWord (.rm 0x16 5 .any {} w) (compute (unary trailingZeros w)) s

/-- BREV (R245): Reverses the bits of a. -/
def execBrev (w : RM) (s : State) : Host.Outcome State Fault Refusal :=
  issueWord (.rm 0x16 6 .any {} w) (compute (unary bitReverse w)) s

/-- SEXT8 (R245): Sign-extends a[7:0]. -/
def execSext8 (w : RM) (s : State) : Host.Outcome State Fault Refusal :=
  issueWord (.rm 0x16 7 .any {} w) (compute (unary (fun a => (a.extractLsb' 0 8).signExtend 32) w)) s

/-- SEXT16 (R245): Sign-extends a[15:0]. -/
def execSext16 (w : RM) (s : State) : Host.Outcome State Fault Refusal :=
  issueWord (.rm 0x16 8 .any {} w) (compute (unary (fun a => (a.extractLsb' 0 16).signExtend 32) w)) s

/-- ZEXT8 (R245): Zero-extends a[7:0]. -/
def execZext8 (w : RM) (s : State) : Host.Outcome State Fault Refusal :=
  issueWord (.rm 0x16 9 .any {} w) (compute (unary (fun a => (a.extractLsb' 0 8).setWidth 32) w)) s

/-- ZEXT16 (R245): Zero-extends a[15:0]. -/
def execZext16 (w : RM) (s : State) : Host.Outcome State Fault Refusal :=
  issueWord (.rm 0x16 10 .any {} w) (compute (unary (fun a => (a.extractLsb' 0 16).setWidth 32) w)) s

/-- MOV (R245): Copies a. -/
def execMov (w : RM) (s : State) : Host.Outcome State Fault Refusal :=
  issueWord (.rm 0x16 11 .any {} w) (compute (unary (fun a => a) w)) s

/-- BSWAP (R245): Reverses the bytes of a. -/
def execBswap (w : RM) (s : State) : Host.Outcome State Fault Refusal :=
  issueWord (.rm 0x16 12 .any {} w) (compute (unary byteSwap w)) s

/-- SEL (R246): Writes a when d is nonzero, else b. -/
def execSel (w : RR) (s : State) : Host.Outcome State Fault Refusal :=
  issueWord (.rr 0x17 .any {} w) (compute (ternary (fun a b d => if d = 0 then b else a) w)) s

/-- CMP_EQ (R247): Writes 1 when a = b. -/
def execCmpEq (w : RR) (s : State) : Host.Outcome State Fault Refusal :=
  issueWord (.rr 0x18 .any {} w) (compute (binary (fun a b => truth (a == b)) w)) s

/-- CMP_NE (R247): Writes 1 when a ≠ b. -/
def execCmpNe (w : RR) (s : State) : Host.Outcome State Fault Refusal :=
  issueWord (.rr 0x19 .any {} w) (compute (binary (fun a b => truth (a != b)) w)) s

/-- CMP_LT_S (R247): Writes 1 when a < b signed. -/
def execCmpLtS (w : RR) (s : State) : Host.Outcome State Fault Refusal :=
  issueWord (.rr 0x1A .any {} w) (compute (binary (fun a b => truth (a.slt b)) w)) s

/-- CMP_LE_S (R247): Writes 1 when a ≤ b signed. -/
def execCmpLeS (w : RR) (s : State) : Host.Outcome State Fault Refusal :=
  issueWord (.rr 0x1B .any {} w) (compute (binary (fun a b => truth (a.sle b)) w)) s

/-- CMP_LT_Z (R247): Writes 1 when a < b unsigned. -/
def execCmpLtZ (w : RR) (s : State) : Host.Outcome State Fault Refusal :=
  issueWord (.rr 0x1C .any {} w) (compute (binary (fun a b => truth (a.ult b)) w)) s

/-- CMP_LE_Z (R247): Writes 1 when a ≤ b unsigned. -/
def execCmpLeZ (w : RR) (s : State) : Host.Outcome State Fault Refusal :=
  issueWord (.rr 0x1D .any {} w) (compute (binary (fun a b => truth (a.ule b)) w)) s

/-- LEA (R248): Writes a + (b << 2). -/
def execLea (w : RR) (s : State) : Host.Outcome State Fault Refusal :=
  issueWord (.rr 0x1E .any {} w) (compute (binary (fun a b => a + (b <<< 2)) w)) s

/-- ADDI (R248): Writes a plus a signed 10-bit immediate. -/
def execAddi (w : RI) (s : State) : Host.Outcome State Fault Refusal :=
  issueWord (.ri 0x1F w) (compute fun i t => ([(w.d.toNat, i.rd t w.a.toNat + w.i.signExtend 32)], 0)) s

/-- MOVL (R249): Writes the packet literal. -/
def execMovl (w : RM) (s : State) : Host.Outcome State Fault Refusal :=
  issueWord (.rm 0x20 0 .any { a := true, ka := true, ea := true, l1 := true } w)
    (compute fun i _ => ([(w.d.toNat, i.lit)], 0)) s

/-- MOVPC (R249): Writes the word's packet address, plus an optional offset, into a pair. -/
def execMovpc (w : RM) (s : State) : Host.Outcome State Fault Refusal :=
  issueWord (.rm 0x20 1 .any { a := true, ka := true, ea := true } w)
    (compute fun i _ => (pairOf w.d.toNat (packetOf i.c.pc + if w.l then i.lit.signExtend 64 else 0), 0)) s

/-- MOV64 (R249): Copies a register pair or a sign-extended literal. -/
def execMov64 (w : RM) (s : State) : Host.Outcome State Fault Refusal :=
  issueWord (.rm 0x20 2 .any {} w)
    (compute fun i t => (pairOf w.d.toNat (if w.l then i.lit.signExtend 64 else i.rd2 t w.a.toNat), 0)) s

/-- MOVG (R250): Copies g[M] to each thread's destination. -/
def execMovg (w : RN) (s : State) : Host.Outcome State Fault Refusal :=
  issueWord (.rn 0x21 false .any { a := true, l := true } w)
    (compute fun i _ => ([(w.d.toNat, i.rdG w.m.toNat)], 0)) s

/-- MOVTG (R251): Writes the lowest active thread's a into g[M]. -/
def execMovtg (w : RN) (s : State) : Host.Outcome State Fault Refusal :=
  issueWord (.rn 0x22 false .zero { d := true } w)
    (fun s i => { nothing s with gres := [(w.m.toNat, if w.l then i.lit else i.rd i.first w.a.toNat)] }) s

/-- ADD64 (R252): Adds 64-bit pairs. -/
def execAdd64 (w : RR) (s : State) : Host.Outcome State Fault Refusal :=
  issueWord (.rr 0x23 .any {} w) (compute (pairWise (fun a b => a + b) true w)) s

/-- SUB64 (R252): Subtracts 64-bit pairs. -/
def execSub64 (w : RR) (s : State) : Host.Outcome State Fault Refusal :=
  issueWord (.rr 0x24 .any {} w) (compute (pairWise (fun a b => a - b) true w)) s

/-- LEA64 (R252): Adds a zero-extended 32-bit value to a pair. -/
def execLea64 (w : RR) (s : State) : Host.Outcome State Fault Refusal :=
  issueWord (.rr 0x25 .any {} w) (compute (pairWise (fun a b => a + b) false w)) s

end Sys2Proof.Machine
end

