-- ==== Sys2Proof/Machine/Sha.lean ====
section
/-! DEFINITION. The hashes that the boot of R431 to R434 takes from their standards by name: SHA-2 (FIPS 180-4), MGF1 and
RSASSA-PSS (RFC 8017). The spec gives their names and parameters, the standards the rest (PRESUMED, log 13). -/

namespace Sys2Proof.Machine

open Sys2Proof

/-! ## SHA-2 -/

/-- Bytes of a number, most significant first. -/
def beBytes (n x : Nat) : List Byte := (leBytes n x).reverse

/-- A number of bytes, most significant first. -/
def beNat (l : List Byte) : Nat := leNat l.reverse

/-- What SHA-2 with words of `w` bits fixes: its constants, and the amounts of its four rotations of words; the last of
`small0` and `small1` is a shift. -/
structure Sha2 (w : Nat) where
  k : List (BitVec w)
  big0 : Nat × Nat × Nat
  big1 : Nat × Nat × Nat
  small0 : Nat × Nat × Nat
  small1 : Nat × Nat × Nat

/-- The exclusive or of three rotations of a word. -/
def rotations {w : Nat} (x : BitVec w) (r : Nat × Nat × Nat) : BitVec w :=
  x.rotateRight r.1 ^^^ x.rotateRight r.2.1 ^^^ x.rotateRight r.2.2

/-- The exclusive or of two rotations and a shift of a word. -/
def rotationsShift {w : Nat} (x : BitVec w) (r : Nat × Nat × Nat) : BitVec w :=
  x.rotateRight r.1 ^^^ x.rotateRight r.2.1 ^^^ (x >>> r.2.2)

/-- The message schedule, newest word first: `n` words more. -/
def Sha2.extend {w : Nat} (h : Sha2 w) : Nat → List (BitVec w) → List (BitVec w)
  | 0, l => l
  | n + 1, l =>
    h.extend n ((rotationsShift (l.getD 1 0) h.small1 + l.getD 6 0 + rotationsShift (l.getD 14 0) h.small0 + l.getD 15 0) :: l)

/-- One round with a constant and a word of the schedule. -/
def Sha2.round {w : Nat} (h : Sha2 w) (v : List (BitVec w)) (x : BitVec w × BitVec w) : List (BitVec w) :=
  match v with
  | [a, b, c, d, e, f, g, i] =>
    let t := i + rotations e h.big1 + ((e &&& f) ^^^ (~~~e &&& g)) + x.1 + x.2
    [t + rotations a h.big0 + ((a &&& b) ^^^ (a &&& c) ^^^ (b &&& c)), a, b, c, d + t, e, f, g]
  | v => v

/-- The words of a block, most significant byte first. -/
def blockWords (w : Nat) : Nat → List Byte → List (BitVec w)
  | 0, _ => []
  | n + 1, l => BitVec.ofNat w (beNat (l.take (w / 8))) :: blockWords w n (l.drop (w / 8))

/-- A block taken into a chaining value. -/
def Sha2.block {w : Nat} (h : Sha2 w) (v : List (BitVec w)) (l : List Byte) : List (BitVec w) :=
  let words := (h.extend (h.k.length - 16) (blockWords w 16 l).reverse).reverse
  List.zipWith (· + ·) v ((h.k.zip words).foldl h.round v)

/-- `n` blocks of `2 * w` bytes taken one after the other. -/
def Sha2.blocks {w : Nat} (h : Sha2 w) : Nat → List (BitVec w) → List Byte → List (BitVec w)
  | 0, v, _ => v
  | n + 1, v, l => h.blocks n (h.block v (l.take (2 * w))) (l.drop (2 * w))

/-- The hash of a message from an initial value: a bit of 1, zeros, and the length in bits fill the last block. -/
def Sha2.hash {w : Nat} (h : Sha2 w) (iv : List (BitVec w)) (m : List Byte) : List Byte :=
  let n := (m.length + 1 + w / 4 + 2 * w - 1) / (2 * w)
  let padded := m ++ [0x80] ++ List.replicate (n * (2 * w) - m.length - 1 - w / 4) 0 ++ beBytes (w / 4) (8 * m.length)
  (h.blocks n iv padded).flatMap fun x => beBytes (w / 8) x.toNat

/-- The constants of SHA-512: 64 bits of the fractions of the cube roots of the first 80 primes. -/
def shaConstants : List (BitVec 64) :=
  [0x428A2F98D728AE22, 0x7137449123EF65CD, 0xB5C0FBCFEC4D3B2F, 0xE9B5DBA58189DBBC,
   0x3956C25BF348B538, 0x59F111F1B605D019, 0x923F82A4AF194F9B, 0xAB1C5ED5DA6D8118,
   0xD807AA98A3030242, 0x12835B0145706FBE, 0x243185BE4EE4B28C, 0x550C7DC3D5FFB4E2,
   0x72BE5D74F27B896F, 0x80DEB1FE3B1696B1, 0x9BDC06A725C71235, 0xC19BF174CF692694] ++
  [0xE49B69C19EF14AD2, 0xEFBE4786384F25E3, 0x0FC19DC68B8CD5B5, 0x240CA1CC77AC9C65,
   0x2DE92C6F592B0275, 0x4A7484AA6EA6E483, 0x5CB0A9DCBD41FBD4, 0x76F988DA831153B5,
   0x983E5152EE66DFAB, 0xA831C66D2DB43210, 0xB00327C898FB213F, 0xBF597FC7BEEF0EE4,
   0xC6E00BF33DA88FC2, 0xD5A79147930AA725, 0x06CA6351E003826F, 0x142929670A0E6E70] ++
  [0x27B70A8546D22FFC, 0x2E1B21385C26C926, 0x4D2C6DFC5AC42AED, 0x53380D139D95B3DF,
   0x650A73548BAF63DE, 0x766A0ABB3C77B2A8, 0x81C2C92E47EDAEE6, 0x92722C851482353B,
   0xA2BFE8A14CF10364, 0xA81A664BBC423001, 0xC24B8B70D0F89791, 0xC76C51A30654BE30,
   0xD192E819D6EF5218, 0xD69906245565A910, 0xF40E35855771202A, 0x106AA07032BBD1B8] ++
  [0x19A4C116B8D2D0C8, 0x1E376C085141AB53, 0x2748774CDF8EEB99, 0x34B0BCB5E19B48A8,
   0x391C0CB3C5C95A63, 0x4ED8AA4AE3418ACB, 0x5B9CCA4F7763E373, 0x682E6FF3D6B2B8A3,
   0x748F82EE5DEFB2FC, 0x78A5636F43172F60, 0x84C87814A1F0AB72, 0x8CC702081A6439EC,
   0x90BEFFFA23631E28, 0xA4506CEBDE82BDE9, 0xBEF9A3F7B2C67915, 0xC67178F2E372532B] ++
  [0xCA273ECEEA26619C, 0xD186B8C721C0C207, 0xEADA7DD6CDE0EB1E, 0xF57D4F7FEE6ED178,
   0x06F067AA72176FBA, 0x0A637DC5A2C898A6, 0x113F9804BEF90DAE, 0x1B710B35131C471B,
   0x28DB77F523047D84, 0x32CAAB7B40C72493, 0x3C9EBE0A15C9BEBC, 0x431D67C49C100D4C,
   0x4CC5D4BECB3E42B6, 0x597F299CFC657E2A, 0x5FCB6FAB3AD6FAEC, 0x6C44198C4A475817]

/-- The fractions of the square roots of the first 8 primes. -/
def shaRoots : List (BitVec 64) :=
  [0x6A09E667F3BCC908, 0xBB67AE8584CAA73B, 0x3C6EF372FE94F82B, 0xA54FF53A5F1D36F1,
   0x510E527FADE682D1, 0x9B05688C2B3E6C1F, 0x1F83D9ABFB41BD6B, 0x5BE0CD19137E2179]

/-- The fractions of the square roots of the next 8 primes. -/
def shaNextRoots : List (BitVec 64) :=
  [0xCBBB9D5DC1059ED8, 0x629A292A367CD507, 0x9159015A3070DD17, 0x152FECD8F70E5939,
   0x67332667FFC00B31, 0x8EB44A8768581511, 0xDB0C2E0D64F98FA7, 0x47B5481DBEFA4FA4]

/-- SHA-2 with words of 64 bits. -/
def sha2Long : Sha2 64 :=
  { k := shaConstants, big0 := (28, 34, 39), big1 := (14, 18, 41), small0 := (1, 8, 7), small1 := (19, 61, 6) }

/-- SHA-2 with words of 32 bits, whose constants are the upper halves of those of 64 bits. -/
def sha2Short : Sha2 32 :=
  { k := (shaConstants.take 64).map fun x => x.extractLsb' 32 32, big0 := (2, 13, 22), big1 := (6, 11, 25),
    small0 := (7, 18, 3), small1 := (17, 19, 10) }

/-- SHA-512. -/
def sha512 (m : List Byte) : List Byte := sha2Long.hash shaRoots m

/-- SHA-384 as bytes: SHA-512 from another initial value, cut. -/
def sha384Bytes (m : List Byte) : List Byte := (sha2Long.hash shaNextRoots m).take 48

/-- SHA-384 as a number whose most significant byte comes first (R431). -/
def sha384 (m : List Byte) : BitVec 384 := BitVec.ofNat 384 (beNat (sha384Bytes m))

/-- SHA-256. -/
def sha256 (m : List Byte) : List Byte := sha2Short.hash (shaRoots.map fun x => x.extractLsb' 32 32) m

/-! ## MGF1 and RSASSA-PSS -/

/-- MGF1 with a hash of `h` bytes: `n` bytes from a seed. -/
def mgf1 (hash : List Byte → List Byte) (h : Nat) (seed : List Byte) (n : Nat) : List Byte :=
  ((List.range ((n + h - 1) / h)).flatMap fun k => hash (seed ++ beBytes 4 k)).take n

/-- `x` to the power of a number of `n` bits, modulo `m`. -/
def powMod (x e m : Nat) : Nat → Nat
  | 0 => 1 % m
  | n + 1 => let y := powMod (x * x % m) (e / 2) m n; if e % 2 = 1 then x * y % m else y

/-- The encoded message of RSASSA-PSS holds a message: SHA-384, MGF1 with SHA-384, a salt of 48 bytes (R431); `bits` is the
length of the modulus less 1. -/
def pssOk (em m : List Byte) (bits : Nat) : Bool :=
  let n := em.length
  let top := 8 * n - bits
  let db := em.take (n - 49)
  let h := (em.drop (n - 49)).take 48
  let plain := List.zipWith (· ^^^ ·) db (mgf1 sha384Bytes 48 h (n - 49))
  let plain := match plain with
    | b :: l => (b &&& (0xFF >>> top)) :: l
    | [] => []
  decide (98 ≤ n) && em.getLast? == some 0xBC && decide ((db.headD 0).toNat < 2 ^ (8 - top))
    && plain.take (n - 97) == List.replicate (n - 98) 0 ++ [1]
    && h == sha384Bytes (List.replicate 8 0 ++ sha384Bytes m ++ plain.drop (n - 97))

/-- A signature is the RSASSA-PSS signature of a message under a modulus and an exponent below 2^32 (R431, R432). -/
def rsaVerify (modulus : List Byte) (e : Nat) (m sig : List Byte) : Bool :=
  let n := beNat modulus
  let s := beNat sig
  if n ≤ s then false
  else
    let x := powMod s e n 32
    let k := (n.log2 + 7) / 8
    decide (x < 256 ^ k) && pssOk (beBytes k x) m n.log2

end Sys2Proof.Machine
end

