-- ==== Sys2Proof/Machine/Slh.lean ====
section
/-! DEFINITION. The check of an SLH-DSA-SHA2-192s signature (R431, R432), from its standard (FIPS 205; PRESUMED, log 13). -/

namespace Sys2Proof.Machine

open Sys2Proof

/-- Bytes of a hash value of the scheme. -/
def slhN : Nat := 24

/-- What a hash of the scheme is made for: the layer, the tree, the type, and three words whose meaning the type gives. -/
structure SlhPlace where
  layer : Nat
  tree : Nat
  kind : Nat
  w1 : Nat
  w2 : Nat
  w3 : Nat

/-- A place in its compressed form of 22 bytes. -/
def SlhPlace.bytes (x : SlhPlace) : List Byte :=
  beBytes 1 x.layer ++ beBytes 8 x.tree ++ beBytes 1 x.kind ++ beBytes 4 x.w1 ++ beBytes 4 x.w2 ++ beBytes 4 x.w3

/-- The hash of one value, F: SHA-256. -/
def slhF (seed : List Byte) (x : SlhPlace) (m : List Byte) : List Byte :=
  (sha256 (seed ++ List.replicate (64 - slhN) 0 ++ x.bytes ++ m)).take slhN

/-- The hash of several values, H and T: SHA-512. -/
def slhH (seed : List Byte) (x : SlhPlace) (m : List Byte) : List Byte :=
  (sha512 (seed ++ List.replicate (128 - slhN) 0 ++ x.bytes ++ m)).take slhN

/-- `n` pieces of `k` bytes each. -/
def pieces (k : Nat) : Nat → List Byte → List (List Byte)
  | 0, _ => []
  | n + 1, l => l.take k :: pieces k n (l.drop k)

/-- `n` digits of `b` bits of a string of bytes, the first from its most significant bits. -/
def digits (b n : Nat) (l : List Byte) : List Nat :=
  let x := beNat l
  (List.range n).map fun k => x / 2 ^ (8 * l.length - b * (k + 1)) % 2 ^ b

/-- The root above a node with its path of siblings: `w2` is the height of a node and `w3` its index. -/
def slhClimb (seed : List Byte) (x : SlhPlace) : List (List Byte) → Nat → Nat → List Byte → List Byte
  | [], _, _, node => node
  | y :: path, height, idx, node =>
    let here := { x with w2 := height + 1, w3 := idx / 2 }
    slhClimb seed x path (height + 1) (idx / 2) (slhH seed here (if idx % 2 = 0 then node ++ y else y ++ node))

/-- `n` steps of a chain from step `k` on; `w3` is the step. -/
def slhChain (seed : List Byte) (x : SlhPlace) : Nat → Nat → List Byte → List Byte
  | 0, _, node => node
  | n + 1, k, node => slhChain seed x n (k + 1) (slhF seed { x with w3 := k } node)

/-- The digits that a one-time signature of 24 bytes signs: 48 of the message and 3 of their checksum. -/
def wotsDigits (m : List Byte) : List Nat :=
  let d := digits 4 48 m
  d ++ digits 4 3 (beBytes 2 (16 * (d.map (15 - ·)).sum))

/-- The key that a one-time signature of a message leads to; `w1` is the leaf, `w2` the chain. -/
def wotsKey (seed : List Byte) (x : SlhPlace) (sig m : List Byte) : List Byte :=
  let ends := ((pieces slhN 51 sig).zip (wotsDigits m)).mapIdx fun k y =>
    slhChain seed { x with kind := 0, w2 := k, w3 := 0 } (15 - y.2) y.2 y.1
  slhH seed { x with kind := 1, w2 := 0, w3 := 0 } ends.flatten

/-- The root that one tree's signature, a one-time signature and a path of 9, leads to. -/
def xmssRoot (seed : List Byte) (layer tree leaf : Nat) (sig m : List Byte) : List Byte :=
  let x : SlhPlace := { layer := layer, tree := tree, kind := 0, w1 := leaf, w2 := 0, w3 := 0 }
  slhClimb seed { x with kind := 2, w1 := 0 } (pieces slhN 9 (sig.drop (51 * slhN))) 0 leaf (wotsKey seed x (sig.take (51 * slhN)) m)

/-- The root that the signatures of the trees above one another, bottom up, lead to. -/
def slhRoot (seed : List Byte) : List (List Byte) → Nat → Nat → Nat → List Byte → List Byte
  | [], _, _, _, m => m
  | sig :: rest, layer, tree, leaf, m => slhRoot seed rest (layer + 1) (tree / 512) (tree % 512) (xmssRoot seed layer tree leaf sig m)

/-- The key that the 17 signatures of the few-time scheme, each with a path of 14, lead to. -/
def forsKey (seed : List Byte) (tree leaf : Nat) (sig md : List Byte) : List Byte :=
  let x : SlhPlace := { layer := 0, tree := tree, kind := 3, w1 := leaf, w2 := 0, w3 := 0 }
  let roots := ((pieces (15 * slhN) 17 sig).zip (digits 14 17 md)).mapIdx fun k y =>
    let idx := k * 2 ^ 14 + y.2
    slhClimb seed x (pieces slhN 14 (y.1.drop slhN)) 0 idx (slhF seed { x with w3 := idx } (y.1.take slhN))
  slhH seed { x with kind := 4 } roots.flatten

/-- The check of a signature of the bytes that the scheme itself signs. -/
def slhCheck (key m sig : List Byte) : Bool :=
  let seed := key.take slhN
  let r := sig.take slhN
  let digest := mgf1 sha512 64 (r ++ seed ++ sha512 (r ++ key ++ m)) 39
  let tree := beNat ((digest.drop 30).take 7) % 2 ^ 54
  let leaf := beNat (digest.drop 37) % 2 ^ 9
  let fors := forsKey seed tree leaf ((sig.drop slhN).take (17 * 15 * slhN)) (digest.take 30)
  decide (sig.length = 16224) && decide (key.length = 2 * slhN)
    && slhRoot seed (pieces (60 * slhN) 7 (sig.drop (256 * slhN))) 0 tree leaf fors == key.drop slhN

/-- A signature is an SLH-DSA-SHA2-192s signature of a message under a key (R431, R432), in the standard's pure form with an
empty context (PRESUMED, log 13). -/
def slhVerify (key m sig : List Byte) : Bool := slhCheck key ([0, 0] ++ m) sig

end Sys2Proof.Machine
end

