-- ==== Sys2Proof/Machine/Manage.lean ====
section
/-! DEFINITION. Management: the control key (R435, R436), pod ports (R427 to R429), secure boot and resets (R431 to R434),
errors and retirement (R437 to R442), monitors, clock and thermal control (R444, R445), and the registers of Window 0
(R396, R397, R399, R408, R415, R416). -/

namespace Sys2Proof.Machine

open Sys2Proof

/-! ## The control key (R435, R436) -/

/-- The code of a master in KEYCTL (R436). -/
def masterCode (m : Master) : Nat :=
  match m with
  | .host => 1
  | .arpex => 2

/-- Who holds the key now: recovery keeps it with the Arpex port, and it is free once its time has run out (R432, R436).
-/
def State.keyHolder (s : State) : Nat :=
  if s.boot.recovery then 2 else if s.key.expires ≤ s.now then 0 else s.key.holder

/-- A master reaches the device: the host over its link, the Arpex port while there is power (R432). -/
def State.reaches (s : State) (m : Master) : Bool :=
  match m with
  | .host => s.hostLink
  | .arpex => s.boot.powered

/-- A "key" operation of a master: ignored from one that does not hold the key. -/
def State.withKey (s : State) (m : Master) (f : State → State) : State :=
  if s.reaches m ∧ s.keyHolder = masterCode m then f s else s

/-- The key given to a master for 30 s (R436). -/
def State.giveKey (s : State) (m : Master) : State :=
  { s with key := { holder := masterCode m, expires := s.now + Config.keyLife } }

/-- The key freed. -/
def State.freeKey (s : State) : State := { s with key := { holder := 0, expires := 0 } }

/-- KEYCTL_TAKE, KEYCTL_RELEASE and KEYCTL_RENEW (R436): 1, 2 and 3. -/
def State.keyctl (s : State) (op : Nat) : State :=
  if !s.hostLink then s
  else match op, s.keyHolder with
    | 1, 0 => s.giveKey .host
    | 2, 1 => s.freeKey
    | 3, 1 => s.giveKey .host
    | _, _ => s

/-- Seconds left of the key (R435, R436), rounded down; a free value in recovery, where no time runs (log 29). -/
def State.secondsLeft (s : State) : Nat :=
  if s.boot.recovery then Config.recoverySeconds % 65536
  else if s.keyHolder = 0 then 0 else (s.key.expires - s.now) / 1000000000

/-- An answer on the Arpex port. -/
def State.arpexAnswer (s : State) (code : Nat) (data : List Nat) : State := { s with output := s.output ++ [.arpex code data] }

/-- An Arpex command that needs the key: 0 OK, 2 NOKEY (R435). -/
def State.arpexKeyed (s : State) (f : State → State) : State :=
  if !s.boot.powered then s else if s.keyHolder = 2 then (f s).arpexAnswer 0 [] else s.arpexAnswer 2 []

/-- KEY_TAKE (R435): 0 OK, 1 HELD. -/
def State.arpexTake (s : State) : State :=
  if !s.boot.powered then s else if s.keyHolder = 0 then (s.giveKey .arpex).arpexAnswer 0 [] else s.arpexAnswer 1 []

/-- KEY_EXPIRY (R436). -/
def State.keyExpiry (s : State) : State :=
  if !s.boot.recovery ∧ s.key.holder ≠ 0 ∧ s.key.expires ≤ s.now then s.freeKey else s

/-! ## Ports (R427 to R429) -/

/-- A port of the device. -/
def State.port (s : State) (n : Nat) : Port := (s.ports.find? fun p => p.num == n).getD (Port.reset n)

/-- A port changed; a change of STATE sends vector 3 (R428). -/
def State.mapPort (s : State) (n : Nat) (f : Port → Port) : State :=
  let t := { s with ports := s.ports.map fun p => if p.num = n then f p else p }
  if (t.port n).st = (s.port n).st then t else t.sendVector 3

/-- Wavelengths of a port that are up. -/
def wavesUp (w : BitVec 16) : Nat := ((List.range 16).filter fun k => w.getLsbD k).length

/-- PORTCTL EN = 1 (R427, R428). -/
def State.portEnable (s : State) (n : Nat) : State :=
  s.mapPort n fun p => if p.en then p else { p with en := true, st := .training, waves := 0, since := s.now }

/-- PORTCTL EN = 0 (R427, R428). -/
def State.portDisable (s : State) (n : Nat) : State := s.mapPort n fun p => { p with en := false, st := .off, waves := 0 }

/-- PORT_TRAINED (R428): the data-link layer comes up within 50 ms. -/
def State.portTrained (s : State) (n : Nat) (w : BitVec 16) : State :=
  s.mapPort n fun p =>
    if p.st ≠ .training ∨ p.since + Config.portTraining < s.now then p
    else { p with waves := w, st := if wavesUp w = 16 then .up else if wavesUp w = 15 then .degraded else .down }

/-- PORT_TRAINING_TIMEOUT (R428). -/
def State.portTimeout (s : State) (n : Nat) : State :=
  s.mapPort n fun p => if p.st = .training ∧ p.since + Config.portTraining ≤ s.now then { p with st := .down } else p

/-- A wavelength of a port is lost (R428). -/
def Port.lose (p : Port) (wave : Nat) : Port :=
  if !p.waves.getLsbD wave then p
  else { p with waves := p.waves &&& ~~~((1 : BitVec 16) <<< wave), st := if p.st = .up then .degraded else if p.st = .degraded then .down else p.st }

/-- Class of a unit word (R438). -/
def unitClass (u : Word) : Nat := (u.extractLsb' 28 4).toNat

/-- Port number of a unit word (R438). -/
def unitPort (u : Word) : Nat := (u.extractLsb' 0 4).toNat

/-- The unit word of an event as the log has it (R438): bits that the class does not use read 0; none for a class or an
index that is never written. -/
def unitNamed (u : Word) : Option Word :=
  let c := unitClass u
  let bits := fun (n : Nat) => (u.extractLsb' 0 28).toNat % 2 ^ n
  let word := fun (n bound : Nat) => if bits n < bound then some (BitVec.ofNat 32 (c * 2 ^ 28 + bits n)) else none
  if c = 1 then word 11 2048
  else if c = 2 then word 3 Config.clusters
  else if c = 3 then word 10 Config.slices
  else if c = 4 then word 9 384
  else if c = 5 then word 28 (Config.deviceBytes / 4096)
  else if c = 6 then (if bits 10 < Config.slices then word 11 2048 else none)
  else if c = 7 then word 4 16
  else if c = 8 then word 0 1
  else none

/-- The unit word of a port (R438). -/
def portWord (n : Nat) : Word := BitVec.ofNat 32 (7 * 2 ^ 28 + n % 16)

/-- Wavelengths of a crossbar channel (R7). -/
def channelWaves : Nat := 8

/-- A wavelength of a port, or of a crossbar channel, which then runs slower, is up (R7, R63, R428). -/
def State.waveUp (s : State) (u : Word) (wave : Nat) : Bool :=
  if unitClass u = 7 then (s.port (unitPort u)).waves.getLsbD wave
  else unitClass u == 6 && decide (wave < channelWaves) && !s.lostWaves.contains (u.toNat, wave)

/-- A port or a crossbar channel without one of its wavelengths (R63, R428). -/
def State.loseWave (s : State) (u : Word) (wave : Nat) : State :=
  if !s.waveUp u wave then s
  else if unitClass u = 7 then s.mapPort (unitPort u) fun p => p.lose wave
  else { s with lostWaves := (u.toNat, wave) :: s.lostWaves }

/-- A port whose link-layer retry is exhausted goes DOWN (R428). -/
def State.portDown (s : State) (n : Nat) : State := s.mapPort n fun p => if p.usable then { p with st := .down } else p

/-- The host link, or the network of a cluster, whose retry is exhausted goes DOWN (R437). DESIGN CHOICE: the host link
comes up again when it is trained, and then as the training says; a cluster network at a reset (log 30). -/
def State.linkDown (s : State) (u : Word) : State :=
  let s := { s with linksDown := u :: s.linksDown.filter (· != u) }
  if u = unitHost then { s with linkCxl := false, linkCache := false } else s

/-- What a link loses at an uncorrectable event: a port, the host link or a cluster network goes DOWN, a crossbar channel
loses a wavelength (R63, R428, R437). -/
def State.strikeLink (s : State) (u : Word) (wave : Nat) : State :=
  if unitClass u = 7 then s.portDown (unitPort u)
  else if unitClass u = 2 ∨ unitClass u = 8 then s.linkDown u
  else s.loseWave u wave

/-- PORTERR_CLEAR (R427). -/
def State.clearPortErr (s : State) (n : Nat) : State := s.mapPort n fun p => { p with replays := 0, crc := 0 }

/-! ## The error log (R438 to R442) -/

/-- One record of the log; kinds 2 and 3 send vector 0 (R441). -/
def State.logError (s : State) (u : Word) (kind count pa : Nat) : State :=
  let r := leBytes 8 s.now ++ leBytes 4 u.toNat ++ leBytes 1 kind ++ leBytes 1 (min count 255) ++ leBytes 2 0 ++ leBytes 8 pa
    ++ leBytes 8 0
  let s := { s with errlog := (s.errlog ++ [r]).drop (s.errlog.length + 1 - 1024), errpi := (s.errpi + 1) % 2 ^ 32 }
  if kind = 2 ∨ kind = 3 then s.sendVector 0 else s

/-- HBM4 pages whose counts are kept (R440). -/
def pagesKept : Nat := 4096

/-- The history of a unit with a new event put first; of the HBM4 pages that have a count, the one beyond 4,096 whose last
event is oldest loses it, and keeps its mark (R440). -/
def State.noteUnit (s : State) (x : UnitLog) : State :=
  let s := s.setUnit x
  let pages := s.units.filter fun y => unitClass y.word == 5 && y.times != []
  if unitClass x.word = 5 ∧ pagesKept < pages.length then
    match pages.getLast? with
    | some y => { s with units := s.units.map fun z => if z.word = y.word then { z with times := [] } else z }
    | none => s
  else s

/-- The corrected events of a unit in the 24 h window that ends now (R440, R441). -/
def State.recent (s : State) (x : UnitLog) : List Nat := x.times.filter fun t => s.now < t + Config.errorWindow

/-- A unit becomes lasting-faulted (R440, R442). -/
def State.markLasting (s : State) (u : Word) (count pa : Nat) : State :=
  if (s.unit u).lasting then s else (s.noteUnit { s.unit u with lasting := true, out := true }).logError u 3 count pa

/-- CORRECTED_ERROR (R437, R440, R441): a third within 24 h marks the unit. A port counts its replay and its CRC error
(R427, log 30). -/
def State.corrected (s : State) (u : Word) (pa : Nat) : State :=
  match unitNamed u with
  | none => s
  | some u =>
    let x := s.unit u
    let times := s.now :: s.recent x
    let s := (s.noteUnit { x with times := times }).logError u 1 times.length pa
    let s := if unitClass u = 7 then s.mapPort (unitPort u) fun p =>
        { p with replays := min 65535 (p.replays + 1), crc := min 65535 (p.crc + 1) } else s
    if 3 ≤ times.length then s.markLasting u times.length pa else s

/-- What an uncorrectable event does (R428, R437, R439). -/
def State.strike (s : State) (u : Word) (loc : ErrorSite) : State :=
  match loc with
  | .team uid => s.killTeam uid cEcc 0
  | .cleanSector _ => s
  | .dirtySector pa => if s.poisoned.contains (pa / 64) then s else { s with poisoned := (pa / 64) :: s.poisoned }
  | .link wave => s.strikeLink u wave

/-- The sector an uncorrectable event names in its record. -/
def ErrorSite.address (loc : ErrorSite) : Nat :=
  match loc with
  | .cleanSector pa => pa
  | .dirtySector pa => pa
  | _ => 0

/-- An uncorrectable event of a unit: its record, and the mark at the first of them (R440, R441). -/
def State.noteHard (s : State) (u : Word) (pa : Nat) : State :=
  let n := (s.recent (s.unit u)).length
  (s.logError u 2 n pa).markLasting u n pa

/-- UNCORRECTABLE_ERROR (R439 to R441). -/
def State.uncorrectable (s : State) (u : Word) (loc : ErrorSite) : State :=
  match unitNamed u with
  | none => s
  | some u => (s.strike u loc).noteHard u (ErrorSite.address loc)

/-- WAVELENGTH_LOST (R63, R428): of a port or of a crossbar channel, an uncorrectable event of it (R437, R440). -/
def State.waveLost (s : State) (u : Word) (wave : Nat) : State :=
  match unitNamed u with
  | none => s
  | some u => if s.waveUp u wave then (s.loseWave u wave).noteHard u 0 else s

/-- LINK_RETRY_EXHAUSTED (R428): an uncorrectable event of the port (R437, R440). -/
def State.retryExhausted (s : State) (n : Nat) : State :=
  if (s.port n).usable then s.uncorrectable (portWord n) (.link 0) else s

/-- The cores a unit word stands for: one core, or all of a cluster (R442). -/
def unitCores (u : Word) : List (Nat × Nat) :=
  let cl := fun (k : Nat) => (u.extractLsb' k 3).toNat
  if unitClass u = 1 then [(cl 8, (u.extractLsb' 0 8).toNat)]
  else if unitClass u = 2 then (List.range Config.coresPerCluster).map fun c => (cl 0, c)
  else []

/-- A marked core, or cluster network, whose cores hold no team is retired (R442). -/
def State.settleRetired (s : State) : State :=
  (s.units.filter fun x => x.lasting && !x.retired && (unitClass x.word == 1 || unitClass x.word == 2)).foldl (fun s x =>
    if (unitCores x.word).all fun c => (s.teamsOn c.1 c.2).isEmpty then
      (s.setUnit { x with retired := true }).logError x.word 4 (s.recent x).length 0
    else s) s

/-- READMIT (R442): counts and mark are cleared; the unit stays as it is, out of service or retired, until the next reset.
-/
def State.readmit (s : State) (u : Word) : State :=
  match unitNamed u with
  | none => s
  | some u => { s with units := s.units.map fun x => if x.word = u then { x with times := [], lasting := false } else x }

/-- The units at a reset: what is marked is retired, what was readmitted serves again (R442). -/
def State.retireAtReset (s : State) : State :=
  let keep := fun (x : UnitLog) => decide (1 ≤ unitClass x.word) && decide (unitClass x.word ≤ 4)
  let late := s.units.filter fun x => x.lasting && !x.retired && keep x
  let s := late.foldl (fun s x => s.logError x.word 4 (s.recent x).length 0) s
  { s with
      units := s.units.map fun x => { x with retired := x.lasting && keep x, out := x.lasting },
      retSlices := (s.units.filter fun x => x.lasting && unitClass x.word == 3).map fun x => (x.word.extractLsb' 0 10).toNat }

/-! ## Boot and reset (R431 to R436) -/

/-- Bytes of an image from an offset; flash beyond the image reads 0 (log 13). -/
def imagePart (x : FlashImage) (off n : Nat) : List Byte :=
  ((x.bytes.drop off).take n ++ List.replicate n 0).take n

/-- A field of an image, little-endian (R431). -/
def imageField (x : FlashImage) (off n : Nat) : Nat := leNat (imagePart x off n)

/-- Security version of an image (R431). -/
def imageSvn (x : FlashImage) : Nat := imageField x 8 4

/-- The body of an image (R431). -/
def imageBody (x : FlashImage) : List Byte := imagePart x 17408 (imageField x 12 4)

/-- What both signatures of an image sign: bytes 0 to 511 (R431). -/
def imageHead (x : FlashImage) : List Byte := imagePart x 0 512

/-- Check 1 of R432: magic, format, SVN, L and the zero fields. -/
def imageFormOk (x : FlashImage) : Bool :=
  imageField x 0 4 == 0x57465856 && imageField x 4 4 == 1 && decide (imageSvn x ≤ 63) && imageField x 12 4 % 4096 == 0
    && decide (imageField x 12 4 ≤ 64 * 1024 * 1024) && imageField x 500 12 == 0 && imageField x 17120 288 == 0

/-- Check 2 of R432: the hashes of the public keys; the RSA key is modulus and exponent (log 13). -/
def imageKeysOk (x : FlashImage) : Bool :=
  sha384 (imagePart x 64 388) == Config.fusedRsa && sha384 (imagePart x 452 48) == Config.fusedSlh

/-- Check 3 of R432. -/
def imageRsaOk (x : FlashImage) : Bool :=
  rsaVerify (imagePart x 64 384) (imageField x 448 4) (imageHead x) (imagePart x 512 384)

/-- Check 4 of R432. -/
def imageSlhOk (x : FlashImage) : Bool := slhVerify (imagePart x 452 48) (imageHead x) (imagePart x 896 16224)

/-- Check 6 of R432: the hash of the body. -/
def imageBodyOk (x : FlashImage) : Bool := beNat (imagePart x 16 48) == (sha384 (imageBody x)).toNat

/-- The first check of R432 that an image fails; 0 for none. An image whose write has not come to its end fails check 6
(R433). Checks 3 and 4 are both made whatever their outcome; only the first failure is kept. -/
def bootReason (image : Option FlashImage) (torn : Bool) (minSvn : Nat) : Nat :=
  match image with
  | none => 1
  | some x =>
    if !imageFormOk x then 1
    else if !imageKeysOk x then 2
    else if !imageRsaOk x then 3
    else if !imageSlhOk x then 4
    else if imageSvn x < minSvn then 5
    else if torn || !imageBodyOk x then 6
    else 0

/-- Measurements 1 and 2 of R434: the hashes of bytes 0 to 511 and of the body. -/
def BootState.measured (b : BootState) : BitVec 384 × BitVec 384 :=
  let x := b.image.getD ⟨[]⟩
  (sha384 (imageHead x), if b.torn then Config.tornSum else sha384 (imageBody x))

/-- The boot ROM checks the image (R432): it runs, or the device enters recovery. Measurements 1 and 2 are taken, from
which the keys of the certificate slots derive (R434). -/
def State.bootRom (s : State) : State :=
  let b := { s.boot with booted := true, powered := true, sums := s.boot.measured }
  let r := bootReason b.image b.torn b.minSvn
  if r = 0 then { s with boot := { b with recovery := false, runningSvn := (b.image.map imageSvn).getD 0 } }
  else { s with boot := { b with recovery := true, reason := r, runningSvn := 0 }, linkCxl := false, linkCache := false }

/-- BOOT (R432): the check is made once after power comes. -/
def State.bootEvent (s : State) : State := if s.boot.booted then s else s.bootRom

/-- A write of the flash image that has been accepted is complete (R433). -/
def State.finishWrite (s : State) : State :=
  match s.boot.writing with
  | none => s
  | some x => { s with boot := { s.boot with image := some x, writing := none, torn := false } }

/-- First offset of the temperature sensors (R444). -/
def tempBase : Nat := 0x3800000

/-- Temperature sensors (R444). -/
def tempCount : Nat := 272

/-- The index of a temperature sensor by its offset. -/
def tempIndex (off : Nat) : Option Nat :=
  if tempBase ≤ off ∧ off < tempBase + 4 * tempCount ∧ off % 4 = 0 then some ((off - tempBase) / 4) else none

/-- A reading as a signed temperature in 1/16 °C (R444). -/
def tempOf (v : Nat) : Int := (BitVec.ofNat 16 v).toInt

/-- Limit of a sensor for the thermal throttle, in 1/16 °C (R445). -/
def tempLimit (k : Nat) : Int := if k < 192 then 1600 else 1520

/-- Some sensor reaches its limit (R445). -/
def Power.hotNow (p : Power) : Bool := p.sensors.any fun x => (tempIndex x.1).any fun k => decide (tempLimit k ≤ tempOf x.2)

/-- Every sensor lies 3 °C below its limit (R445). -/
def Power.coolNow (p : Power) : Bool := p.sensors.all fun x => (tempIndex x.1).all fun k => decide (tempOf x.2 ≤ tempLimit k - 48)

/-- Clock and power after a reset: the registers at their reset values; the monitors read on, and the thermal throttle holds
while a sensor is at its limit (R445). -/
def Power.afterReset (p : Power) : Power :=
  { State.reset.power with
      sensors := p.sensors, hot := p.hot, throttled := p.hotNow, reasons := if p.hotNow then 4 else 0 }

/-- The device after a reset (R436, R442, R445; what the spec does not give is log 31): the registers at their reset
values, no team; kept are the flash, the fuses, the error history, the monitors and what lies outside the device. `mem` is
what memory holds. -/
def State.resetTo (s : State) (mem : List Host.Cell) (poisoned : List Nat) : State :=
  let s := s.retireAtReset
  { State.reset with
      now := s.now, schedule := s.schedule, free := s.free, nextId := s.nextId, mem := mem, poisoned := poisoned,
      boot := s.boot, errlog := s.errlog, errpi := s.errpi, units := s.units, retSlices := s.retSlices,
      lostWaves := s.lostWaves, power := s.power.afterReset,
      output := s.output }

/-- The cells of host memory, which a reset of the device does not touch. -/
def hostCells (m : List Host.Cell) : List Host.Cell := m.filter fun c => isHost c.1

/-- RESET 0 (R435): memory keeps its contents (log 31). -/
def State.warmReset (s : State) : State := let s := s.finishWrite; s.resetTo s.mem s.poisoned

/-- RESET 1 (R435): with the boot checks. -/
def State.coldReset (s : State) : State := let s := s.finishWrite; (s.resetTo (hostCells s.mem) []).bootRom

/-- POWER_LOSS (R433): everything but flash, fuses and history is lost; a flash write in progress stays unfinished. -/
def State.powerLoss (s : State) : State :=
  let s := s.resetTo (hostCells s.mem) []
  { s with boot := { s.boot with writing := none, booted := false, powered := false, recovery := false, runningSvn := 0 } }

/-- FIRMWARE_UPDATE (R433): an image that passes the checks is written over the flash image; until the write is complete
the image fails step 6. -/
def State.firmware (s : State) (img : FlashImage) : State :=
  if !s.boot.powered ∨ bootReason (some img) false s.boot.minSvn ≠ 0 then s
  else { s with boot := { s.boot with image := some img, writing := some img, torn := true } }

/-- BOOTCTL_COMMIT (R433). -/
def State.commitSvn (s : State) : State :=
  if s.boot.minSvn < s.boot.runningSvn then { s with boot := { s.boot with minSvn := s.boot.runningSvn } } else s

/-! ## Clock, power, temperature (R444, R445) -/

/-- A reason bit of CLKNOW, counted from bit 16: 0 power cap, 1 100 µs limit, 2 thermal, 4 at the floor (R444). -/
def reasonBit (k : Nat) (on : Bool) : Nat := if on then 2 ^ k else 0

/-- The clock and the reasons changed; a change of a reason sends vector 2 (R445). -/
def State.setClock (s : State) (clock reasons : Nat) : State :=
  let t := { s with power := { s.power with clock := clock, reasons := reasons } }
  if reasons = s.power.reasons then t else t.sendVector 2

/-- Lowest and highest clock and the step, in MHz (R445). -/
def clockFloor : Nat := 425
/-- Highest clock, in MHz (R445). -/
def clockTop : Nat := 1700
/-- Step of the clock, in MHz (R445). -/
def clockUnit : Nat := 25

/-- The inlet power over the last 10 ms and over the last 100 µs, as the monitor gives it (R444). -/
def Power.inlet (p : Power) : Nat × Nat :=
  let x := ((p.sensors.find? fun x => x.1 == 0x3803000).map (·.2)).getD 0
  (x % 65536, x / 65536)

/-- The clock that the 10 ms limit of R9 and PCAP demand: `cap`, or a step less than now while the inlet power is above PCAP
(R9, R445, log 21). -/
def Power.capDemand (p : Power) (cap : Nat) : Nat := if p.pcap < p.inlet.1 then min cap (p.clock - clockUnit) else cap

/-- The clock that the 100 µs limit of R9 demands: `fast`, or a step less than now while the inlet power is above 3,520 W
(R9, R445, log 21). -/
def Power.fastDemand (p : Power) (fast : Nat) : Nat := if 3520 < p.inlet.2 then min fast (p.clock - clockUnit) else fast

/-- The clock that the thermal throttle demands: a step less than now while a sensor is at its limit, no rise until every one
is 3 °C below (R445). -/
def Power.heatDemand (p : Power) : Nat := if p.hotNow then p.clock - clockUnit else if p.throttled then p.clock else clockTop

/-- CLOCK_STEP (R445): `cap` is the clock that the 10 ms limit and PCAP demand, `fast` the one that the 100 µs limit
demands, each lowered where the monitors show its limit broken (log 21); the clock goes one step toward the lowest of the
demands. -/
def State.clockStep (s : State) (cap fast : Nat) : State :=
  let p := s.power
  let cap := p.capDemand cap
  let fast := p.fastDemand fast
  let want := min (min (min cap fast) p.heatDemand) clockTop / clockUnit * clockUnit
  let goal := max clockFloor want
  let next := if goal < p.clock then p.clock - clockUnit else if p.clock < goal then p.clock + clockUnit else p.clock
  s.setClock next (reasonBit 0 (cap < clockTop) + reasonBit 1 (fast < clockTop) + reasonBit 2 p.throttled
    + reasonBit 4 (want < clockFloor))

/-- THERMAL_THROTTLE (R445): the clock goes down a step. -/
def State.throttle (s : State) : State :=
  if !s.power.hotNow then s
  else
    let r := s.power.reasons
    let s := { s with power := { s.power with throttled := true } }
    s.setClock (max clockFloor (s.power.clock - clockUnit)) (r % 4 + 4 + r / 8 * 8)

/-- Bits of the register of a monitor that the outside gives its readings; 0 where there is none (R444). -/
def monitorBits (off : Nat) : Nat :=
  if off % 4 ≠ 0 then 0
  else if (0x3800000 ≤ off ∧ off < 0x3800440) ∨ (0x3801000 ≤ off ∧ off < 0x3801060) ∨ (0x3802000 ≤ off ∧ off < 0x3802020) then 16
  else if off = 0x3803000 then 32
  else 0

/-- A reading noted: a die sensor at 110 °C with the time it came there (R445). -/
def Power.note (p : Power) (off value now : Nat) : Power :=
  let hot := (tempIndex off).any fun k => decide (k < 192) && decide (1760 ≤ tempOf value)
  { p with
      sensors := (off, value % 2 ^ monitorBits off) :: p.sensors.filter fun x => x.1 != off,
      hot := if hot then (if p.hot.any fun x => x.1 == off then p.hot else (off, now) :: p.hot)
        else p.hot.filter fun x => x.1 != off }

/-- A monitor's reading changes (the outside's part): the throttle holds from a sensor's limit until every sensor is 3 °C
below its limit (R445). An offset without a monitor reads nothing. -/
def State.setSensor (s : State) (off value : Nat) : State :=
  if monitorBits off = 0 then s
  else
    let p := s.power.note off value s.now
    let on := p.hotNow || (p.throttled && !p.coolNow)
    { s with power := { p with throttled := on } }.setClock p.clock (p.reasons % 4 + reasonBit 2 on + p.reasons / 8 * 8)

/-- THERMAL_TRIP (R445): a die sensor has been at 110 °C for 1 ms; all cores halt, and nothing issues until a reset. -/
def State.thermalTrip (s : State) (sensor : Nat) : State :=
  if s.power.tripped ∨ !(s.power.hot.any fun x => x.1 == tempBase + 4 * sensor && decide (x.2 + 1000000 ≤ s.now)) then s
  else
    State.sendVector { s with power := { s.power with tripped := true },
                              cores := s.cores.map fun c => if c.halted then c else { c with halting := true } } 2

/-- The cap, when it is 1,000 to 3,200 W (R445). -/
def State.setCap (s : State) (w : Nat) : State :=
  if 1000 ≤ w ∧ w ≤ 3200 then { s with power := { s.power with pcap := w } } else s

/-! ## Reading Window 0 (R396) -/

/-- A dword of a bitmap. -/
def bitsAt (bit : Nat → Bool) (first : Nat) : Nat := ((List.range 32).map fun k => if bit (first + k) then 2 ^ k else 0).sum

/-- The low or the high dword of a 64-bit register. -/
def half (x off : Nat) : Nat := if off % 8 = 0 then x % 2 ^ 32 else x / 2 ^ 32 % 2 ^ 32

/-- SLOTSTAT (R399). -/
def State.slotStat (s : State) (p : Nat) : Nat := (s.slot p).err * 16 + if s.busy p then 1 else 0

/-- A register of a process slot (R399, R415). -/
def State.slotRegister (s : State) (p off : Nat) : Nat :=
  let sl := s.slot p
  if off = 0x000 then (if sl.hold then 2 else 0) + (if sl.en then 1 else 0)
  else if off = 0x004 then s.slotStat p
  else if off / 8 = 1 then half sl.lqbase.toNat off
  else if off = 0x010 then sl.lqsize
  else if off / 8 = 3 then half sl.cqbase.toNat off
  else if off = 0x020 then sl.cqsize
  else if off / 8 = 5 then half sl.spbase.toNat off
  else if off = 0x030 then sl.spsize
  else if off = 0x034 then sl.vec.toNat
  else if off / 8 = 0x20 then half sl.ptbase.toNat off
  else if off = 0x108 then sl.asid
  else if off = 0x10C then sl.xctl.toNat
  else if off / 8 = 0x22 then half sl.fbbase.toNat off
  else if off = 0x118 then sl.fbsize
  else if off = 0x11C then sl.fbpi
  else if off = 0x128 then sl.vsquota
  else if off = 0x12C then sl.hypLive
  else if off / 8 = 0x26 then half sl.dldef off
  else if off = 0x140 then sl.podjob.toNat
  else 0

/-- STATE of a port (R427). -/
def PortState.code (p : PortState) : Nat :=
  match p with
  | .off => 0
  | .training => 1
  | .up => 2
  | .degraded => 3
  | .down => 4

/-- GSTAT (R397). -/
def State.gstat (s : State) : Nat := (if s.linkCxl then 1 else 0) + if s.linkCache then 2 else 0

/-- BOOTSTAT (R433). -/
def State.bootStat (s : State) : Nat := s.boot.runningSvn * 65536 + s.boot.minSvn * 256 + s.boot.reason

/-- The dword of Window 0 at an offset (R396); 0 where no block defines one. -/
def State.register (s : State) (off : Nat) : Nat :=
  if off = 0x0 then 0x5D4E0000 + Config.stepping.toNat * 256
  else if off / 8 = 1 then half s.w1base off
  else if off = 0x10 then s.gstat
  else if 0x10000 ≤ off ∧ off < 0x18000 then ((s.msix.find? fun x => x.1 == off).map (·.2)).getD 0
  else if 0x100000 ≤ off ∧ off < 0x140000 then s.slotRegister ((off - 0x100000) / 4096) (off % 4096)
  else if 0x200000 ≤ off ∧ off < 0x200100 then
    bitsAt (fun b => s.coreHalted (b / 256) (b % 256)) (8 * (off - 0x200000))
  else if off / 8 = 0x200000 then half s.tlbiVa.toNat off
  else if off = 0x100000C then (if s.tlbBusy.any (·.host) then 1 else 0)
  else if off = 0x1000010 then s.vscfg + if s.vsRefused then 2 ^ 31 else 0
  else if off = 0x2000000 then s.podcfg.toNat
  else if 0x2000100 ≤ off ∧ off < 0x2000200 then
    let p := s.port ((off - 0x2000100) / 16)
    if off % 16 = 0 then (if p.en then 1 else 0)
    else if off % 16 = 4 then p.waves.toNat * 65536 + p.st.code
    else if off % 16 = 8 then p.replays * 65536 + p.crc else 0
  else if 0x2010000 ≤ off ∧ off < 0x2014000 then (s.reduceEntry ((off - 0x2010000) / 4)).toNat
  else if off = 0x2800000 then s.bootStat
  else if off = 0x2900000 then s.keyHolder * 65536 + s.secondsLeft
  else if off = 0x3000000 then s.errpi
  else if 0x3000100 ≤ off ∧ off < 0x3000200 then bitsAt (fun b => s.coreRetired (b / 256) (b % 256)) (8 * (off - 0x3000100))
  else if 0x3000200 ≤ off ∧ off < 0x3000250 then bitsAt s.retSlices.contains (8 * (off - 0x3000200))
  else if 0x3010000 ≤ off ∧ off < 0x3018000 then
    let k := (off - 0x3010000) / 32
    let n := (s.errpi + 2 ^ 32 - 1 - k) % 2 ^ 32 % 1024
    leNat (((s.errlog.reverse.getD n []).drop (off % 32)).take 4)
  else if off = 0x3803004 then s.power.clock + 65536 * s.power.reasons
  else if off = 0x3803008 then s.power.pcap
  else if monitorBits off ≠ 0 then ((s.power.sensors.find? fun x => x.1 == off).map (·.2)).getD 0 % 2 ^ monitorBits off
  else 0

/-- A register of a page of Window 2 (R404). -/
def State.launchRegister (s : State) (p off : Nat) : Nat :=
  if off = 0x004 then (s.slot p).lqci
  else if off = 0x00C then (s.slot p).cqpi
  else if off = 0x010 then s.slotStat p
  else 0

/-- PLDM_SENSOR_READ (R444): a monitor register as a sensor. -/
def State.sensorRead (s : State) (off : Nat) : State :=
  if !s.boot.powered ∨ (monitorBits off = 0 ∧ off ≠ 0x3803004) then s else { s with output := s.output ++ [.reading (s.register off)] }

/-- STATUS (R435). -/
def State.arpexStatus (s : State) : State :=
  if !s.boot.powered then s else s.arpexAnswer 0 [s.keyHolder, s.secondsLeft, s.bootStat, s.gstat]

/-- The measurements of R434 in index order: the two hashes of the boot, the fused key hashes and MINSVN, and PODCFG,
VSCFG and the reduce-group table as a read gives them now. -/
def State.measurements (s : State) : List Nat :=
  [s.boot.sums.1.toNat, s.boot.sums.2.toNat, Config.fusedRsa.toNat, Config.fusedSlh.toNat, s.boot.minSvn, s.register 0x2000000,
    s.register 0x1000010] ++ (List.range 4096).map fun g => s.register (0x2010000 + 4 * g)

/-- The key of a certificate slot, derived at boot (R434). -/
def State.slotKey (s : State) (slot : Nat) : List Byte := Config.spdmKey slot s.boot.sums.1

/-- A MEASUREMENTS response (R434) to the Arpex port or, over PCIe DOE, to the host: signed by the key of a certificate
slot, which derives from measurement 1 as the last boot took it. -/
def State.measure (s : State) (who : Master) (slot : Nat) : State :=
  if !s.reaches who ∨ 1 < slot then s
  else
    let m := s.measurements
    { s with output := s.output ++ [.signed who slot m (Config.spdmSign slot (s.slotKey slot) m)] }

/-- A request for the certificate of a slot (R434): slot 0 carries an RSASSA-3072 key, slot 1 an SLH-DSA-SHA2-192s key,
which is announced under Vexdel's registry identifier, as no base algorithm names it (DEDUCED, log 28). -/
def State.certificate (s : State) (who : Master) (slot : Nat) : State :=
  if !s.reaches who ∨ 1 < slot then s
  else
    { s with output := s.output ++
        [.certificate who slot (slot == 0) (if slot = 0 then [] else Config.vexdelRegistry) (Config.spdmPublic (s.slotKey slot))] }

/-! ## Writing Window 0 (R396) -/

/-- A "key" register (R427, R430, R433, R442, R445). -/
def isKeyRegister (off : Nat) : Bool :=
  off == 0x2000000 || (decide (0x2000100 ≤ off) && decide (off < 0x2000200) && off % 16 == 0)
    || (decide (0x2010000 ≤ off) && decide (off < 0x2014000) && off % 4 == 0) || off == 0x2800004 || off == 0x3000300
    || off == 0x3803008

/-- A write of PODCFG: ignored while a port is not OFF or once LOCK is set (R427). -/
def State.writePodcfg (s : State) (w : Word) : State :=
  if s.podcfg.getLsbD 31 ∨ s.ports.any (fun p => p.st != .off) then s else { s with podcfg := w &&& 0x800003FF }

/-- A write of an entry of the reduce-group table (R430). -/
def State.writeReduce (s : State) (group : Nat) (w : Word) : State :=
  if w.extractLsb' 20 11 ≠ 0 ∨ w.extractLsb' 0 16 ≠ 0 then s
  else { s with reduce := (group, w) :: s.reduce.filter fun e => e.1 != group }

/-- A write of a "key" register by the master that holds the key. -/
def State.keyWrite (s : State) (off : Nat) (w : Word) : State :=
  if off = 0x2000000 then s.writePodcfg w
  else if off = 0x2800004 then (if w.getLsbD 0 then s.commitSvn else s)
  else if off = 0x3000300 then s.readmit w
  else if off = 0x3803008 then s.setCap w.toNat
  else if off < 0x2010000 then
    let n := (off - 0x2000100) / 16
    if w.getLsbD 0 then s.portEnable n else s.portDisable n
  else s.writeReduce ((off - 0x2010000) / 4) w

/-- A register of a slot without effects of its own (R399, R415). VSQUOTA above 1,638 is treated as 0. -/
def Slot.write (sl : Slot) (off : Nat) (w : DWord) : Slot :=
  let lo : Word := w.extractLsb' 0 32
  if off = 0x008 then { sl with lqbase := w }
  else if off = 0x010 then { sl with lqsize := lo.toNat }
  else if off = 0x018 then { sl with cqbase := w }
  else if off = 0x020 then { sl with cqsize := lo.toNat }
  else if off = 0x028 then { sl with spbase := w }
  else if off = 0x030 then { sl with spsize := lo.toNat }
  else if off = 0x034 then { sl with vec := lo }
  else if off = 0x100 then { sl with ptbase := w }
  else if off = 0x108 then { sl with asid := lo.toNat % 65536 }
  else if off = 0x10C then { sl with xctl := lo }
  else if off = 0x110 then { sl with fbbase := w }
  else if off = 0x118 then { sl with fbsize := lo.toNat }
  else if off = 0x128 then { sl with vsquota := if lo.toNat % 2048 ≤ 1638 then lo.toNat % 2048 else 0 }
  else if off = 0x140 then { sl with podjob := lo }
  else sl

/-- A write of SLOTCTL (R399). -/
def State.writeSlotctl (s : State) (p : Nat) (w : Word) : State :=
  if w.extractLsb' 2 30 ≠ 0 then s
  else (if w.getLsbD 0 then s.slotEnable p else s.slotTeardown p).slotHold p (w.getLsbD 1)

/-- A write of FACK (R415, R419). -/
def State.writeFack (s : State) (p : Nat) (w : Word) : State :=
  let act := (w.extractLsb' 30 2).toNat
  if w.extractLsb' 16 14 ≠ 0 ∨ act = 0 ∨ act = 3 then s else s.answerFault p (w.extractLsb' 0 16).toNat (act == 2)

/-- Registers of a slot that R399 lets be written while EN = 1: LQSIZE, CQSIZE, SPSIZE and VEC; the base addresses are not
among them, nor is any field of R415. -/
def liveWrite (off : Nat) : Bool := off == 0x010 || off == 0x020 || off == 0x030 || off == 0x034

/-- A write of a register of a slot. -/
def State.slotWriteReg (s : State) (p off : Nat) (w : DWord) : State :=
  let lo : Word := w.extractLsb' 0 32
  if off = 0x000 then s.writeSlotctl p lo
  else if off = 0x120 then s.fbciWrite p lo
  else if off = 0x124 then s.writeFack p lo
  else if off = 0x130 then s.mapSlot p fun sl => { sl with dldef := w.toNat }
  else if off = 0x138 then s.dlNow p
  else if (s.slot p).en ∧ !liveWrite off then s
  else s.mapSlot p fun sl => sl.write off w

/-- A write of TLBICTL (R416). -/
def State.writeTlbictl (s : State) (w : Word) : State :=
  let kind := (w.extractLsb' 0 2).toNat
  if kind = 3 ∨ w.extractLsb' 2 14 ≠ 0 then s else s.addInval kind (w.extractLsb' 16 16).toNat s.tlbiVa.toNat true

/-- A write of a register that needs no key, by the host (R396). -/
def State.hostRegister (s : State) (off : Nat) (w : DWord) : State :=
  let lo : Word := w.extractLsb' 0 32
  if off = 0x8 then (if w.extractLsb' 40 24 ≠ 0 ∨ w.extractLsb' 0 30 ≠ 0 then s else { s with w1base := w.toNat })
  else if 0x10000 ≤ off ∧ off < 0x18000 then { s with msix := (off, lo.toNat) :: s.msix.filter fun x => x.1 != off }
  else if 0x100000 ≤ off ∧ off < 0x140000 then s.slotWriteReg ((off - 0x100000) / 4096) (off % 4096) w
  else if off = 0x200100 then s.resumeCore lo
  else if off = 0x1000000 then { s with tlbiVa := w &&& 0xFFFFFFFFFFFF }
  else if off = 0x1000008 then s.writeTlbictl lo
  else if off = 0x1000010 then s.vscfgWrite lo
  else if 0x2000100 ≤ off ∧ off < 0x2000200 ∧ off % 16 = 8 then s.clearPortErr ((off - 0x2000100) / 16)
  else if off = 0x2900000 then (if lo.extractLsb' 2 30 = 0 then s.keyctl lo.toNat else s)
  else s

/-- REGISTER_WRITE (R396): a "key" register needs the key, the others are the host's. -/
def State.registerWrite (s : State) (m : Master) (off : Nat) (w : DWord) : State :=
  if isKeyRegister off then s.withKey m fun s => s.keyWrite off (w.extractLsb' 0 32)
  else match m with
    | .host => s.fromHost fun s => s.hostRegister off w
    | .arpex => s

/-- WRITE (R435): 0 OK, 2 NOKEY, 3 INVALID for a register that is no "key" register. -/
def State.arpexWrite (s : State) (off : Nat) (w : Word) : State :=
  if s.boot.powered ∧ s.keyHolder = 2 ∧ !isKeyRegister off then s.arpexAnswer 3 [] else s.arpexKeyed fun s => s.keyWrite off w

/-- POWER_CAP (R435, R445): 0 OK, 2 NOKEY, 3 INVALID. -/
def State.arpexCap (s : State) (w : Word) : State :=
  if s.boot.powered ∧ s.keyHolder = 2 ∧ (w.toNat < 1000 ∨ 3200 < w.toNat) then s.arpexAnswer 3 []
  else s.arpexKeyed fun s => s.setCap w.toNat

/-- A RESET command of the Arpex port (R435): 0 warm, 1 cold with boot checks, 3 INVALID for another value. -/
def State.arpexReset (s : State) (value : Nat) : State :=
  if value = 0 then s.arpexKeyed State.warmReset
  else if value = 1 then s.arpexKeyed State.coldReset
  else if s.boot.powered ∧ s.keyHolder = 2 then s.arpexAnswer 3 [] else s.arpexKeyed id

/-! ## The operations -/

/-- PORT_ENABLE (R428): PORTCTL EN = 1 starts training of a UALink port. -/
def execPortEnable (m : Master) (n : Nat) (s : State) : Host.Outcome State Fault Refusal :=
  .next (s.withKey m fun s => s.portEnable n)

/-- PORT_DISABLE (R428): PORTCTL EN = 0 stops a port and sets it OFF. -/
def execPortDisable (m : Master) (n : Nat) (s : State) : Host.Outcome State Fault Refusal :=
  .next (s.withKey m fun s => s.portDisable n)

/-- PORT_TRAINED (R428): The data-link layer comes up and the port goes UP, DEGRADED or DOWN by wavelengths up. -/
def execPortTrained (n : Nat) (waves : BitVec 16) (s : State) : Host.Outcome State Fault Refusal :=
  .next (s.portTrained n waves)

/-- PORT_TRAINING_TIMEOUT (R428): A port not trained within 50 ms goes DOWN. -/
def execPortTrainingTimeout (n : Nat) (s : State) : Host.Outcome State Fault Refusal := .next (s.portTimeout n)

/-- WAVELENGTH_LOST (R428): Loss of a wavelength degrades a port or crossbar channel to 7/8 rate, or takes a port DOWN
on a second loss. -/
def execWavelengthLost (u : BitVec 32) (wave : Nat) (s : State) : Host.Outcome State Fault Refusal :=
  .next (s.waveLost u wave)

/-- LINK_RETRY_EXHAUSTED (R428): Exhausted link-layer retry takes a port DOWN. -/
def execLinkRetryExhausted (n : Nat) (s : State) : Host.Outcome State Fault Refusal := .next (s.retryExhausted n)

/-- PORTERR_CLEAR (R427): Any write of PORTERR clears its replay and CRC counters. -/
def execPorterrClear (n : Nat) (s : State) : Host.Outcome State Fault Refusal :=
  .next (s.fromHost fun s => s.clearPortErr n)

/-- BOOT (R432): At reset the boot ROM checks the firmware image and boots it or enters recovery. -/
def execBoot (s : State) : Host.Outcome State Fault Refusal := .next (s.bootEvent)

/-- BOOTCTL_COMMIT (R433): Writing COMMIT raises the fused MINSVN to the running SVN. -/
def execBootctlCommit (m : Master) (s : State) : Host.Outcome State Fault Refusal := .next (s.withKey m State.commitSvn)

/-- FIRMWARE_UPDATE (R433): A PLDM Type 5 image is checked in a buffer and written over the flash image. -/
def execFirmwareUpdate (img : FlashImage) (s : State) : Host.Outcome State Fault Refusal := .next (s.firmware img)

/-- SPDM_MEASUREMENTS (R434): An SPDM MEASUREMENTS request on the Arpex port returns signed measurements, offered in
either certificate slot: a verifier obtains both. A request for one slot, or over PCIe DOE, is `Sched.spdm`. -/
def execSpdmMeasurements (s : State) : Host.Outcome State Fault Refusal := .next ((s.measure .arpex 0).measure .arpex 1)

/-- KEY_TAKE (R435): The Arpex KEY_TAKE command takes the control key if free. -/
def execKeyTake (s : State) : Host.Outcome State Fault Refusal := .next (s.arpexTake)

/-- KEY_RELEASE (R435): The Arpex KEY_RELEASE command frees the control key. -/
def execKeyRelease (s : State) : Host.Outcome State Fault Refusal := .next (s.arpexKeyed State.freeKey)

/-- KEY_RENEW (R435): The Arpex KEY_RENEW command renews the key for 30 s. -/
def execKeyRenew (s : State) : Host.Outcome State Fault Refusal := .next (s.arpexKeyed fun s => s.giveKey .arpex)

/-- STATUS (R435): The Arpex STATUS command returns the key holder, time left, BOOTSTAT and GSTAT. -/
def execStatus (s : State) : Host.Outcome State Fault Refusal := .next (s.arpexStatus)

/-- RESET_WARM (R435): The Arpex RESET command with value 0 performs a warm reset. -/
def execResetWarm (s : State) : Host.Outcome State Fault Refusal := .next (s.arpexReset 0)

/-- RESET_COLD (R435): The Arpex RESET command with value 1 performs a cold reset with boot checks. -/
def execResetCold (s : State) : Host.Outcome State Fault Refusal := .next (s.arpexReset 1)

/-- POWER_CAP (R435): The Arpex POWER_CAP command writes the power cap. -/
def execPowerCap (w : BitVec 32) (s : State) : Host.Outcome State Fault Refusal := .next (s.arpexCap w)

/-- WRITE (R435): The Arpex WRITE command writes a Window 0 key register. -/
def execWrite (off : Nat) (w : BitVec 32) (s : State) : Host.Outcome State Fault Refusal := .next (s.arpexWrite off w)

/-- KEYCTL_TAKE (R436): A KEYCTL write of 1 takes the control key for the host if free. -/
def execKeyctlTake (s : State) : Host.Outcome State Fault Refusal := .next (s.keyctl 1)

/-- KEYCTL_RELEASE (R436): A KEYCTL write of 2 releases the control key. -/
def execKeyctlRelease (s : State) : Host.Outcome State Fault Refusal := .next (s.keyctl 2)

/-- KEYCTL_RENEW (R436): A KEYCTL write of 3 renews the control key for 30 s. -/
def execKeyctlRenew (s : State) : Host.Outcome State Fault Refusal := .next (s.keyctl 3)

/-- KEY_EXPIRY (R436): The control key becomes free when its 30 s run out. -/
def execKeyExpiry (s : State) : Host.Outcome State Fault Refusal := .next (s.keyExpiry)

/-- PLDM_SENSOR_READ (R444): A PLDM Type 2 request returns a monitor reading. -/
def execPldmSensorRead (off : Nat) (s : State) : Host.Outcome State Fault Refusal := .next (s.sensorRead off)

/-- CORRECTED_ERROR (R440): A corrected event is counted and logged, and a third within 24 h marks the unit
lasting-faulted. -/
def execCorrectedError (u : BitVec 32) (pa : Nat) (s : State) : Host.Outcome State Fault Refusal :=
  .next (s.corrected u pa)

/-- UNCORRECTABLE_ERROR (R439): An uncorrectable event kills the affected team, refetches a clean sector or poisons a
dirty one, and is logged. -/
def execUncorrectableError (u : BitVec 32) (loc : ErrorSite) (s : State) : Host.Outcome State Fault Refusal :=
  .next (s.uncorrectable u loc)

/-- READMIT (R442): A unit word written to READMIT clears that unit's counts and mark. -/
def execReadmit (m : Master) (u : BitVec 32) (s : State) : Host.Outcome State Fault Refusal :=
  .next (s.withKey m fun s => s.readmit u)

/-- PCAP_WRITE (R445): A write of PCAP sets the power cap that limits the arithmetic clock. -/
def execPcapWrite (m : Master) (w : BitVec 32) (s : State) : Host.Outcome State Fault Refusal :=
  .next (s.withKey m fun s => s.setCap w.toNat)

/-- CLOCK_STEP (R445): The arithmetic clock steps by 25 MHz to the lowest value the power and thermal limits demand. -/
def execClockStep (cap fast : Nat) (s : State) : Host.Outcome State Fault Refusal := .next (s.clockStep cap fast)

/-- THERMAL_THROTTLE (R445): A sensor crossing its limit throttles the clock, which rises again only 3 °C below it. -/
def execThermalThrottle (s : State) : Host.Outcome State Fault Refusal := .next (s.throttle)

/-- THERMAL_TRIP (R445): A die sensor at 110 °C for 1 ms halts all cores and sends vector 2. -/
def execThermalTrip (sensor : Nat) (s : State) : Host.Outcome State Fault Refusal := .next (s.thermalTrip sensor)

/-- REGISTER_WRITE (R396): A write to a Window 0 register with no behaviour of its own stores its value or is ignored. -/
def execRegisterWrite (m : Master) (off : Nat) (w : BitVec 64) (s : State) : Host.Outcome State Fault Refusal :=
  .next (s.registerWrite m off w)

/-- POWER_LOSS (R433): Loss of power stops the device at once, including a flash image write in progress, which then
leaves an image that fails step 6 at the next boot. -/
def execPowerLoss (s : State) : Host.Outcome State Fault Refusal := .next (s.powerLoss)

end Sys2Proof.Machine
end

