-- ==== Sys2Proof/Machine/Dispatch.lean ====
section
/-! DEFINITION. The meaning of every instruction and operation, one arm each. -/

namespace Sys2Proof.Machine

open Sys2Proof

/-- The meaning of an instruction in a state. -/
def exec (i : Instr) (s : State) : Host.Outcome State Fault Refusal :=
  match i with
  | .teamPlacement cl core => Sys2Proof.Machine.execTeamPlacement cl core s
  | .carveReservation cl => Sys2Proof.Machine.execCarveReservation cl s
  | .steal cl => Sys2Proof.Machine.execSteal cl s
  | .priorityRaise cl rid => Sys2Proof.Machine.execPriorityRaise cl rid s
  | .teamExit uid => Sys2Proof.Machine.execTeamExit uid s
  | .joinRecordPush jid => Sys2Proof.Machine.execJoinRecordPush jid s
  | .groupExchange uid gid => Sys2Proof.Machine.execGroupExchange uid gid s
  | .groupTimesliceExchange uid gid => Sys2Proof.Machine.execGroupTimesliceExchange uid gid s
  | .meetingRelease uid gid => Sys2Proof.Machine.execMeetingRelease uid gid s
  | .producerCompletion fid => Sys2Proof.Machine.execProducerCompletion fid s
  | .instructionLineFill uid gid va => Sys2Proof.Machine.execInstructionLineFill uid gid va s
  | .deadlineExpiry uid => Sys2Proof.Machine.execDeadlineExpiry uid s
  | .deadlineTrap uid gid t => Sys2Proof.Machine.execDeadlineTrap uid gid t s
  | .orphanTrap uid gid t => Sys2Proof.Machine.execOrphanTrap uid gid t s
  | .storeBufferEntryDrain cl core eid => Sys2Proof.Machine.execStoreBufferEntryDrain cl core eid s
  | .homeSliceWrite fid => Sys2Proof.Machine.execHomeSliceWrite fid s
  | .writeAcknowledge fid => Sys2Proof.Machine.execWriteAcknowledge fid s
  | .acqrTargetDrain aid => Sys2Proof.Machine.execAcqrTargetDrain aid s
  | .acqrReport aid => Sys2Proof.Machine.execAcqrReport aid s
  | .directorySnoop pa => Sys2Proof.Machine.execDirectorySnoop pa s
  | .writebackAcknowledge pa => Sys2Proof.Machine.execWritebackAcknowledge pa s
  | .pageWalk slot va acc => Sys2Proof.Machine.execPageWalk slot va acc s
  | .latchRemoteArrival mid => Sys2Proof.Machine.execLatchRemoteArrival mid s
  | .copyCommandStart oid => Sys2Proof.Machine.execCopyCommandStart oid s
  | .copyPart oid part => Sys2Proof.Machine.execCopyPart oid part s
  | .commandRetire oid => Sys2Proof.Machine.execCommandRetire oid s
  | .pfrLineResident oid line => Sys2Proof.Machine.execPfrLineResident oid line s
  | .skeinRequestArrival oid => Sys2Proof.Machine.execSkeinRequestArrival oid s
  | .gatherTimeout launch sk k => Sys2Proof.Machine.execGatherTimeout launch sk k s
  | .skeinFillLand oid => Sys2Proof.Machine.execSkeinFillLand oid s
  | .peerWordArrival uid gid q => Sys2Proof.Machine.execPeerWordArrival uid gid q s
  | .matrixStep oid => Sys2Proof.Machine.execMatrixStep oid s
  | .mloopOperandFetch oid => Sys2Proof.Machine.execMloopOperandFetch oid s
  | .mdrainWrite oid part => Sys2Proof.Machine.execMdrainWrite oid part s
  | .peerDrainMerge oid => Sys2Proof.Machine.execPeerDrainMerge oid s
  | .mfactColumn oid => Sys2Proof.Machine.execMfactColumn oid s
  | .mtrsmRow oid => Sys2Proof.Machine.execMtrsmRow oid s
  | .amsgArrival mid => Sys2Proof.Machine.execAmsgArrival mid s
  | .xferArmedFire oid => Sys2Proof.Machine.execXferArmedFire oid s
  | .xferRemoteRequest req => Sys2Proof.Machine.execXferRemoteRequest req s
  | .xferResponse oid resp => Sys2Proof.Machine.execXferResponse oid resp s
  | .xferTimeout oid => Sys2Proof.Machine.execXferTimeout oid s
  | .apertureDownMessage oid rtype data => Sys2Proof.Machine.execApertureDownMessage oid rtype data s
  | .hypIdFree slot id => Sys2Proof.Machine.execHypIdFree slot id s
  | .slotEnable p => Sys2Proof.Machine.execSlotEnable p s
  | .slotHold p hold => Sys2Proof.Machine.execSlotHold p hold s
  | .slotTeardown p => Sys2Proof.Machine.execSlotTeardown p s
  | .launchDoorbell p idx => Sys2Proof.Machine.execLaunchDoorbell p idx s
  | .launchEntryTake p => Sys2Proof.Machine.execLaunchEntryTake p s
  | .launchCompletion lid => Sys2Proof.Machine.execLaunchCompletion lid s
  | .completionConsumed p idx => Sys2Proof.Machine.execCompletionConsumed p idx s
  | .hostWindow1Write off data => Sys2Proof.Machine.execHostWindow1Write off data s
  | .hostWindow1Read off n => Sys2Proof.Machine.execHostWindow1Read off n s
  | .hostAtomicop off op => Sys2Proof.Machine.execHostAtomicop off op s
  | .hostCxlMemAccess pa n data => Sys2Proof.Machine.execHostCxlMemAccess pa n data s
  | .hostLinkTraining cxl cache => Sys2Proof.Machine.execHostLinkTraining cxl cache s
  | .resume w => Sys2Proof.Machine.execResume w s
  | .fbciWrite p idx => Sys2Proof.Machine.execFbciWrite p idx s
  | .fackRetry p id => Sys2Proof.Machine.execFackRetry p id s
  | .fackFail p id => Sys2Proof.Machine.execFackFail p id s
  | .dlnow p => Sys2Proof.Machine.execDlnow p s
  | .tlbiPage asid => Sys2Proof.Machine.execTlbiPage asid s
  | .tlbiAsid asid => Sys2Proof.Machine.execTlbiAsid asid s
  | .tlbiAll => Sys2Proof.Machine.execTlbiAll s
  | .tlbInvalidationComplete => Sys2Proof.Machine.execTlbInvalidationComplete s
  | .vscfgWrite w => Sys2Proof.Machine.execVscfgWrite w s
  | .portEnable m n => Sys2Proof.Machine.execPortEnable m n s
  | .portDisable m n => Sys2Proof.Machine.execPortDisable m n s
  | .portTrained n waves => Sys2Proof.Machine.execPortTrained n waves s
  | .portTrainingTimeout n => Sys2Proof.Machine.execPortTrainingTimeout n s
  | .wavelengthLost u wave => Sys2Proof.Machine.execWavelengthLost u wave s
  | .linkRetryExhausted n => Sys2Proof.Machine.execLinkRetryExhausted n s
  | .porterrClear n => Sys2Proof.Machine.execPorterrClear n s
  | .boot => Sys2Proof.Machine.execBoot s
  | .bootctlCommit m => Sys2Proof.Machine.execBootctlCommit m s
  | .firmwareUpdate img => Sys2Proof.Machine.execFirmwareUpdate img s
  | .spdmMeasurements => Sys2Proof.Machine.execSpdmMeasurements s
  | .keyTake => Sys2Proof.Machine.execKeyTake s
  | .keyRelease => Sys2Proof.Machine.execKeyRelease s
  | .keyRenew => Sys2Proof.Machine.execKeyRenew s
  | .status => Sys2Proof.Machine.execStatus s
  | .resetWarm => Sys2Proof.Machine.execResetWarm s
  | .resetCold => Sys2Proof.Machine.execResetCold s
  | .powerCap w => Sys2Proof.Machine.execPowerCap w s
  | .write off w => Sys2Proof.Machine.execWrite off w s
  | .keyctlTake => Sys2Proof.Machine.execKeyctlTake s
  | .keyctlRelease => Sys2Proof.Machine.execKeyctlRelease s
  | .keyctlRenew => Sys2Proof.Machine.execKeyctlRenew s
  | .keyExpiry => Sys2Proof.Machine.execKeyExpiry s
  | .pldmSensorRead off => Sys2Proof.Machine.execPldmSensorRead off s
  | .correctedError u pa => Sys2Proof.Machine.execCorrectedError u pa s
  | .uncorrectableError u loc => Sys2Proof.Machine.execUncorrectableError u loc s
  | .readmit m u => Sys2Proof.Machine.execReadmit m u s
  | .pcapWrite m w => Sys2Proof.Machine.execPcapWrite m w s
  | .clockStep cap fast => Sys2Proof.Machine.execClockStep cap fast s
  | .thermalThrottle => Sys2Proof.Machine.execThermalThrottle s
  | .thermalTrip sensor => Sys2Proof.Machine.execThermalTrip sensor s
  | .registerWrite m off w => Sys2Proof.Machine.execRegisterWrite m off w s
  | .nop w => Sys2Proof.Machine.execNop w s
  | .brk w => Sys2Proof.Machine.execBrk w s
  | .yield w => Sys2Proof.Machine.execYield w s
  | .free w => Sys2Proof.Machine.execFree w s
  | .wtime w => Sys2Proof.Machine.execWtime w s
  | .add w => Sys2Proof.Machine.execAdd w s
  | .sub w => Sys2Proof.Machine.execSub w s
  | .mullo w => Sys2Proof.Machine.execMullo w s
  | .mulhiS w => Sys2Proof.Machine.execMulhiS w s
  | .mulhiZ w => Sys2Proof.Machine.execMulhiZ w s
  | .mad w => Sys2Proof.Machine.execMad w s
  | .minS w => Sys2Proof.Machine.execMinS w s
  | .minZ w => Sys2Proof.Machine.execMinZ w s
  | .maxS w => Sys2Proof.Machine.execMaxS w s
  | .maxZ w => Sys2Proof.Machine.execMaxZ w s
  | .and w => Sys2Proof.Machine.execAnd w s
  | .or w => Sys2Proof.Machine.execOr w s
  | .xor w => Sys2Proof.Machine.execXor w s
  | .andn w => Sys2Proof.Machine.execAndn w s
  | .shl w => Sys2Proof.Machine.execShl w s
  | .shr w => Sys2Proof.Machine.execShr w s
  | .sar w => Sys2Proof.Machine.execSar w s
  | .rot w => Sys2Proof.Machine.execRot w s
  | .bfeZ w => Sys2Proof.Machine.execBfeZ w s
  | .bfeS w => Sys2Proof.Machine.execBfeS w s
  | .bfi w => Sys2Proof.Machine.execBfi w s
  | .not w => Sys2Proof.Machine.execNot w s
  | .neg w => Sys2Proof.Machine.execNeg w s
  | .abs w => Sys2Proof.Machine.execAbs w s
  | .popc w => Sys2Proof.Machine.execPopc w s
  | .clz w => Sys2Proof.Machine.execClz w s
  | .ctz w => Sys2Proof.Machine.execCtz w s
  | .brev w => Sys2Proof.Machine.execBrev w s
  | .sext8 w => Sys2Proof.Machine.execSext8 w s
  | .sext16 w => Sys2Proof.Machine.execSext16 w s
  | .zext8 w => Sys2Proof.Machine.execZext8 w s
  | .zext16 w => Sys2Proof.Machine.execZext16 w s
  | .mov w => Sys2Proof.Machine.execMov w s
  | .bswap w => Sys2Proof.Machine.execBswap w s
  | .sel w => Sys2Proof.Machine.execSel w s
  | .cmpEq w => Sys2Proof.Machine.execCmpEq w s
  | .cmpNe w => Sys2Proof.Machine.execCmpNe w s
  | .cmpLtS w => Sys2Proof.Machine.execCmpLtS w s
  | .cmpLeS w => Sys2Proof.Machine.execCmpLeS w s
  | .cmpLtZ w => Sys2Proof.Machine.execCmpLtZ w s
  | .cmpLeZ w => Sys2Proof.Machine.execCmpLeZ w s
  | .lea w => Sys2Proof.Machine.execLea w s
  | .addi w => Sys2Proof.Machine.execAddi w s
  | .movl w => Sys2Proof.Machine.execMovl w s
  | .movpc w => Sys2Proof.Machine.execMovpc w s
  | .mov64 w => Sys2Proof.Machine.execMov64 w s
  | .movg w => Sys2Proof.Machine.execMovg w s
  | .movtg w => Sys2Proof.Machine.execMovtg w s
  | .add64 w => Sys2Proof.Machine.execAdd64 w s
  | .sub64 w => Sys2Proof.Machine.execSub64 w s
  | .lea64 w => Sys2Proof.Machine.execLea64 w s
  | .xidx w => Sys2Proof.Machine.execXidx w s
  | .xup w => Sys2Proof.Machine.execXup w s
  | .xdown w => Sys2Proof.Machine.execXdown w s
  | .xxor w => Sys2Proof.Machine.execXxor w s
  | .any w => Sys2Proof.Machine.execAny w s
  | .all w => Sys2Proof.Machine.execAll w s
  | .ballotLo w => Sys2Proof.Machine.execBallotLo w s
  | .ballotHi w => Sys2Proof.Machine.execBallotHi w s
  | .count w => Sys2Proof.Machine.execCount w s
  | .elect w => Sys2Proof.Machine.execElect w s
  | .xmatch w => Sys2Proof.Machine.execXmatch w s
  | .scanAdd w => Sys2Proof.Machine.execScanAdd w s
  | .sumAdd w => Sys2Proof.Machine.execSumAdd w s
  | .rget w => Sys2Proof.Machine.execRget w s
  | .rput w => Sys2Proof.Machine.execRput w s
  | .br w => Sys2Proof.Machine.execBr w s
  | .bnz w => Sys2Proof.Machine.execBnz w s
  | .bz w => Sys2Proof.Machine.execBz w s
  | .call w => Sys2Proof.Machine.execCall w s
  | .jmpi w => Sys2Proof.Machine.execJmpi w s
  | .meet w => Sys2Proof.Machine.execMeet w s
  | .exit w => Sys2Proof.Machine.execExit w s
  | .trap w => Sys2Proof.Machine.execTrap w s
  | .fadd w => Sys2Proof.Machine.execFadd w s
  | .fsub w => Sys2Proof.Machine.execFsub w s
  | .fmul w => Sys2Proof.Machine.execFmul w s
  | .ffma w => Sys2Proof.Machine.execFfma w s
  | .fmin w => Sys2Proof.Machine.execFmin w s
  | .fmax w => Sys2Proof.Machine.execFmax w s
  | .fcmpEq w => Sys2Proof.Machine.execFcmpEq w s
  | .fcmpLt w => Sys2Proof.Machine.execFcmpLt w s
  | .fcmpLe w => Sys2Proof.Machine.execFcmpLe w s
  | .fcmpUn w => Sys2Proof.Machine.execFcmpUn w s
  | .fabs w => Sys2Proof.Machine.execFabs w s
  | .fneg w => Sys2Proof.Machine.execFneg w s
  | .rcp w => Sys2Proof.Machine.execRcp w s
  | .rsq w => Sys2Proof.Machine.execRsq w s
  | .sqrt w => Sys2Proof.Machine.execSqrt w s
  | .exp2 w => Sys2Proof.Machine.execExp2 w s
  | .log2 w => Sys2Proof.Machine.execLog2 w s
  | .sin w => Sys2Proof.Machine.execSin w s
  | .cos w => Sys2Proof.Machine.execCos w s
  | .trunc w => Sys2Proof.Machine.execTrunc w s
  | .floor w => Sys2Proof.Machine.execFloor w s
  | .ceil w => Sys2Proof.Machine.execCeil w s
  | .rint w => Sys2Proof.Machine.execRint w s
  | .frac w => Sys2Proof.Machine.execFrac w s
  | .class w => Sys2Proof.Machine.execClass w s
  | .fdiv w => Sys2Proof.Machine.execFdiv w s
  | .badd w => Sys2Proof.Machine.execBadd w s
  | .bmul w => Sys2Proof.Machine.execBmul w s
  | .bfma w => Sys2Proof.Machine.execBfma w s
  | .bmin w => Sys2Proof.Machine.execBmin w s
  | .bmax w => Sys2Proof.Machine.execBmax w s
  | .hadd w => Sys2Proof.Machine.execHadd w s
  | .hmul w => Sys2Proof.Machine.execHmul w s
  | .hfma w => Sys2Proof.Machine.execHfma w s
  | .dadd w => Sys2Proof.Machine.execDadd w s
  | .dmul w => Sys2Proof.Machine.execDmul w s
  | .dfma w => Sys2Proof.Machine.execDfma w s
  | .cvtF32F16 w => Sys2Proof.Machine.execCvtF32F16 w s
  | .cvtF32F16Hi w => Sys2Proof.Machine.execCvtF32F16Hi w s
  | .cvtF32Bf16 w => Sys2Proof.Machine.execCvtF32Bf16 w s
  | .cvtF32Bf16Hi w => Sys2Proof.Machine.execCvtF32Bf16Hi w s
  | .cvtF16F32 w => Sys2Proof.Machine.execCvtF16F32 w s
  | .cvtBf16F32 w => Sys2Proof.Machine.execCvtBf16F32 w s
  | .cvtF16x2F32 w => Sys2Proof.Machine.execCvtF16x2F32 w s
  | .cvtBf16x2F32 w => Sys2Proof.Machine.execCvtBf16x2F32 w s
  | .cvtF64F32 w => Sys2Proof.Machine.execCvtF64F32 w s
  | .cvtF32F64 w => Sys2Proof.Machine.execCvtF32F64 w s
  | .cvtF32S32 w => Sys2Proof.Machine.execCvtF32S32 w s
  | .cvtF32Z32 w => Sys2Proof.Machine.execCvtF32Z32 w s
  | .cvtF32S64 w => Sys2Proof.Machine.execCvtF32S64 w s
  | .cvtF32Z64 w => Sys2Proof.Machine.execCvtF32Z64 w s
  | .cvtF64S32 w => Sys2Proof.Machine.execCvtF64S32 w s
  | .cvtF64Z32 w => Sys2Proof.Machine.execCvtF64Z32 w s
  | .cvtF64S64 w => Sys2Proof.Machine.execCvtF64S64 w s
  | .cvtF64Z64 w => Sys2Proof.Machine.execCvtF64Z64 w s
  | .cvtS32F32 w => Sys2Proof.Machine.execCvtS32F32 w s
  | .cvtZ32F32 w => Sys2Proof.Machine.execCvtZ32F32 w s
  | .cvtS32F32Rz w => Sys2Proof.Machine.execCvtS32F32Rz w s
  | .cvtZ32F32Rz w => Sys2Proof.Machine.execCvtZ32F32Rz w s
  | .cvtS64F32 w => Sys2Proof.Machine.execCvtS64F32 w s
  | .cvtZ64F32 w => Sys2Proof.Machine.execCvtZ64F32 w s
  | .cvtS32F64 w => Sys2Proof.Machine.execCvtS32F64 w s
  | .cvtZ32F64 w => Sys2Proof.Machine.execCvtZ32F64 w s
  | .cvtS64F64 w => Sys2Proof.Machine.execCvtS64F64 w s
  | .cvtZ64F64 w => Sys2Proof.Machine.execCvtZ64F64 w s
  | .cvtS32F64Rz w => Sys2Proof.Machine.execCvtS32F64Rz w s
  | .cvtS64F64Rz w => Sys2Proof.Machine.execCvtS64F64Rz w s
  | .cvtF16F64 w => Sys2Proof.Machine.execCvtF16F64 w s
  | .cvtBf16F64 w => Sys2Proof.Machine.execCvtBf16F64 w s
  | .cvtF64F16 w => Sys2Proof.Machine.execCvtF64F16 w s
  | .cvtF64Bf16 w => Sys2Proof.Machine.execCvtF64Bf16 w s
  | .cvtBf16F16 w => Sys2Proof.Machine.execCvtBf16F16 w s
  | .cvtF16Bf16 w => Sys2Proof.Machine.execCvtF16Bf16 w s
  | .cvtS8F32 w => Sys2Proof.Machine.execCvtS8F32 w s
  | .cvtZ8F32 w => Sys2Proof.Machine.execCvtZ8F32 w s
  | .cvtS16F32 w => Sys2Proof.Machine.execCvtS16F32 w s
  | .cvtZ16F32 w => Sys2Proof.Machine.execCvtZ16F32 w s
  | .ncvtP w => Sys2Proof.Machine.execNcvtP w s
  | .ncvtU w => Sys2Proof.Machine.execNcvtU w s
  | .fscale w => Sys2Proof.Machine.execFscale w s
  | .lclr w => Sys2Proof.Machine.execLclr w s
  | .laddF32 w => Sys2Proof.Machine.execLaddF32 w s
  | .laddBf16Lo w => Sys2Proof.Machine.execLaddBf16Lo w s
  | .laddBf16Hi w => Sys2Proof.Machine.execLaddBf16Hi w s
  | .laddF16Lo w => Sys2Proof.Machine.execLaddF16Lo w s
  | .laddF16Hi w => Sys2Proof.Machine.execLaddF16Hi w s
  | .laddS32 w => Sys2Proof.Machine.execLaddS32 w s
  | .laddZ32 w => Sys2Proof.Machine.execLaddZ32 w s
  | .lfma w => Sys2Proof.Machine.execLfma w s
  | .lfmab w => Sys2Proof.Machine.execLfmab w s
  | .lmerge w => Sys2Proof.Machine.execLmerge w s
  | .lnorm w => Sys2Proof.Machine.execLnorm w s
  | .lrndF32 w => Sys2Proof.Machine.execLrndF32 w s
  | .lrndBf16 w => Sys2Proof.Machine.execLrndBf16 w s
  | .lrndF16 w => Sys2Proof.Machine.execLrndF16 w s
  | .lrndF64 w => Sys2Proof.Machine.execLrndF64 w s
  | .lrndS32 w => Sys2Proof.Machine.execLrndS32 w s
  | .lsh w => Sys2Proof.Machine.execLsh w s
  | .lst w => Sys2Proof.Machine.execLst w s
  | .lld w => Sys2Proof.Machine.execLld w s
  | .lred w => Sys2Proof.Machine.execLred w s
  | .lgred w => Sys2Proof.Machine.execLgred w s
  | .lseg w => Sys2Proof.Machine.execLseg w s
  | .ldg w => Sys2Proof.Machine.execLdg w s
  | .stg w => Sys2Proof.Machine.execStg w s
  | .lds w => Sys2Proof.Machine.execLds w s
  | .sts w => Sys2Proof.Machine.execSts w s
  | .atgAdd w => Sys2Proof.Machine.execAtgAdd w s
  | .atgSub w => Sys2Proof.Machine.execAtgSub w s
  | .atgMinS w => Sys2Proof.Machine.execAtgMinS w s
  | .atgMinZ w => Sys2Proof.Machine.execAtgMinZ w s
  | .atgMaxS w => Sys2Proof.Machine.execAtgMaxS w s
  | .atgMaxZ w => Sys2Proof.Machine.execAtgMaxZ w s
  | .atgAnd w => Sys2Proof.Machine.execAtgAnd w s
  | .atgOr w => Sys2Proof.Machine.execAtgOr w s
  | .atgXor w => Sys2Proof.Machine.execAtgXor w s
  | .atgSwap w => Sys2Proof.Machine.execAtgSwap w s
  | .atgCas w => Sys2Proof.Machine.execAtgCas w s
  | .atgIncWrap w => Sys2Proof.Machine.execAtgIncWrap w s
  | .atgDecWrap w => Sys2Proof.Machine.execAtgDecWrap w s
  | .atgArAdd w => Sys2Proof.Machine.execAtgArAdd w s
  | .atgArSub w => Sys2Proof.Machine.execAtgArSub w s
  | .atgArMinS w => Sys2Proof.Machine.execAtgArMinS w s
  | .atgArMinZ w => Sys2Proof.Machine.execAtgArMinZ w s
  | .atgArMaxS w => Sys2Proof.Machine.execAtgArMaxS w s
  | .atgArMaxZ w => Sys2Proof.Machine.execAtgArMaxZ w s
  | .atgArAnd w => Sys2Proof.Machine.execAtgArAnd w s
  | .atgArOr w => Sys2Proof.Machine.execAtgArOr w s
  | .atgArXor w => Sys2Proof.Machine.execAtgArXor w s
  | .atgArSwap w => Sys2Proof.Machine.execAtgArSwap w s
  | .atgArCas w => Sys2Proof.Machine.execAtgArCas w s
  | .atgArIncWrap w => Sys2Proof.Machine.execAtgArIncWrap w s
  | .atgArDecWrap w => Sys2Proof.Machine.execAtgArDecWrap w s
  | .atgSysAdd w => Sys2Proof.Machine.execAtgSysAdd w s
  | .atgSysSub w => Sys2Proof.Machine.execAtgSysSub w s
  | .atgSysMinS w => Sys2Proof.Machine.execAtgSysMinS w s
  | .atgSysMinZ w => Sys2Proof.Machine.execAtgSysMinZ w s
  | .atgSysMaxS w => Sys2Proof.Machine.execAtgSysMaxS w s
  | .atgSysMaxZ w => Sys2Proof.Machine.execAtgSysMaxZ w s
  | .atgSysAnd w => Sys2Proof.Machine.execAtgSysAnd w s
  | .atgSysOr w => Sys2Proof.Machine.execAtgSysOr w s
  | .atgSysXor w => Sys2Proof.Machine.execAtgSysXor w s
  | .atgSysSwap w => Sys2Proof.Machine.execAtgSysSwap w s
  | .atgSysCas w => Sys2Proof.Machine.execAtgSysCas w s
  | .atgSysIncWrap w => Sys2Proof.Machine.execAtgSysIncWrap w s
  | .atgSysDecWrap w => Sys2Proof.Machine.execAtgSysDecWrap w s
  | .atsAdd w => Sys2Proof.Machine.execAtsAdd w s
  | .atsSub w => Sys2Proof.Machine.execAtsSub w s
  | .atsMinS w => Sys2Proof.Machine.execAtsMinS w s
  | .atsMinZ w => Sys2Proof.Machine.execAtsMinZ w s
  | .atsMaxS w => Sys2Proof.Machine.execAtsMaxS w s
  | .atsMaxZ w => Sys2Proof.Machine.execAtsMaxZ w s
  | .atsAnd w => Sys2Proof.Machine.execAtsAnd w s
  | .atsOr w => Sys2Proof.Machine.execAtsOr w s
  | .atsXor w => Sys2Proof.Machine.execAtsXor w s
  | .atsSwap w => Sys2Proof.Machine.execAtsSwap w s
  | .atsCas w => Sys2Proof.Machine.execAtsCas w s
  | .atsIncWrap w => Sys2Proof.Machine.execAtsIncWrap w s
  | .atsDecWrap w => Sys2Proof.Machine.execAtsDecWrap w s
  | .acas16 w => Sys2Proof.Machine.execAcas16 w s
  | .fenceAcq w => Sys2Proof.Machine.execFenceAcq w s
  | .fenceRel w => Sys2Proof.Machine.execFenceRel w s
  | .fenceFull w => Sys2Proof.Machine.execFenceFull w s
  | .cacheL1inv w => Sys2Proof.Machine.execCacheL1inv w s
  | .cacheDrain w => Sys2Proof.Machine.execCacheDrain w s
  | .cachePfl w => Sys2Proof.Machine.execCachePfl w s
  | .pfr w => Sys2Proof.Machine.execPfr w s
  | .acqr w => Sys2Proof.Machine.execAcqr w s
  | .cp w => Sys2Proof.Machine.execCp w s
  | .cpt w => Sys2Proof.Machine.execCpt w s
  | .cpo w => Sys2Proof.Machine.execCpo w s
  | .sld w => Sys2Proof.Machine.execSld w s
  | .sknDecl w => Sys2Proof.Machine.execSknDecl w s
  | .sknJoin w => Sys2Proof.Machine.execSknJoin w s
  | .sknLeave w => Sys2Proof.Machine.execSknLeave w s
  | .sknStat w => Sys2Proof.Machine.execSknStat w s
  | .latchInit w => Sys2Proof.Machine.execLatchInit w s
  | .latchExpect w => Sys2Proof.Machine.execLatchExpect w s
  | .latchArrive w => Sys2Proof.Machine.execLatchArrive w s
  | .latchArriveRemote w => Sys2Proof.Machine.execLatchArriveRemote w s
  | .latchWait w => Sys2Proof.Machine.execLatchWait w s
  | .latchTest w => Sys2Proof.Machine.execLatchTest w s
  | .latchInval w => Sys2Proof.Machine.execLatchInval w s
  | .waitc w => Sys2Proof.Machine.execWaitc w s
  | .qopBind w => Sys2Proof.Machine.execQopBind w s
  | .qopUnbind w => Sys2Proof.Machine.execQopUnbind w s
  | .qopStat w => Sys2Proof.Machine.execQopStat w s
  | .qpush w => Sys2Proof.Machine.execQpush w s
  | .qpop w => Sys2Proof.Machine.execQpop w s
  | .amsg w => Sys2Proof.Machine.execAmsg w s
  | .spawn w => Sys2Proof.Machine.execSpawn w s
  | .spawnGang w => Sys2Proof.Machine.execSpawnGang w s
  | .spawnJoin w => Sys2Proof.Machine.execSpawnJoin w s
  | .xferPut w => Sys2Proof.Machine.execXferPut w s
  | .xferPutred w => Sys2Proof.Machine.execXferPutred w s
  | .xferGet w => Sys2Proof.Machine.execXferGet w s
  | .xferArm w => Sys2Proof.Machine.execXferArm w s
  | .xferDisarm w => Sys2Proof.Machine.execXferDisarm w s
  | .hypNew w => Sys2Proof.Machine.execHypNew w s
  | .hypEnter w => Sys2Proof.Machine.execHypEnter w s
  | .hypLeave w => Sys2Proof.Machine.execHypLeave w s
  | .hypConfirm w => Sys2Proof.Machine.execHypConfirm w s
  | .hypRefute w => Sys2Proof.Machine.execHypRefute w s
  | .hypStat w => Sys2Proof.Machine.execHypStat w s
  | .mma w => Sys2Proof.Machine.execMma w s
  | .mloop w => Sys2Proof.Machine.execMloop w s
  | .mscale w => Sys2Proof.Machine.execMscale w s
  | .mdrainR w => Sys2Proof.Machine.execMdrainR w s
  | .mdrainSp w => Sys2Proof.Machine.execMdrainSp w s
  | .mdrainGl w => Sys2Proof.Machine.execMdrainGl w s
  | .mdrainPeer w => Sys2Proof.Machine.execMdrainPeer w s
  | .mdrainQ w => Sys2Proof.Machine.execMdrainQ w s
  | .mfactChol w => Sys2Proof.Machine.execMfactChol w s
  | .mzero w => Sys2Proof.Machine.execMzero w s
  | .mcfg w => Sys2Proof.Machine.execMcfg w s
  | .mtrsm w => Sys2Proof.Machine.execMtrsm w s
  | .mstat w => Sys2Proof.Machine.execMstat w s
  | .csrRd w => Sys2Proof.Machine.execCsrRd w s
  | .csrWr w => Sys2Proof.Machine.execCsrWr w s
  | .sysEret w => Sys2Proof.Machine.execSysEret w s
  | .sysCtxsv w => Sys2Proof.Machine.execSysCtxsv w s
  | .sysCtxld w => Sys2Proof.Machine.execSysCtxld w s
  | .sysTlbinv w => Sys2Proof.Machine.execSysTlbinv w s
  | .sysL2flush w => Sys2Proof.Machine.execSysL2flush w s
  | .sysHalt w => Sys2Proof.Machine.execSysHalt w s
  | .hostHomeAgentSnoop pa => Sys2Proof.Machine.execHostHomeAgentSnoop pa s
  | .powerLoss => Sys2Proof.Machine.execPowerLoss s

end Sys2Proof.Machine
end

