-- ==== Sys2Proof/Machine/Clockwork.lean ====
section
/-! DEFINITION. What the model does around the operations (logs 1 and 2): the passage of time, what is settled after every
step, and the work that is at hand when the schedule names none. -/

namespace Sys2Proof.Machine

open Sys2Proof

/-! ## Time (R4, R70) -/

/-- Bound on the stay of an entry in a store buffer, in ns (R70). -/
def drainBound : Nat := 2000

/-- The entries whose bound would pass within `n` ns are drained, oldest first (R70). -/
def State.drainDue (s : State) (n : Nat) : State :=
  s.cores.foldl (fun s c => s.drainWhere c.cl c.num fun e => decide (e.issued + drainBound < s.now + n)) s

/-- A group that waits begins its hold of the lane anew (R33). -/
def Group.holdAnew (g : Group) (now : Nat) : Group := if g.active ∧ g.isWaiting then { g with since := now } else g

/-- The gathers whose deadline has come fire (R137). -/
def State.fireDue (s : State) : State :=
  (s.gathers.filter fun g => !g.closed && decide (g.deadline ≤ s.now)).foldl (fun s g => s.gatherTimeout g.launch g.sk g.k) s

/-- `n` ns pass: a flash write is completed, due buffer entries drain, gathers fire at their deadlines, transfers without an
answer end, clusters note what waits for a carve (R4, R25, R33, R70, R137, R196, R433). -/
def State.tick (s : State) (n : Nat) : State :=
  let s := s.finishWrite.drainDue n
  let s := { s with now := s.now + n }.fireDue.timeoutsDue
  { s with
      clusters := s.clusters.map s.noteWaiter,
      teams := s.teams.map fun t => { t with groups := t.groups.map fun g => g.holdAnew s.now } }

/-- The host writes its own memory; a home slice no longer holds what it wrote (R89, R98). -/
def State.hostStore (s : State) (hpa : Nat) (data : List Byte) : State :=
  let pa := 2 ^ 51 + hpa
  { s with mem := Memory.writeN s.mem pa data, owned := s.owned.filter fun sec => !(sectorsOf pa data.length).contains sec }

/-- The groups of a lane whose active group has gone with its team, or has exited, are without one: the oldest of those
that are ready, else the oldest of those that still live, becomes active (R32, R37). -/
def State.nextActive (s : State) (t : Team) (gid : Nat) (g : Group) : Bool :=
  let lane := s.laneGroups t.cl (t.coreOf gid) g.lane
  let alive := lane.filter fun x => !x.2.2.live.isEmpty
  let ready := alive.filter fun x => x.2.2.ready
  !(alive.any fun x => x.2.2.active)
    && (leastBy (fun x => x.2.2.age) (if ready.isEmpty then alive else ready)).any fun x => x.1 == t.uid && x.2.1 == gid

/-- Another group of the lane still lives. -/
def State.laneShared (s : State) (t : Team) (gid : Nat) (g : Group) : Bool :=
  (s.laneGroups t.cl (t.coreOf gid) g.lane).any fun x => !x.2.2.live.isEmpty && !(x.1 == t.uid && x.2.1 == gid)

/-- A group whose lane is looked at: an exited one gives way, the next one becomes active. -/
def State.fillLane (s : State) (t : Team) (k : Nat) (g : Group) : Group :=
  if g.live.isEmpty then { g with active := g.active && !s.laneShared t k g }
  else if g.active then g
  else if s.nextActive t k g then { g with active := true, since := s.now }
  else g

/-- Every lane with a live group has an active one; an exited group gives its lane to another (R32). -/
def State.fillLanes (s : State) : State :=
  { s with teams := s.teams.map fun t => { t with groups := t.groups.mapIdx (s.fillLane t) } }

/-- A launch that is over and has no time of completion yet gets this one (R406). -/
def Launch.finish (l : Launch) (now stamp : Nat) : Launch :=
  if l.over ∧ l.done.isNone then { l with done := some (now, stamp) } else l

/-- Launches whose last team has gone complete now (R406). -/
def State.finishLaunches (s : State) : State :=
  if s.launches.any fun l => l.over && l.done.isNone then
    { s with launches := s.launches.map fun l => l.finish s.now s.nextId, nextId := s.nextId + 1 }
  else s

/-- What is settled after every step: launches that complete (R406), transfers of a port that has gone (R429), commands of
restored teams that find room (R132, R144), armed transfers (R198), acknowledgements to peers (R194), lanes (R32), halted cores (R348), retired units (R442). No word is in
hand between two steps. -/
def State.settle (s : State) : State :=
  { s.finishLaunches.movePorts.bringBack.settleArms.sendAcks.fillLanes.settleHalts.settleRetired with cur := none }

/-! ## Work at hand -/

/-- Threads of a group that satisfy a test. -/
def Group.threadsThat (g : Group) (p : Nat → Bool) : List Nat := (List.range g.threads.length).filter p

/-- The line that a group's next subset needs and does not have. -/
def State.wantedLine (s : State) (t : Team) (gid : Nat) (g : Group) : Option DWord :=
  match g.issueSubset with
  | none => none
  | some (pc, _) => if !s.mayIssue t gid g ∨ (s.codeLine t gid g pc.toNat).isSome then none else some pc

/-- The work of a group: traps that have fallen due, meetings, exchanges, its next line (R32 to R35, R44, R160, R376). -/
def State.groupWork (s : State) (t : Team) (gid : Nat) (g : Group) : List Instr :=
  ((g.threadsThat g.orphanDue).map fun k => .orphanTrap t.uid gid k) ++
    ((g.threadsThat g.deadlineDue).map fun k => .deadlineTrap t.uid gid k) ++
    (if g.meetingDue.isSome then [.meetingRelease t.uid gid] else []) ++
    [.groupExchange t.uid gid, .groupTimesliceExchange t.uid gid] ++
    (match s.wantedLine t gid g with
      | some pc => if g.active then [.instructionLineFill t.uid gid pc] else []
      | none => []) ++
    (((s.core t.cl (t.coreOf gid)).ahead.filter fun x => x.slot == t.slot && x.part == partOf g.lane).map fun x =>
      .instructionLineFill t.uid gid (BitVec.ofNat 64 (256 * x.va))) ++
    (((List.range 8).filter fun q => (g.queue q).kind == 5 && !(g.queue q).words.isEmpty).map fun q => .peerWordArrival t.uid gid q)

/-- The work of a team. -/
def State.teamWork (s : State) (t : Team) : List Instr :=
  (if t.dlin ≠ 0 ∧ t.dlin ≤ s.now then [.deadlineExpiry t.uid] else []) ++
    ((List.range t.groups.length).flatMap fun k => match t.groups[k]? with
      | some g => s.groupWork t k g
      | none => []) ++
    (if t.over then [.teamExit t.uid] else [])

/-- The work of an engine command. -/
def EngOp.work (o : EngOp) : List Instr :=
  if o.saved then []
  else if o.stage = .finished then [.commandRetire o.id]
  else match o.body with
    | .copy _ _ _ left => [.copyCommandStart o.id, .copyPart o.id (left.headD 0)]
    | .tile _ left => [.copyCommandStart o.id, .copyPart o.id (left.headD 0)]
    | .skein r => if r.fill.isSome then [.skeinFillLand o.id] else [.skeinRequestArrival o.id]
    | .prefetch _ _ left => [.pfrLineResident o.id (left.headD 0)]
    | .mma _ _ _ _ => [.matrixStep o.id]
    | .mloop _ => [.mloopOperandFetch o.id, .matrixStep o.id]
    | .mscale _ _ _ _ => [.matrixStep o.id]
    | .mzero _ => [.matrixStep o.id]
    | .mdrain _ _ _ left => [.mdrainWrite o.id (left.headD 0), .peerDrainMerge o.id]
    | .mfact _ _ _ => [.mfactColumn o.id]
    | .mtrsm _ _ _ _ _ _ _ => [.mtrsmRow o.id]
    | .xfer _ => [.xferArmedFire o.id, .xferTimeout o.id]

/-- The work of an access on its way. -/
def Flight.work (f : Flight) : List Sched :=
  (if f.remoteSp then [.arrive f.id] else []) ++
    (if f.completable then [.op (.producerCompletion f.id)] else []) ++
    (if !f.done ∧ !f.isLoad then [.op (.homeSliceWrite f.id)] else []) ++
    (if f.done ∧ !f.acked then [.op (.writeAcknowledge f.id)] else [])

/-- The placement that a cluster's queues allow (R19 to R25). -/
def State.placementWork (s : State) (c : Cluster) : List Instr :=
  match if c.queue.isEmpty then none else s.served c.num with
  | some q => match s.firstCore c.num q.launch q.record q.hdr q.pin with
    | some core => [.teamPlacement c.num core]
    | none => []
  | none => []

/-- The other work of a cluster's queues: raises, a reservation (R21, R25). -/
def State.clusterWork (s : State) (c : Cluster) : List Instr :=
  ((c.queue.filter fun q => !q.raised && decide (q.pushed + Config.raiseAfter < s.now)).map fun q => .priorityRaise c.num q.id) ++
    [.carveReservation c.num]

/-- The hypothesis IDs of a slot that may return to free (R146). -/
def Slot.hypWork (sl : Slot) : List Instr :=
  (sl.hyps.filter fun h => h.st != .live && h.st != .free).map fun h => .hypIdFree sl.num h.id

/-- The work of commands, gathers and messages. -/
def State.engineWork (s : State) : List Instr :=
  s.ops.flatMap EngOp.work ++ (s.gathers.filter fun g => !g.closed).map (fun g => Instr.gatherTimeout g.launch g.sk g.k) ++
    s.latchMsgs.map (fun m => Instr.latchRemoteArrival m.id) ++
    s.acqrs.flatMap (fun a => [Instr.acqrTargetDrain a.id, Instr.acqrReport a.id]) ++
    s.joins.map (fun j => Instr.joinRecordPush j.id) ++ s.messages.map (fun m => Instr.amsgArrival m.id)

/-- The work of clusters, launches and management. -/
def State.deviceWork (s : State) : List Instr :=
  s.clusters.flatMap s.placementWork ++ s.clusters.flatMap s.clusterWork ++ s.clusters.map (fun c => Instr.steal c.num) ++
    (s.slots.filter fun sl => s.heldEntries.any (fun e => e.slot == sl.num) || (sl.en && sl.lqci != sl.lqpi)).map
      (fun sl => Instr.launchEntryTake sl.num) ++
    s.launches.map (fun l => Instr.launchCompletion l.id) ++ s.slots.flatMap Slot.hypWork ++
    (if s.tlbBusy.isEmpty then [] else [Instr.tlbInvalidationComplete]) ++
    (if s.key.holder = 0 then [] else [Instr.keyExpiry]) ++
    (s.ports.filter fun p => p.st == .training).map (fun p => Instr.portTrainingTimeout p.num) ++
    (if s.power.hotNow ∧ clockFloor < s.power.clock then [.thermalThrottle] else []) ++
    (s.power.hot.filter fun x => decide (x.2 + 1000000 ≤ s.now)).map (fun x => Instr.thermalTrip ((x.1 - tempBase) / 4))

/-- The work at hand, in a fixed order (log 1): what has fallen due in teams, then accesses, engine commands, messages,
launches, management. -/
def State.work (s : State) : List Sched :=
  (s.teams.flatMap s.teamWork).map Sched.op ++ s.flights.flatMap Flight.work ++ s.engineWork.map Sched.op ++
    s.deviceWork.map Sched.op

/-! ## The group that issues next -/

/-- The turn of a lane: the partition served least recently comes first, and in it the lanes after the one it served last,
round-robin (R31). -/
def Core.turnOf (c : Core) (lane : Nat) : Nat :=
  match c.turns.find? fun x => x.part == partOf lane with
  | some x => 8 * x.turn + (lane + 7 - x.lane % 8) % 8
  | none => lane % 8

/-- The group that issues next of those that may issue: the partitions take turns, and each serves its lanes round-robin
(R31, R37). -/
def State.nextGroup (s : State) : Option (Nat × Nat) :=
  let all := s.teams.flatMap fun t => (List.range t.groups.length).filterMap fun k =>
    match t.groups[k]? with
    | some g => if s.mayIssue t k g then some ((s.core t.cl (t.coreOf k)).turnOf g.lane, t.uid, k) else none
    | none => none
  (leastBy (fun x => x.1) all).map fun x => x.2

end Sys2Proof.Machine
end

