-- ==== Sys2Proof/Machine/Run.lean ====
section
/-! DEFINITION. The issue of a chained set (R31, R40, R203 to R207, R235) and the running of the schedule (log 1). What a
word means is given by a lookup, so that the step may look it up by the decoder. -/

namespace Sys2Proof.Machine

open Sys2Proof

/-- What a word is: its row and fields, whether they are legal, its meaning. -/
structure Entry where
  view : View
  legal : Bool
  run : State → Host.Outcome State Fault Refusal

/-- The meaning of words; none for an unassigned major or minor (R218, R227, R229). -/
abbrev Lookup := Word → Option Entry

/-! ## Packets (R202, R203, R206) -/

/-- A word of a chained set with its PC. -/
structure Slotted where
  pc : DWord
  word : Word
  deriving DecidableEq, Repr

/-- The chained set at a slot of a packet: words up to the first with C = 0, at most to W2 (R206). DESIGN CHOICE: a thread
that enters at a word joined to its predecessor begins its set there (log 16). -/
def chainFrom (pc : DWord) (words : List Word) : Nat → Nat → List Slotted
  | 0, _ => []
  | fuel + 1, k =>
    let w := words.getD k 0
    { pc := packetOf pc + BitVec.ofNat 64 (4 * k), word := w } ::
      if w.getLsbD 31 ∧ k < 2 then chainFrom pc words fuel (k + 1) else []

/-- The row of a word for the checks of R207; a word of no row has its major and its U bit only, and depends on nothing
(R218). -/
def Lookup.viewOf (look : Lookup) (w : Word) : View :=
  match look w with
  | some e => e.view
  | none => .rm (w.extractLsb' 23 7).toNat 63 .any {}
    { c := w.getLsbD 31, u := w.getLsbD 30, d := 0, a := 0, ka := false, ea := false, l := false }

/-- The first word of a set that breaks a condition of R207. -/
def Lookup.broken (look : Lookup) (width : Nat) (hinged : Bool) : List View → List Slotted → Option Word
  | _, [] => none
  | before, x :: rest =>
    let v := look.viewOf x.word
    if View.breaksSet width hinged before v rest.isEmpty (x.word.getLsbD 31) then some x.word else look.broken width hinged (before ++ [v]) rest

/-! ## One chained set (R40, R41) -/

/-- A register that a `qpop` of this number waits to fill: EMPTY, with an outstanding producer; a number 0 changes
nothing. -/
def Reg.popped (n : Nat) (r : Reg) : Reg := if n = 0 then r else { r with st := .empty, prod := max r.prod n }

/-- A thread as its registers read: the destination of a `qpop` it waits in is EMPTY (R39, R325). -/
def Thread.shown (th : Thread) : Thread :=
  match th.popping with
  | some (false, d, n) => th.setV d (Reg.popped n)
  | _ => th

/-- A group as its registers read, with the g registers that its threads wait for. -/
def Group.shown (g : Group) : Group :=
  g.threads.foldl (fun g th =>
    match th.popping with
    | some (true, d, n) => g.setG d (Reg.popped n)
    | _ => g) { g with threads := g.threads.map Thread.shown }

/-- The issue of one word for some threads; `start` is the first number that its set may use. -/
def State.inHand (s : State) (uid gid : Nat) (ts : List Nat) (setPc : DWord) (lit : Word) (g : Group) (start : Nat)
    (x : Slotted) : State :=
  { s with cur := some { uid := uid, gid := gid, active := ts, pc := x.pc, setPc := setPc, lit := lit, word := x.word, snap := g.shown,
                         start := start, traps := [], waiting := false } }

/-- One word in hand run: an illegal word traps every thread (R218). -/
def Lookup.runOne (look : Lookup) (s : State) : Host.Outcome State Fault Refusal :=
  match s.cur with
  | none => .fault .noIssue
  | some c =>
    match look c.word with
    | some e => if e.legal then e.run s else .next (s.deliver c (c.allTraps cIllegal c.word))
    | none => .next (s.deliver c (c.allTraps cIllegal c.word))

/-- How the words of a set end: all done, a word that waits, or precise traps with the words after the one that trapped.
-/
inductive SetEnd where
  | done (s : State)
  | waits (x : Slotted)
  | traps (l : List TrapRec) (later : List Slotted)
  | stops (o : Host.Outcome State Fault Refusal)

/-- The traps of a word that are precise at the set, not reported by it (R41, R42). -/
def preciseOf (l : List TrapRec) : List TrapRec := l.filter fun x => !reported x.cause

/-- The words of a set run in slot order for some threads; `s0` is the group before the set. Threads that a report point
traps leave the later words (R41). -/
def Lookup.runWords (look : Lookup) (uid gid : Nat) (setPc : DWord) (lit : Word) (g : Group) (start : Nat) :
    List Slotted → List Nat → State → SetEnd
  | [], _, s => .done s
  | x :: rest, ts, s =>
    if ts = [] ∨ (s.group? uid gid).isNone then .done s
    else match look.runOne (s.inHand uid gid ts setPc lit g start x) with
      | .next r =>
        match r.cur with
        | none => .done r
        | some c =>
          if preciseOf c.traps ≠ [] then .traps (preciseOf c.traps) rest
          else if c.waiting then .waits x
          else look.runWords uid gid setPc lit g start rest (ts.filter fun t => !(c.traps.any fun y => y.thread == t)) r
      | o => .stops o

/-- Traps taken after the rest of the set has issued (R41); what a word of the set has begun ends with them (R296). -/
def State.takeAll (s : State) (uid gid : Nat) (setPc : DWord) (l : List TrapRec) : State :=
  let s := { (s.servedFails uid gid setPc).mapGroup uid gid fun g => { g with stall := none } with nextId := s.nextId + 1 }
  l.foldl (fun s x => s.takeTrap uid gid x.thread x.cause x.datum setPc) s

/-- A later word of a set run for threads that an earlier word traps: its replayable fault parks the group, and comes
before the trap (R41, R44). -/
def Lookup.parkOf (look : Lookup) (s : State) : Option State :=
  match s.cur, look.runOne s with
  | some c, .next r => if (r.group? c.uid c.gid).any fun g => !g.parked.isEmpty then some r else none
  | _, _ => none

/-- The replayable fault that a later word of a set raises for threads that an earlier word traps, all of them together
or one alone. -/
def Lookup.laterPark (look : Lookup) (uid gid : Nat) (setPc : DWord) (lit : Word) (g : Group) (s0 : State)
    (later : List Slotted) (ts : List Nat) : Option State :=
  (ts :: ts.map fun t => [t]).findSome? fun l => later.findSome? fun x =>
    look.parkOf (s0.inHand uid gid l setPc lit g s0.nextId x)

/-- A set of several words: threads with a precise trap are left out, unless a later word has a replayable fault for
them, and the set runs again for the others; a word that waits makes the whole set wait, with nothing done (R39 to R41,
R44). -/
def Lookup.runSet (look : Lookup) (uid gid : Nat) (setPc : DWord) (lit : Word) (g : Group) (l : List Slotted) (s0 : State) :
    Nat → List Nat → List TrapRec → Host.Outcome State Fault Refusal
  | 0, _, traps => .next (s0.takeAll uid gid setPc traps)
  | fuel + 1, ts, traps =>
    if ts = [] then .next (s0.takeAll uid gid setPc traps)
    else match look.runWords uid gid setPc lit g s0.nextId l ts s0 with
      | .done s => .next (if traps = [] then s else s.takeAll uid gid setPc traps)
      | .traps more later =>
        match look.laterPark uid gid setPc lit g s0 later (more.map (·.thread)) with
        | some s => .next s
        | none => look.runSet uid gid setPc lit g l s0 fuel (ts.filter fun t => !(more.any fun y => y.thread == t)) (traps ++ more)
      | .waits x =>
        match look.runOne (s0.inHand uid gid ts setPc lit g s0.nextId x) with
        | .next s => .next (if traps = [] then s else s.takeAll uid gid setPc traps)
        | o => o
      | .stops o => o

/-! ## One issue of a group -/

/-- The traps that threads of a subset take before their next word (R44, R46, R160); none when no thread has one. -/
def State.dueTraps (s : State) (uid gid : Nat) (g : Group) (ts : List Nat) : Option State :=
  let orphans := ts.filter g.orphanDue
  let late := ts.filter g.deadlineDue
  if orphans ≠ [] then some (orphans.foldl (fun s t => s.orphanTrap uid gid t) s)
  else if late ≠ [] then some (late.foldl (fun s t => s.deadlineTrap uid gid t) s)
  else none

/-- A core whose partition has served a lane (R31). -/
def Core.served (c : Core) (lane stamp : Nat) : Core :=
  { c with turns := { part := partOf lane, lane := lane, turn := stamp } :: c.turns.filter fun x => x.part != partOf lane }

/-- A core after an issue from a line: the line's use, and the fetch ahead of the next line when it is absent (R376). -/
def Core.lineUsed (c : Core) (l : CodeLine) (stamp : Nat) : Core :=
  let next : CodeAhead := { slot := l.slot, part := l.part, va := l.va + 1 }
  { c with
      code := c.code.map fun x => if x = l then { x with used := stamp } else x,
      ahead := if c.ahead.contains next ∨ 2 ^ 40 ≤ next.va ∨ c.code.any fun x => x.slot == l.slot && x.part == l.part && x.va == l.va + 1
        then c.ahead else c.ahead ++ [next] }

/-- The turn of a lane taken (R31), and the packet's bytes kept for the threads that issue from it (R377). -/
def State.beginIssue (s : State) (t : Team) (gid : Nat) (g : Group) (pc : DWord) (ts : List Nat) (bytes : List Byte) : State :=
  { (s.mapCore t.cl (t.coreOf gid) fun c => c.served g.lane s.nextId).mapGroup t.uid gid
      fun g => g.keepPacket (packetOf pc) ts bytes with nextId := s.nextId + 1 }

/-- A thread of the group has issued since `old`: one that waits, stalls or passes a `nop` has not (R204, R376). -/
def Group.issuedSince (g old : Group) : Bool := (old.threads.zip g.threads).any fun x => x.1.lastIssue != x.2.lastIssue

/-- A thread still has its set to replay: it has not gone on since `old` (R44). -/
def Group.replayLeft (g old : Group) : Group :=
  { g with replay := g.replay.filter fun t =>
      match old.threads[t]?, g.threads[t]? with
      | some x, some y => x.lastIssue == y.lastIssue && x.pc == y.pc
      | _, _ => false }

/-- What follows an attempt to issue: the use of the line when a word has issued (R376), the readers of a register that a
`qpop` has filled (R39), the threads that have replayed their set (R44). -/
def State.afterIssue (s : State) (t : Team) (gid : Nat) (g : Group) (l : CodeLine) : State :=
  let used := (s.group? t.uid gid).all fun h => h.issuedSince g
  let s := if used then { s.mapCore t.cl (t.coreOf gid) fun c => c.lineUsed l s.nextId with nextId := s.nextId + 1 } else s
  s.mapGroup t.uid gid fun h => (h.afterPops g).replayLeft g

/-- The chained set of a subset issued from a packet's bytes (R206, R207). -/
def Lookup.issuePacket (look : Lookup) (s : State) (t : Team) (gid : Nat) (g : Group) (pc : DWord) (ts : List Nat)
    (bytes : List Byte) : Host.Outcome State Fault Refusal :=
  let words := leWords 4 bytes
  let lit := words.getD 3 0
  let l := chainFrom pc words 3 (slotOf pc)
  match look.broken t.hdr.groupWidth t.record.hinged [] l with
  | some w => .next (s.takeAll t.uid gid pc (ts.map fun k => { thread := k, cause := cIllegal, datum := w }))
  | none =>
    match l with
    | [x] => look.runOne (s.inHand t.uid gid ts pc lit g s.nextId x)
    | l => look.runSet t.uid gid pc lit g l s (ts.length + 1) ts []

/-- One issue of a group (R31, R34, R203 to R207): traps that have fallen due come first, then the packet's line, then the
chained set. -/
def Lookup.issue (look : Lookup) (s : State) (uid gid : Nat) : Host.Outcome State Fault Refusal :=
  match s.team? uid with
  | none => .next s
  | some t =>
    match t.groups[gid]? with
    | none => .next s
    | some g =>
      if !s.mayIssue t gid g then .next s
      else match g.issueSubset with
        | none => .next s
        | some (pc, ts) =>
          match s.dueTraps uid gid g ts with
          | some s => .next s
          | none =>
            match s.codeLine t gid g pc.toNat with
            | none => .next (s.fetchFor t gid g pc ts)
            | some l =>
              let ts := g.sameBytes (packetOf pc) ts
              let r := s.packetBytes t g l pc ts
              match look.issuePacket (r.1.beginIssue t gid g pc ts r.2) t gid g pc ts r.2 with
              | .next s => .next (s.afterIssue t gid g l)
              | o => o

/-! ## The schedule (log 1) -/

/-- The instruction is an operation of the device, not a word. -/
def isOperation (i : Instr) : Bool := i.view == .event

/-- One entry of the schedule; a word is no entry of it by itself. -/
def Lookup.runEntry (look : Lookup) (ex : Instr → State → Host.Outcome State Fault Refusal) (s : State) (x : Sched) :
    Host.Outcome State Fault Refusal :=
  match x with
  | .tick n => .next (s.tick n)
  | .op i => if isOperation i then ex i s else .next s
  | .issue uid gid => look.issue s uid gid
  | .arrive fid => .next (s.reachSram fid)
  | .hostStore hpa data => .next (s.hostStore hpa data)
  | .sensor off v => .next (s.setSensor off v)
  | .evict sec => .next (s.evictSector sec)
  | .resizeBar n => .next (s.resizeBar n)
  | .arpexReset v => .next (s.arpexReset v)
  | .spdm m slot => .next (s.measure m slot)
  | .certificate m slot => .next (s.certificate m slot)

/-- The first entry of a list that changes the state, with what it does. -/
def Lookup.firstMove (look : Lookup) (ex : Instr → State → Host.Outcome State Fault Refusal) (s : State) :
    List Sched → Option (Host.Outcome State Fault Refusal)
  | [] => none
  | x :: rest =>
    match look.runEntry ex s x with
    | .next t => if t = s then look.firstMove ex s rest else some (.next t)
    | o => some o

/-- What happens when the schedule names nothing: work at hand, else a group issues and 1 ns passes, else 1 ns passes
(log 1). -/
def Lookup.byItself (look : Lookup) (ex : Instr → State → Host.Outcome State Fault Refusal) (s : State) :
    Host.Outcome State Fault Refusal :=
  match look.firstMove ex s s.work with
  | some o => o
  | none =>
    match s.nextGroup with
    | none => .next (s.tick 1)
    | some (uid, gid) =>
      match look.issue s uid gid with
      | .next s => .next (s.tick 1)
      | o => o

/-- What is settled when an outcome is a next state. -/
def settled (o : Host.Outcome State Fault Refusal) : Host.Outcome State Fault Refusal :=
  match o with
  | .next s => .next s.settle
  | o => o

/-- One step: the next entry of the schedule, or what happens by itself. -/
def Lookup.step (look : Lookup) (ex : Instr → State → Host.Outcome State Fault Refusal) (s : State) :
    Host.Outcome State Fault Refusal :=
  settled (match s.schedule with
    | [] => look.byItself ex s
    | x :: rest => look.runEntry ex { s with schedule := rest } x)

end Sys2Proof.Machine
end

