-- ==== Sys2Proof/Machine/Fast.lean ====
section
/-! DEFINITION. The meaning of a word, by the decoder and the dispatch of exec, and an equal form that the runtime of Lean
can evaluate: it names the rows and the meanings without building a value of Instr (log 23). -/

namespace Sys2Proof.Machine

open Sys2Proof

/-- A row and its meaning; legal when the word is the row's own encoding of its fields (R218). -/
def Entry.make (v : View) (w : Word) (run : State → Host.Outcome State Fault Refusal) : Entry :=
  { view := v, legal := v.ok && v.pack == some w, run := run }

/-- What a word is, by its row in the opcode table (R218, R227, R229). -/
noncomputable def lookWord : Lookup := fun w => (candidate w).map fun i => Entry.make i.view w (exec i)

/-! ## The same, evaluated -/

/-- Major 0x00 by minor (R229), as entries. -/
def fastRowOf00 (m : Nat) (w : Word) : Option Entry :=
  match m with
  | 0 => some (Entry.make (.rm 0x00 0 .any { d := true, a := true, ka := true, ea := true, l := true } (RM.ofWord w)) w (execNop (RM.ofWord w)))
  | 1 => some (Entry.make (.rm 0x00 1 .any { d := true, a := true, ka := true, ea := true, l := true } (RM.ofWord w)) w (execBrk (RM.ofWord w)))
  | 2 => some (Entry.make (.rm 0x00 2 .any { d := true, a := true, ka := true, ea := true, l := true } (RM.ofWord w)) w (execYield (RM.ofWord w)))
  | 3 => some (Entry.make (.rm 0x00 3 .any { d := true, ka := true, ea := true, l := true } (RM.ofWord w)) w (execFree (RM.ofWord w)))
  | 4 => some (Entry.make (.rm 0x00 4 .any { a := true, ka := true, ea := true, l := true } (RM.ofWord w)) w (execWtime (RM.ofWord w)))
  | _ => none

/-- Major 0x16 by minor (R229), as entries. -/
def fastRowOf16 (m : Nat) (w : Word) : Option Entry :=
  match m with
  | 0 => some (Entry.make (.rm 0x16 0 .any {} (RM.ofWord w)) w (execNot (RM.ofWord w)))
  | 1 => some (Entry.make (.rm 0x16 1 .any {} (RM.ofWord w)) w (execNeg (RM.ofWord w)))
  | 2 => some (Entry.make (.rm 0x16 2 .any {} (RM.ofWord w)) w (execAbs (RM.ofWord w)))
  | 3 => some (Entry.make (.rm 0x16 3 .any {} (RM.ofWord w)) w (execPopc (RM.ofWord w)))
  | 4 => some (Entry.make (.rm 0x16 4 .any {} (RM.ofWord w)) w (execClz (RM.ofWord w)))
  | 5 => some (Entry.make (.rm 0x16 5 .any {} (RM.ofWord w)) w (execCtz (RM.ofWord w)))
  | 6 => some (Entry.make (.rm 0x16 6 .any {} (RM.ofWord w)) w (execBrev (RM.ofWord w)))
  | 7 => some (Entry.make (.rm 0x16 7 .any {} (RM.ofWord w)) w (execSext8 (RM.ofWord w)))
  | 8 => some (Entry.make (.rm 0x16 8 .any {} (RM.ofWord w)) w (execSext16 (RM.ofWord w)))
  | 9 => some (Entry.make (.rm 0x16 9 .any {} (RM.ofWord w)) w (execZext8 (RM.ofWord w)))
  | 10 => some (Entry.make (.rm 0x16 10 .any {} (RM.ofWord w)) w (execZext16 (RM.ofWord w)))
  | 11 => some (Entry.make (.rm 0x16 11 .any {} (RM.ofWord w)) w (execMov (RM.ofWord w)))
  | 12 => some (Entry.make (.rm 0x16 12 .any {} (RM.ofWord w)) w (execBswap (RM.ofWord w)))
  | _ => none

/-- Major 0x20 by minor (R229), as entries. -/
def fastRowOf20 (m : Nat) (w : Word) : Option Entry :=
  match m with
  | 0 => some (Entry.make (.rm 0x20 0 .any { a := true, ka := true, ea := true, l1 := true } (RM.ofWord w)) w (execMovl (RM.ofWord w)))
  | 1 => some (Entry.make (.rm 0x20 1 .any { a := true, ka := true, ea := true } (RM.ofWord w)) w (execMovpc (RM.ofWord w)))
  | 2 => some (Entry.make (.rm 0x20 2 .any {} (RM.ofWord w)) w (execMov64 (RM.ofWord w)))
  | _ => none

/-- Major 0x2A by minor (R229), as entries. -/
def fastRowOf2A (m : Nat) (w : Word) : Option Entry :=
  match m with
  | 0 => some (Entry.make (.rm 0x2A 0 .zero {} (RM.ofWord w)) w (execAny (RM.ofWord w)))
  | 1 => some (Entry.make (.rm 0x2A 1 .zero {} (RM.ofWord w)) w (execAll (RM.ofWord w)))
  | 2 => some (Entry.make (.rm 0x2A 2 .zero {} (RM.ofWord w)) w (execBallotLo (RM.ofWord w)))
  | 3 => some (Entry.make (.rm 0x2A 3 .zero {} (RM.ofWord w)) w (execBallotHi (RM.ofWord w)))
  | 4 => some (Entry.make (.rm 0x2A 4 .zero {} (RM.ofWord w)) w (execCount (RM.ofWord w)))
  | 5 => some (Entry.make (.rm 0x2A 5 .zero {} (RM.ofWord w)) w (execElect (RM.ofWord w)))
  | 6 => some (Entry.make (.rm 0x2A 6 .zero {} (RM.ofWord w)) w (execXmatch (RM.ofWord w)))
  | 7 => some (Entry.make (.rm 0x2A 7 .zero {} (RM.ofWord w)) w (execScanAdd (RM.ofWord w)))
  | 8 => some (Entry.make (.rm 0x2A 8 .zero {} (RM.ofWord w)) w (execSumAdd (RM.ofWord w)))
  | _ => none

/-- Major 0x3F by minor (R229), as entries. -/
def fastRowOf3F (m : Nat) (w : Word) : Option Entry :=
  match m with
  | 0 => some (Entry.make (.rm 0x3F 0 .any {} (RM.ofWord w)) w (execFabs (RM.ofWord w)))
  | 1 => some (Entry.make (.rm 0x3F 1 .any {} (RM.ofWord w)) w (execFneg (RM.ofWord w)))
  | 2 => some (Entry.make (.rm 0x3F 2 .any {} (RM.ofWord w)) w (execRcp (RM.ofWord w)))
  | 3 => some (Entry.make (.rm 0x3F 3 .any {} (RM.ofWord w)) w (execRsq (RM.ofWord w)))
  | 4 => some (Entry.make (.rm 0x3F 4 .any {} (RM.ofWord w)) w (execSqrt (RM.ofWord w)))
  | 5 => some (Entry.make (.rm 0x3F 5 .any {} (RM.ofWord w)) w (execExp2 (RM.ofWord w)))
  | 6 => some (Entry.make (.rm 0x3F 6 .any {} (RM.ofWord w)) w (execLog2 (RM.ofWord w)))
  | 7 => some (Entry.make (.rm 0x3F 7 .any {} (RM.ofWord w)) w (execSin (RM.ofWord w)))
  | 8 => some (Entry.make (.rm 0x3F 8 .any {} (RM.ofWord w)) w (execCos (RM.ofWord w)))
  | 9 => some (Entry.make (.rm 0x3F 9 .any {} (RM.ofWord w)) w (execTrunc (RM.ofWord w)))
  | 10 => some (Entry.make (.rm 0x3F 10 .any {} (RM.ofWord w)) w (execFloor (RM.ofWord w)))
  | 11 => some (Entry.make (.rm 0x3F 11 .any {} (RM.ofWord w)) w (execCeil (RM.ofWord w)))
  | 12 => some (Entry.make (.rm 0x3F 12 .any {} (RM.ofWord w)) w (execRint (RM.ofWord w)))
  | 13 => some (Entry.make (.rm 0x3F 13 .any {} (RM.ofWord w)) w (execFrac (RM.ofWord w)))
  | 14 => some (Entry.make (.rm 0x3F 14 .any {} (RM.ofWord w)) w (execClass (RM.ofWord w)))
  | _ => none

/-- Major 0x4C by minor (R229), as entries. -/
def fastRowOf4C (m : Nat) (w : Word) : Option Entry :=
  match m with
  | 0 => some (Entry.make (.rm 0x4C 0 .any {} (RM.ofWord w)) w (execCvtF32F16 (RM.ofWord w)))
  | 1 => some (Entry.make (.rm 0x4C 1 .any {} (RM.ofWord w)) w (execCvtF32F16Hi (RM.ofWord w)))
  | 2 => some (Entry.make (.rm 0x4C 2 .any {} (RM.ofWord w)) w (execCvtF32Bf16 (RM.ofWord w)))
  | 3 => some (Entry.make (.rm 0x4C 3 .any {} (RM.ofWord w)) w (execCvtF32Bf16Hi (RM.ofWord w)))
  | 4 => some (Entry.make (.rm 0x4C 4 .any {} (RM.ofWord w)) w (execCvtF16F32 (RM.ofWord w)))
  | 5 => some (Entry.make (.rm 0x4C 5 .any {} (RM.ofWord w)) w (execCvtBf16F32 (RM.ofWord w)))
  | 6 => some (Entry.make (.rm 0x4C 6 .any {} (RM.ofWord w)) w (execCvtF16x2F32 (RM.ofWord w)))
  | 7 => some (Entry.make (.rm 0x4C 7 .any {} (RM.ofWord w)) w (execCvtBf16x2F32 (RM.ofWord w)))
  | 8 => some (Entry.make (.rm 0x4C 8 .any {} (RM.ofWord w)) w (execCvtF64F32 (RM.ofWord w)))
  | 9 => some (Entry.make (.rm 0x4C 9 .any {} (RM.ofWord w)) w (execCvtF32F64 (RM.ofWord w)))
  | 10 => some (Entry.make (.rm 0x4C 10 .any {} (RM.ofWord w)) w (execCvtF32S32 (RM.ofWord w)))
  | 11 => some (Entry.make (.rm 0x4C 11 .any {} (RM.ofWord w)) w (execCvtF32Z32 (RM.ofWord w)))
  | 12 => some (Entry.make (.rm 0x4C 12 .any {} (RM.ofWord w)) w (execCvtF32S64 (RM.ofWord w)))
  | 13 => some (Entry.make (.rm 0x4C 13 .any {} (RM.ofWord w)) w (execCvtF32Z64 (RM.ofWord w)))
  | 14 => some (Entry.make (.rm 0x4C 14 .any {} (RM.ofWord w)) w (execCvtF64S32 (RM.ofWord w)))
  | 15 => some (Entry.make (.rm 0x4C 15 .any {} (RM.ofWord w)) w (execCvtF64Z32 (RM.ofWord w)))
  | 16 => some (Entry.make (.rm 0x4C 16 .any {} (RM.ofWord w)) w (execCvtF64S64 (RM.ofWord w)))
  | 17 => some (Entry.make (.rm 0x4C 17 .any {} (RM.ofWord w)) w (execCvtF64Z64 (RM.ofWord w)))
  | 18 => some (Entry.make (.rm 0x4C 18 .any {} (RM.ofWord w)) w (execCvtS32F32 (RM.ofWord w)))
  | 19 => some (Entry.make (.rm 0x4C 19 .any {} (RM.ofWord w)) w (execCvtZ32F32 (RM.ofWord w)))
  | 20 => some (Entry.make (.rm 0x4C 20 .any {} (RM.ofWord w)) w (execCvtS32F32Rz (RM.ofWord w)))
  | 21 => some (Entry.make (.rm 0x4C 21 .any {} (RM.ofWord w)) w (execCvtZ32F32Rz (RM.ofWord w)))
  | 22 => some (Entry.make (.rm 0x4C 22 .any {} (RM.ofWord w)) w (execCvtS64F32 (RM.ofWord w)))
  | 23 => some (Entry.make (.rm 0x4C 23 .any {} (RM.ofWord w)) w (execCvtZ64F32 (RM.ofWord w)))
  | 24 => some (Entry.make (.rm 0x4C 24 .any {} (RM.ofWord w)) w (execCvtS32F64 (RM.ofWord w)))
  | 25 => some (Entry.make (.rm 0x4C 25 .any {} (RM.ofWord w)) w (execCvtZ32F64 (RM.ofWord w)))
  | 26 => some (Entry.make (.rm 0x4C 26 .any {} (RM.ofWord w)) w (execCvtS64F64 (RM.ofWord w)))
  | 27 => some (Entry.make (.rm 0x4C 27 .any {} (RM.ofWord w)) w (execCvtZ64F64 (RM.ofWord w)))
  | 28 => some (Entry.make (.rm 0x4C 28 .any {} (RM.ofWord w)) w (execCvtS32F64Rz (RM.ofWord w)))
  | 29 => some (Entry.make (.rm 0x4C 29 .any {} (RM.ofWord w)) w (execCvtS64F64Rz (RM.ofWord w)))
  | 30 => some (Entry.make (.rm 0x4C 30 .any {} (RM.ofWord w)) w (execCvtF16F64 (RM.ofWord w)))
  | 31 => some (Entry.make (.rm 0x4C 31 .any {} (RM.ofWord w)) w (execCvtBf16F64 (RM.ofWord w)))
  | 32 => some (Entry.make (.rm 0x4C 32 .any {} (RM.ofWord w)) w (execCvtF64F16 (RM.ofWord w)))
  | 33 => some (Entry.make (.rm 0x4C 33 .any {} (RM.ofWord w)) w (execCvtF64Bf16 (RM.ofWord w)))
  | 34 => some (Entry.make (.rm 0x4C 34 .any {} (RM.ofWord w)) w (execCvtBf16F16 (RM.ofWord w)))
  | 35 => some (Entry.make (.rm 0x4C 35 .any {} (RM.ofWord w)) w (execCvtF16Bf16 (RM.ofWord w)))
  | 36 => some (Entry.make (.rm 0x4C 36 .any {} (RM.ofWord w)) w (execCvtS8F32 (RM.ofWord w)))
  | 37 => some (Entry.make (.rm 0x4C 37 .any {} (RM.ofWord w)) w (execCvtZ8F32 (RM.ofWord w)))
  | 38 => some (Entry.make (.rm 0x4C 38 .any {} (RM.ofWord w)) w (execCvtS16F32 (RM.ofWord w)))
  | 39 => some (Entry.make (.rm 0x4C 39 .any {} (RM.ofWord w)) w (execCvtZ16F32 (RM.ofWord w)))
  | _ => none

/-- Major 0x50 by minor (R229), as entries. -/
def fastRowOf50 (m : Nat) (w : Word) : Option Entry :=
  match m with
  | 0 => some (Entry.make (.rm 0x50 0 .zero { a := true, ka := true, ea := true, l := true } (RM.ofWord w)) w (execLclr (RM.ofWord w)))
  | _ => none

/-- Major 0x51 by minor (R229), as entries. -/
def fastRowOf51 (m : Nat) (w : Word) : Option Entry :=
  match m with
  | 0 => some (Entry.make (.rm 0x51 0 .zero {} (RM.ofWord w)) w (execLaddF32 (RM.ofWord w)))
  | 1 => some (Entry.make (.rm 0x51 1 .zero {} (RM.ofWord w)) w (execLaddBf16Lo (RM.ofWord w)))
  | 2 => some (Entry.make (.rm 0x51 2 .zero {} (RM.ofWord w)) w (execLaddBf16Hi (RM.ofWord w)))
  | 3 => some (Entry.make (.rm 0x51 3 .zero {} (RM.ofWord w)) w (execLaddF16Lo (RM.ofWord w)))
  | 4 => some (Entry.make (.rm 0x51 4 .zero {} (RM.ofWord w)) w (execLaddF16Hi (RM.ofWord w)))
  | 5 => some (Entry.make (.rm 0x51 5 .zero {} (RM.ofWord w)) w (execLaddS32 (RM.ofWord w)))
  | 6 => some (Entry.make (.rm 0x51 6 .zero {} (RM.ofWord w)) w (execLaddZ32 (RM.ofWord w)))
  | _ => none

/-- Major 0x55 by minor (R229), as entries. -/
def fastRowOf55 (m : Nat) (w : Word) : Option Entry :=
  match m with
  | 0 => some (Entry.make (.rm 0x55 0 .zero { a := true, ka := true, ea := true, l := true } (RM.ofWord w)) w (execLnorm (RM.ofWord w)))
  | _ => none

/-- Major 0x56 by minor (R229), as entries. -/
def fastRowOf56 (m : Nat) (w : Word) : Option Entry :=
  match m with
  | 0 => some (Entry.make (.rm 0x56 0 .zero { ka := true, l := true } (RM.ofWord w)) w (execLrndF32 (RM.ofWord w)))
  | 1 => some (Entry.make (.rm 0x56 1 .zero { ka := true, l := true } (RM.ofWord w)) w (execLrndBf16 (RM.ofWord w)))
  | 2 => some (Entry.make (.rm 0x56 2 .zero { ka := true, l := true } (RM.ofWord w)) w (execLrndF16 (RM.ofWord w)))
  | 3 => some (Entry.make (.rm 0x56 3 .zero { ka := true, l := true } (RM.ofWord w)) w (execLrndF64 (RM.ofWord w)))
  | 4 => some (Entry.make (.rm 0x56 4 .zero { ka := true, l := true } (RM.ofWord w)) w (execLrndS32 (RM.ofWord w)))
  | _ => none

/-- Major 0x5B by minor (R229), as entries. -/
def fastRowOf5B (m : Nat) (w : Word) : Option Entry :=
  match m with
  | 0 => some (Entry.make (.rm 0x5B 0 .zero { ka := true, l := true } (RM.ofWord w)) w (execLgred (RM.ofWord w)))
  | _ => none

/-- Major 0x61 by AO (R215), as entries. -/
def fastRowOf61 (ao : Nat) (w : Word) : Option Entry :=
  match ao with
  | 0 => some (Entry.make (.at 0x61 0 (AT.ofWord w)) w (execAtgAdd (AT.ofWord w)))
  | 1 => some (Entry.make (.at 0x61 1 (AT.ofWord w)) w (execAtgSub (AT.ofWord w)))
  | 2 => some (Entry.make (.at 0x61 2 (AT.ofWord w)) w (execAtgMinS (AT.ofWord w)))
  | 3 => some (Entry.make (.at 0x61 3 (AT.ofWord w)) w (execAtgMinZ (AT.ofWord w)))
  | 4 => some (Entry.make (.at 0x61 4 (AT.ofWord w)) w (execAtgMaxS (AT.ofWord w)))
  | 5 => some (Entry.make (.at 0x61 5 (AT.ofWord w)) w (execAtgMaxZ (AT.ofWord w)))
  | 6 => some (Entry.make (.at 0x61 6 (AT.ofWord w)) w (execAtgAnd (AT.ofWord w)))
  | 7 => some (Entry.make (.at 0x61 7 (AT.ofWord w)) w (execAtgOr (AT.ofWord w)))
  | 8 => some (Entry.make (.at 0x61 8 (AT.ofWord w)) w (execAtgXor (AT.ofWord w)))
  | 9 => some (Entry.make (.at 0x61 9 (AT.ofWord w)) w (execAtgSwap (AT.ofWord w)))
  | 10 => some (Entry.make (.at 0x61 10 (AT.ofWord w)) w (execAtgCas (AT.ofWord w)))
  | 11 => some (Entry.make (.at 0x61 11 (AT.ofWord w)) w (execAtgIncWrap (AT.ofWord w)))
  | 12 => some (Entry.make (.at 0x61 12 (AT.ofWord w)) w (execAtgDecWrap (AT.ofWord w)))
  | _ => none

/-- Major 0x62 by AO (R215), as entries. -/
def fastRowOf62 (ao : Nat) (w : Word) : Option Entry :=
  match ao with
  | 0 => some (Entry.make (.at 0x62 0 (AT.ofWord w)) w (execAtgArAdd (AT.ofWord w)))
  | 1 => some (Entry.make (.at 0x62 1 (AT.ofWord w)) w (execAtgArSub (AT.ofWord w)))
  | 2 => some (Entry.make (.at 0x62 2 (AT.ofWord w)) w (execAtgArMinS (AT.ofWord w)))
  | 3 => some (Entry.make (.at 0x62 3 (AT.ofWord w)) w (execAtgArMinZ (AT.ofWord w)))
  | 4 => some (Entry.make (.at 0x62 4 (AT.ofWord w)) w (execAtgArMaxS (AT.ofWord w)))
  | 5 => some (Entry.make (.at 0x62 5 (AT.ofWord w)) w (execAtgArMaxZ (AT.ofWord w)))
  | 6 => some (Entry.make (.at 0x62 6 (AT.ofWord w)) w (execAtgArAnd (AT.ofWord w)))
  | 7 => some (Entry.make (.at 0x62 7 (AT.ofWord w)) w (execAtgArOr (AT.ofWord w)))
  | 8 => some (Entry.make (.at 0x62 8 (AT.ofWord w)) w (execAtgArXor (AT.ofWord w)))
  | 9 => some (Entry.make (.at 0x62 9 (AT.ofWord w)) w (execAtgArSwap (AT.ofWord w)))
  | 10 => some (Entry.make (.at 0x62 10 (AT.ofWord w)) w (execAtgArCas (AT.ofWord w)))
  | 11 => some (Entry.make (.at 0x62 11 (AT.ofWord w)) w (execAtgArIncWrap (AT.ofWord w)))
  | 12 => some (Entry.make (.at 0x62 12 (AT.ofWord w)) w (execAtgArDecWrap (AT.ofWord w)))
  | _ => none

/-- Major 0x63 by AO (R215), as entries. -/
def fastRowOf63 (ao : Nat) (w : Word) : Option Entry :=
  match ao with
  | 0 => some (Entry.make (.at 0x63 0 (AT.ofWord w)) w (execAtgSysAdd (AT.ofWord w)))
  | 1 => some (Entry.make (.at 0x63 1 (AT.ofWord w)) w (execAtgSysSub (AT.ofWord w)))
  | 2 => some (Entry.make (.at 0x63 2 (AT.ofWord w)) w (execAtgSysMinS (AT.ofWord w)))
  | 3 => some (Entry.make (.at 0x63 3 (AT.ofWord w)) w (execAtgSysMinZ (AT.ofWord w)))
  | 4 => some (Entry.make (.at 0x63 4 (AT.ofWord w)) w (execAtgSysMaxS (AT.ofWord w)))
  | 5 => some (Entry.make (.at 0x63 5 (AT.ofWord w)) w (execAtgSysMaxZ (AT.ofWord w)))
  | 6 => some (Entry.make (.at 0x63 6 (AT.ofWord w)) w (execAtgSysAnd (AT.ofWord w)))
  | 7 => some (Entry.make (.at 0x63 7 (AT.ofWord w)) w (execAtgSysOr (AT.ofWord w)))
  | 8 => some (Entry.make (.at 0x63 8 (AT.ofWord w)) w (execAtgSysXor (AT.ofWord w)))
  | 9 => some (Entry.make (.at 0x63 9 (AT.ofWord w)) w (execAtgSysSwap (AT.ofWord w)))
  | 10 => some (Entry.make (.at 0x63 10 (AT.ofWord w)) w (execAtgSysCas (AT.ofWord w)))
  | 11 => some (Entry.make (.at 0x63 11 (AT.ofWord w)) w (execAtgSysIncWrap (AT.ofWord w)))
  | 12 => some (Entry.make (.at 0x63 12 (AT.ofWord w)) w (execAtgSysDecWrap (AT.ofWord w)))
  | _ => none

/-- Major 0x64 by AO (R215), as entries. -/
def fastRowOf64 (ao : Nat) (w : Word) : Option Entry :=
  match ao with
  | 0 => some (Entry.make (.at 0x64 0 (AT.ofWord w)) w (execAtsAdd (AT.ofWord w)))
  | 1 => some (Entry.make (.at 0x64 1 (AT.ofWord w)) w (execAtsSub (AT.ofWord w)))
  | 2 => some (Entry.make (.at 0x64 2 (AT.ofWord w)) w (execAtsMinS (AT.ofWord w)))
  | 3 => some (Entry.make (.at 0x64 3 (AT.ofWord w)) w (execAtsMinZ (AT.ofWord w)))
  | 4 => some (Entry.make (.at 0x64 4 (AT.ofWord w)) w (execAtsMaxS (AT.ofWord w)))
  | 5 => some (Entry.make (.at 0x64 5 (AT.ofWord w)) w (execAtsMaxZ (AT.ofWord w)))
  | 6 => some (Entry.make (.at 0x64 6 (AT.ofWord w)) w (execAtsAnd (AT.ofWord w)))
  | 7 => some (Entry.make (.at 0x64 7 (AT.ofWord w)) w (execAtsOr (AT.ofWord w)))
  | 8 => some (Entry.make (.at 0x64 8 (AT.ofWord w)) w (execAtsXor (AT.ofWord w)))
  | 9 => some (Entry.make (.at 0x64 9 (AT.ofWord w)) w (execAtsSwap (AT.ofWord w)))
  | 10 => some (Entry.make (.at 0x64 10 (AT.ofWord w)) w (execAtsCas (AT.ofWord w)))
  | 11 => some (Entry.make (.at 0x64 11 (AT.ofWord w)) w (execAtsIncWrap (AT.ofWord w)))
  | 12 => some (Entry.make (.at 0x64 12 (AT.ofWord w)) w (execAtsDecWrap (AT.ofWord w)))
  | _ => none

/-- Major 0x66 by KIND (R230), as entries. -/
def fastRowOf66 (kind : Nat) (w : Word) : Option Entry :=
  match kind with
  | 1 => some (Entry.make (.fn 1 (FN.ofWord w)) w (execFenceAcq (FN.ofWord w)))
  | 2 => some (Entry.make (.fn 2 (FN.ofWord w)) w (execFenceRel (FN.ofWord w)))
  | 3 => some (Entry.make (.fn 3 (FN.ofWord w)) w (execFenceFull (FN.ofWord w)))
  | _ => none

/-- Major 0x67 by minor (R229), as entries. -/
def fastRowOf67 (m : Nat) (w : Word) : Option Entry :=
  match m with
  | 0 => some (Entry.make (.rm 0x67 0 .any { d := true, a := true, ka := true, ea := true, l := true } (RM.ofWord w)) w (execCacheL1inv (RM.ofWord w)))
  | 1 => some (Entry.make (.rm 0x67 1 .any { d := true, a := true, ka := true, ea := true, l := true } (RM.ofWord w)) w (execCacheDrain (RM.ofWord w)))
  | 2 => some (Entry.make (.rm 0x67 2 .any { d := true, l := true } (RM.ofWord w)) w (execCachePfl (RM.ofWord w)))
  | _ => none

/-- Major 0x69 by minor (R229), as entries. -/
def fastRowOf69 (m : Nat) (w : Word) : Option Entry :=
  match m with
  | 0 => some (Entry.make (.rm 0x69 0 .one { d := true } (RM.ofWord w)) w (execAcqr (RM.ofWord w)))
  | _ => none

/-- Major 0x6E by minor (R229), as entries. -/
def fastRowOf6E (m : Nat) (w : Word) : Option Entry :=
  match m with
  | 0 => some (Entry.make (.rm 0x6E 0 .one {} (RM.ofWord w)) w (execSknDecl (RM.ofWord w)))
  | 1 => some (Entry.make (.rm 0x6E 1 .one {} (RM.ofWord w)) w (execSknJoin (RM.ofWord w)))
  | 2 => some (Entry.make (.rm 0x6E 2 .one {} (RM.ofWord w)) w (execSknLeave (RM.ofWord w)))
  | 3 => some (Entry.make (.rm 0x6E 3 .one {} (RM.ofWord w)) w (execSknStat (RM.ofWord w)))
  | _ => none

/-- Major 0x6F by minor (R229), as entries. -/
def fastRowOf6F (m : Nat) (w : Word) : Option Entry :=
  match m with
  | 0 => some (Entry.make (.rm 0x6F 0 .one { l := true } (RM.ofWord w)) w (execLatchInit (RM.ofWord w)))
  | 1 => some (Entry.make (.rm 0x6F 1 .one {} (RM.ofWord w)) w (execLatchExpect (RM.ofWord w)))
  | 2 => some (Entry.make (.rm 0x6F 2 .one { a := true, ka := true, ea := true, l := true } (RM.ofWord w)) w (execLatchArrive (RM.ofWord w)))
  | 3 => some (Entry.make (.rm 0x6F 3 .one { d := true } (RM.ofWord w)) w (execLatchArriveRemote (RM.ofWord w)))
  | 4 => some (Entry.make (.rm 0x6F 4 .one {} (RM.ofWord w)) w (execLatchWait (RM.ofWord w)))
  | 5 => some (Entry.make (.rm 0x6F 5 .one { ka := true, ea := true, l := true } (RM.ofWord w)) w (execLatchTest (RM.ofWord w)))
  | 6 => some (Entry.make (.rm 0x6F 6 .one { a := true, ka := true, ea := true, l := true } (RM.ofWord w)) w (execLatchInval (RM.ofWord w)))
  | _ => none

/-- Major 0x71 by minor (R229), as entries. -/
def fastRowOf71 (m : Nat) (w : Word) : Option Entry :=
  match m with
  | 0 => some (Entry.make (.rm 0x71 0 .one {} (RM.ofWord w)) w (execQopBind (RM.ofWord w)))
  | 1 => some (Entry.make (.rm 0x71 1 .one { a := true, ka := true, ea := true, l := true } (RM.ofWord w)) w (execQopUnbind (RM.ofWord w)))
  | 2 => some (Entry.make (.rm 0x71 2 .one { ka := true, ea := true, l := true } (RM.ofWord w)) w (execQopStat (RM.ofWord w)))
  | _ => none

/-- Major 0x75 by minor (R229), as entries. -/
def fastRowOf75 (m : Nat) (w : Word) : Option Entry :=
  match m with
  | 0 => some (Entry.make (.rm 0x75 0 .one { l := true } (RM.ofWord w)) w (execSpawn (RM.ofWord w)))
  | 1 => some (Entry.make (.rm 0x75 1 .one { l := true } (RM.ofWord w)) w (execSpawnGang (RM.ofWord w)))
  | 2 => some (Entry.make (.rm 0x75 2 .one { l := true } (RM.ofWord w)) w (execSpawnJoin (RM.ofWord w)))
  | _ => none

/-- Major 0x76 by minor (R229), as entries. -/
def fastRowOf76 (m : Nat) (w : Word) : Option Entry :=
  match m with
  | 0 => some (Entry.make (.rm 0x76 0 .one { d := true, l := true } (RM.ofWord w)) w (execXferPut (RM.ofWord w)))
  | 1 => some (Entry.make (.rm 0x76 1 .one { d := true, l := true } (RM.ofWord w)) w (execXferPutred (RM.ofWord w)))
  | 2 => some (Entry.make (.rm 0x76 2 .one { d := true, l := true } (RM.ofWord w)) w (execXferGet (RM.ofWord w)))
  | 3 => some (Entry.make (.rm 0x76 3 .one {} (RM.ofWord w)) w (execXferArm (RM.ofWord w)))
  | 4 => some (Entry.make (.rm 0x76 4 .one { a := true, ka := true, ea := true, l := true } (RM.ofWord w)) w (execXferDisarm (RM.ofWord w)))
  | _ => none

/-- Major 0x77 by minor (R229), as entries. -/
def fastRowOf77 (m : Nat) (w : Word) : Option Entry :=
  match m with
  | 0 => some (Entry.make (.rm 0x77 0 .one { a := true, ka := true, ea := true, l := true } (RM.ofWord w)) w (execHypNew (RM.ofWord w)))
  | 1 => some (Entry.make (.rm 0x77 1 .one {} (RM.ofWord w)) w (execHypEnter (RM.ofWord w)))
  | 2 => some (Entry.make (.rm 0x77 2 .one { a := true, ka := true, ea := true, l := true } (RM.ofWord w)) w (execHypLeave (RM.ofWord w)))
  | 3 => some (Entry.make (.rm 0x77 3 .one {} (RM.ofWord w)) w (execHypConfirm (RM.ofWord w)))
  | 4 => some (Entry.make (.rm 0x77 4 .one {} (RM.ofWord w)) w (execHypRefute (RM.ofWord w)))
  | 5 => some (Entry.make (.rm 0x77 5 .one {} (RM.ofWord w)) w (execHypStat (RM.ofWord w)))
  | _ => none

/-- Major 0x7B by minor (R229), as entries. -/
def fastRowOf7B (m : Nat) (w : Word) : Option Entry :=
  match m with
  | 0 => some (Entry.make (.rm 0x7B 0 .zero { ka := true, ea := true, l := true } (RM.ofWord w)) w (execMdrainR (RM.ofWord w)))
  | 1 => some (Entry.make (.rm 0x7B 1 .any { l := true } (RM.ofWord w)) w (execMdrainSp (RM.ofWord w)))
  | 2 => some (Entry.make (.rm 0x7B 2 .any { l := true } (RM.ofWord w)) w (execMdrainGl (RM.ofWord w)))
  | 3 => some (Entry.make (.rm 0x7B 3 .any {} (RM.ofWord w)) w (execMdrainPeer (RM.ofWord w)))
  | 4 => some (Entry.make (.rm 0x7B 4 .any { a := true, ka := true, ea := true, l := true } (RM.ofWord w)) w (execMdrainQ (RM.ofWord w)))
  | _ => none

/-- Major 0x7D by minor (R229), as entries. -/
def fastRowOf7D (m : Nat) (w : Word) : Option Entry :=
  match m with
  | 0 => some (Entry.make (.rm 0x7D 0 .any { a := true, ka := true, ea := true, l := true } (RM.ofWord w)) w (execMzero (RM.ofWord w)))
  | 1 => some (Entry.make (.rm 0x7D 1 .any { d := true } (RM.ofWord w)) w (execMcfg (RM.ofWord w)))
  | 2 => some (Entry.make (.rm 0x7D 2 .one { d := true, l := true } (RM.ofWord w)) w (execMtrsm (RM.ofWord w)))
  | 3 => some (Entry.make (.rm 0x7D 3 .any { a := true, ka := true, ea := true, l := true } (RM.ofWord w)) w (execMstat (RM.ofWord w)))
  | _ => none

/-- Major 0x7E by W (R341), as entries. -/
def fastRowOf7E (wr : Bool) (w : Word) : Option Entry :=
  match wr with
  | false => some (Entry.make (.rn 0x7E false .any { a := true, ka := true, ea := true, l := true } (RN.ofWord w)) w (execCsrRd (RN.ofWord w)))
  | true => some (Entry.make (.rn 0x7E true .any { d := true } (RN.ofWord w)) w (execCsrWr (RN.ofWord w)))

/-- Major 0x7F by minor (R229), as entries. -/
def fastRowOf7F (m : Nat) (w : Word) : Option Entry :=
  match m with
  | 0 => some (Entry.make (.rm 0x7F 0 .any { c := true, d := true, a := true, ka := true, ea := true, l := true } (RM.ofWord w)) w (execSysEret (RM.ofWord w)))
  | 1 => some (Entry.make (.rm 0x7F 1 .any { c := true } (RM.ofWord w)) w (execSysCtxsv (RM.ofWord w)))
  | 2 => some (Entry.make (.rm 0x7F 2 .any { c := true } (RM.ofWord w)) w (execSysCtxld (RM.ofWord w)))
  | 3 => some (Entry.make (.rm 0x7F 3 .any { c := true, d := true } (RM.ofWord w)) w (execSysTlbinv (RM.ofWord w)))
  | 4 => some (Entry.make (.rm 0x7F 4 .any { c := true, d := true } (RM.ofWord w)) w (execSysL2flush (RM.ofWord w)))
  | 5 => some (Entry.make (.rm 0x7F 5 .any { c := true, d := true, a := true, ka := true, ea := true, l := true } (RM.ofWord w)) w (execSysHalt (RM.ofWord w)))
  | _ => none

/-- Majors 0x00 to 0x0F (R227), as entries. -/
def fastRowsOf0 (op : Nat) (w : Word) : Option Entry :=
  match op with
  | 0 => fastRowOf00 (w.extractLsb' 5 6).toNat w
  | 1 => some (Entry.make (.rr 0x01 .any {} (RR.ofWord w)) w (execAdd (RR.ofWord w)))
  | 2 => some (Entry.make (.rr 0x02 .any {} (RR.ofWord w)) w (execSub (RR.ofWord w)))
  | 3 => some (Entry.make (.rr 0x03 .any {} (RR.ofWord w)) w (execMullo (RR.ofWord w)))
  | 4 => some (Entry.make (.rr 0x04 .any {} (RR.ofWord w)) w (execMulhiS (RR.ofWord w)))
  | 5 => some (Entry.make (.rr 0x05 .any {} (RR.ofWord w)) w (execMulhiZ (RR.ofWord w)))
  | 6 => some (Entry.make (.rr 0x06 .any {} (RR.ofWord w)) w (execMad (RR.ofWord w)))
  | 7 => some (Entry.make (.rr 0x07 .any {} (RR.ofWord w)) w (execMinS (RR.ofWord w)))
  | 8 => some (Entry.make (.rr 0x08 .any {} (RR.ofWord w)) w (execMinZ (RR.ofWord w)))
  | 9 => some (Entry.make (.rr 0x09 .any {} (RR.ofWord w)) w (execMaxS (RR.ofWord w)))
  | 10 => some (Entry.make (.rr 0x0A .any {} (RR.ofWord w)) w (execMaxZ (RR.ofWord w)))
  | 11 => some (Entry.make (.rr 0x0B .any {} (RR.ofWord w)) w (execAnd (RR.ofWord w)))
  | 12 => some (Entry.make (.rr 0x0C .any {} (RR.ofWord w)) w (execOr (RR.ofWord w)))
  | 13 => some (Entry.make (.rr 0x0D .any {} (RR.ofWord w)) w (execXor (RR.ofWord w)))
  | 14 => some (Entry.make (.rr 0x0E .any {} (RR.ofWord w)) w (execAndn (RR.ofWord w)))
  | 15 => some (Entry.make (.rr 0x0F .any {} (RR.ofWord w)) w (execShl (RR.ofWord w)))
  | _ => none

/-- Majors 0x10 to 0x1F (R227), as entries. -/
def fastRowsOf1 (op : Nat) (w : Word) : Option Entry :=
  match op with
  | 0 => some (Entry.make (.rr 0x10 .any {} (RR.ofWord w)) w (execShr (RR.ofWord w)))
  | 1 => some (Entry.make (.rr 0x11 .any {} (RR.ofWord w)) w (execSar (RR.ofWord w)))
  | 2 => some (Entry.make (.rr 0x12 .any {} (RR.ofWord w)) w (execRot (RR.ofWord w)))
  | 3 => some (Entry.make (.rr 0x13 .any {} (RR.ofWord w)) w (execBfeZ (RR.ofWord w)))
  | 4 => some (Entry.make (.rr 0x14 .any {} (RR.ofWord w)) w (execBfeS (RR.ofWord w)))
  | 5 => some (Entry.make (.rr 0x15 .any {} (RR.ofWord w)) w (execBfi (RR.ofWord w)))
  | 6 => fastRowOf16 (w.extractLsb' 5 6).toNat w
  | 7 => some (Entry.make (.rr 0x17 .any {} (RR.ofWord w)) w (execSel (RR.ofWord w)))
  | 8 => some (Entry.make (.rr 0x18 .any {} (RR.ofWord w)) w (execCmpEq (RR.ofWord w)))
  | 9 => some (Entry.make (.rr 0x19 .any {} (RR.ofWord w)) w (execCmpNe (RR.ofWord w)))
  | 10 => some (Entry.make (.rr 0x1A .any {} (RR.ofWord w)) w (execCmpLtS (RR.ofWord w)))
  | 11 => some (Entry.make (.rr 0x1B .any {} (RR.ofWord w)) w (execCmpLeS (RR.ofWord w)))
  | 12 => some (Entry.make (.rr 0x1C .any {} (RR.ofWord w)) w (execCmpLtZ (RR.ofWord w)))
  | 13 => some (Entry.make (.rr 0x1D .any {} (RR.ofWord w)) w (execCmpLeZ (RR.ofWord w)))
  | 14 => some (Entry.make (.rr 0x1E .any {} (RR.ofWord w)) w (execLea (RR.ofWord w)))
  | 15 => some (Entry.make (.ri 0x1F (RI.ofWord w)) w (execAddi (RI.ofWord w)))
  | _ => none

/-- Majors 0x20 to 0x2F (R227), as entries. -/
def fastRowsOf2 (op : Nat) (w : Word) : Option Entry :=
  match op with
  | 0 => fastRowOf20 (w.extractLsb' 5 6).toNat w
  | 1 => some (Entry.make (.rn 0x21 false .any { a := true, l := true } (RN.ofWord w)) w (execMovg (RN.ofWord w)))
  | 2 => some (Entry.make (.rn 0x22 false .zero { d := true } (RN.ofWord w)) w (execMovtg (RN.ofWord w)))
  | 3 => some (Entry.make (.rr 0x23 .any {} (RR.ofWord w)) w (execAdd64 (RR.ofWord w)))
  | 4 => some (Entry.make (.rr 0x24 .any {} (RR.ofWord w)) w (execSub64 (RR.ofWord w)))
  | 5 => some (Entry.make (.rr 0x25 .any {} (RR.ofWord w)) w (execLea64 (RR.ofWord w)))
  | 6 => some (Entry.make (.rr 0x26 .zero {} (RR.ofWord w)) w (execXidx (RR.ofWord w)))
  | 7 => some (Entry.make (.rr 0x27 .zero {} (RR.ofWord w)) w (execXup (RR.ofWord w)))
  | 8 => some (Entry.make (.rr 0x28 .zero {} (RR.ofWord w)) w (execXdown (RR.ofWord w)))
  | 9 => some (Entry.make (.rr 0x29 .zero {} (RR.ofWord w)) w (execXxor (RR.ofWord w)))
  | 10 => fastRowOf2A (w.extractLsb' 5 6).toNat w
  | 11 => some (Entry.make (.rr 0x2B .zero {} (RR.ofWord w)) w (execRget (RR.ofWord w)))
  | 12 => some (Entry.make (.rr 0x2C .zero {} (RR.ofWord w)) w (execRput (RR.ofWord w)))
  | 13 => some (Entry.make (.br 0x2D { c := true, a := true } (BR.ofWord w)) w (execBr (BR.ofWord w)))
  | 14 => some (Entry.make (.br 0x2E { c := true } (BR.ofWord w)) w (execBnz (BR.ofWord w)))
  | 15 => some (Entry.make (.br 0x2F { c := true } (BR.ofWord w)) w (execBz (BR.ofWord w)))
  | _ => none

/-- Majors 0x30 to 0x3F (R227), as entries. -/
def fastRowsOf3 (op : Nat) (w : Word) : Option Entry :=
  match op with
  | 0 => some (Entry.make (.br 0x30 { c := true } (BR.ofWord w)) w (execCall (BR.ofWord w)))
  | 1 => some (Entry.make (.br 0x31 { c := true, t := true } (BR.ofWord w)) w (execJmpi (BR.ofWord w)))
  | 2 => some (Entry.make (.br 0x32 { c := true, a := true } (BR.ofWord w)) w (execMeet (BR.ofWord w)))
  | 3 => some (Entry.make (.br 0x33 { c := true, a := true, t := true } (BR.ofWord w)) w (execExit (BR.ofWord w)))
  | 4 => some (Entry.make (.rn 0x34 false .any { c := true, d := true, m := 15, ka := true } (RN.ofWord w)) w (execTrap (RN.ofWord w)))
  | 5 => some (Entry.make (.rr 0x35 .any {} (RR.ofWord w)) w (execFadd (RR.ofWord w)))
  | 6 => some (Entry.make (.rr 0x36 .any {} (RR.ofWord w)) w (execFsub (RR.ofWord w)))
  | 7 => some (Entry.make (.rr 0x37 .any {} (RR.ofWord w)) w (execFmul (RR.ofWord w)))
  | 8 => some (Entry.make (.rr 0x38 .any {} (RR.ofWord w)) w (execFfma (RR.ofWord w)))
  | 9 => some (Entry.make (.rr 0x39 .any {} (RR.ofWord w)) w (execFmin (RR.ofWord w)))
  | 10 => some (Entry.make (.rr 0x3A .any {} (RR.ofWord w)) w (execFmax (RR.ofWord w)))
  | 11 => some (Entry.make (.rr 0x3B .any {} (RR.ofWord w)) w (execFcmpEq (RR.ofWord w)))
  | 12 => some (Entry.make (.rr 0x3C .any {} (RR.ofWord w)) w (execFcmpLt (RR.ofWord w)))
  | 13 => some (Entry.make (.rr 0x3D .any {} (RR.ofWord w)) w (execFcmpLe (RR.ofWord w)))
  | 14 => some (Entry.make (.rr 0x3E .any {} (RR.ofWord w)) w (execFcmpUn (RR.ofWord w)))
  | 15 => fastRowOf3F (w.extractLsb' 5 6).toNat w
  | _ => none

/-- Majors 0x40 to 0x4F (R227), as entries. -/
def fastRowsOf4 (op : Nat) (w : Word) : Option Entry :=
  match op with
  | 0 => some (Entry.make (.rr 0x40 .any {} (RR.ofWord w)) w (execFdiv (RR.ofWord w)))
  | 1 => some (Entry.make (.rr 0x41 .any {} (RR.ofWord w)) w (execBadd (RR.ofWord w)))
  | 2 => some (Entry.make (.rr 0x42 .any {} (RR.ofWord w)) w (execBmul (RR.ofWord w)))
  | 3 => some (Entry.make (.rr 0x43 .any {} (RR.ofWord w)) w (execBfma (RR.ofWord w)))
  | 4 => some (Entry.make (.rr 0x44 .any {} (RR.ofWord w)) w (execBmin (RR.ofWord w)))
  | 5 => some (Entry.make (.rr 0x45 .any {} (RR.ofWord w)) w (execBmax (RR.ofWord w)))
  | 6 => some (Entry.make (.rr 0x46 .any {} (RR.ofWord w)) w (execHadd (RR.ofWord w)))
  | 7 => some (Entry.make (.rr 0x47 .any {} (RR.ofWord w)) w (execHmul (RR.ofWord w)))
  | 8 => some (Entry.make (.rr 0x48 .any {} (RR.ofWord w)) w (execHfma (RR.ofWord w)))
  | 9 => some (Entry.make (.rr 0x49 .any {} (RR.ofWord w)) w (execDadd (RR.ofWord w)))
  | 10 => some (Entry.make (.rr 0x4A .any {} (RR.ofWord w)) w (execDmul (RR.ofWord w)))
  | 11 => some (Entry.make (.rr 0x4B .any {} (RR.ofWord w)) w (execDfma (RR.ofWord w)))
  | 12 => fastRowOf4C (w.extractLsb' 5 6).toNat w
  | 13 => some (Entry.make (.rr 0x4D .any {} (RR.ofWord w)) w (execNcvtP (RR.ofWord w)))
  | 14 => some (Entry.make (.rr 0x4E .any {} (RR.ofWord w)) w (execNcvtU (RR.ofWord w)))
  | 15 => some (Entry.make (.rr 0x4F .any {} (RR.ofWord w)) w (execFscale (RR.ofWord w)))
  | _ => none

/-- Majors 0x50 to 0x5F (R227), as entries. -/
def fastRowsOf5 (op : Nat) (w : Word) : Option Entry :=
  match op with
  | 0 => fastRowOf50 (w.extractLsb' 5 6).toNat w
  | 1 => fastRowOf51 (w.extractLsb' 5 6).toNat w
  | 2 => some (Entry.make (.rr 0x52 .zero {} (RR.ofWord w)) w (execLfma (RR.ofWord w)))
  | 3 => some (Entry.make (.rr 0x53 .zero {} (RR.ofWord w)) w (execLfmab (RR.ofWord w)))
  | 4 => some (Entry.make (.rr 0x54 .zero { b := true, kb := true, eb := true, l := true } (RR.ofWord w)) w (execLmerge (RR.ofWord w)))
  | 5 => fastRowOf55 (w.extractLsb' 5 6).toNat w
  | 6 => fastRowOf56 (w.extractLsb' 5 6).toNat w
  | 7 => some (Entry.make (.rr 0x57 .zero {} (RR.ofWord w)) w (execLsh (RR.ofWord w)))
  | 8 => some (Entry.make (.mem 0x58 .zero { sz := 1 } (MEM.ofWord w)) w (execLst (MEM.ofWord w)))
  | 9 => some (Entry.make (.mem 0x59 .zero { sz := 1 } (MEM.ofWord w)) w (execLld (MEM.ofWord w)))
  | 10 => some (Entry.make (.mem 0x5A .zero { sz := 0 } (MEM.ofWord w)) w (execLred (MEM.ofWord w)))
  | 11 => fastRowOf5B (w.extractLsb' 5 6).toNat w
  | 12 => some (Entry.make (.rn 0x5C false .zero { ka := true, l := true } (RN.ofWord w)) w (execLseg (RN.ofWord w)))
  | 13 => some (Entry.make (.mem 0x5D .any {} (MEM.ofWord w)) w (execLdg (MEM.ofWord w)))
  | 14 => some (Entry.make (.mem 0x5E .any {} (MEM.ofWord w)) w (execStg (MEM.ofWord w)))
  | 15 => some (Entry.make (.mem 0x5F .any {} (MEM.ofWord w)) w (execLds (MEM.ofWord w)))
  | _ => none

/-- Majors 0x60 to 0x6F (R227), as entries. -/
def fastRowsOf6 (op : Nat) (w : Word) : Option Entry :=
  match op with
  | 0 => some (Entry.make (.mem 0x60 .any {} (MEM.ofWord w)) w (execSts (MEM.ofWord w)))
  | 1 => fastRowOf61 (w.extractLsb' 1 4).toNat w
  | 2 => fastRowOf62 (w.extractLsb' 1 4).toNat w
  | 3 => fastRowOf63 (w.extractLsb' 1 4).toNat w
  | 4 => fastRowOf64 (w.extractLsb' 1 4).toNat w
  | 5 => some (Entry.make (.rr 0x65 .any { l := true } (RR.ofWord w)) w (execAcas16 (RR.ofWord w)))
  | 6 => fastRowOf66 (w.extractLsb' 9 2).toNat w
  | 7 => fastRowOf67 (w.extractLsb' 5 6).toNat w
  | 8 => some (Entry.make (.rr 0x68 .one {} (RR.ofWord w)) w (execPfr (RR.ofWord w)))
  | 9 => fastRowOf69 (w.extractLsb' 5 6).toNat w
  | 10 => some (Entry.make (.rr 0x6A .one {} (RR.ofWord w)) w (execCp (RR.ofWord w)))
  | 11 => some (Entry.make (.rr 0x6B .one { d := true } (RR.ofWord w)) w (execCpt (RR.ofWord w)))
  | 12 => some (Entry.make (.rr 0x6C .one {} (RR.ofWord w)) w (execCpo (RR.ofWord w)))
  | 13 => some (Entry.make (.rr 0x6D .one {} (RR.ofWord w)) w (execSld (RR.ofWord w)))
  | 14 => fastRowOf6E (w.extractLsb' 5 6).toNat w
  | 15 => fastRowOf6F (w.extractLsb' 5 6).toNat w
  | _ => none

/-- Majors 0x70 to 0x7F (R227), as entries. -/
def fastRowsOf7 (op : Nat) (w : Word) : Option Entry :=
  match op with
  | 0 => some (Entry.make (.rn 0x70 false .one { d := true, m := 3 } (RN.ofWord w)) w (execWaitc (RN.ofWord w)))
  | 1 => fastRowOf71 (w.extractLsb' 5 6).toNat w
  | 2 => some (Entry.make (.rn 0x72 false .any { d := true, m := 7 } (RN.ofWord w)) w (execQpush (RN.ofWord w)))
  | 3 => some (Entry.make (.rn 0x73 false .any { a := true, m := 7, ka := true, l := true } (RN.ofWord w)) w (execQpop (RN.ofWord w)))
  | 4 => some (Entry.make (.rr 0x74 .one { d := true } (RR.ofWord w)) w (execAmsg (RR.ofWord w)))
  | 5 => fastRowOf75 (w.extractLsb' 5 6).toNat w
  | 6 => fastRowOf76 (w.extractLsb' 5 6).toNat w
  | 7 => fastRowOf77 (w.extractLsb' 5 6).toNat w
  | 8 => some (Entry.make (.rr 0x78 .zero { l := true } (RR.ofWord w)) w (execMma (RR.ofWord w)))
  | 9 => some (Entry.make (.rr 0x79 .one { b := true, kb := true, eb := true, l := true } (RR.ofWord w)) w (execMloop (RR.ofWord w)))
  | 10 => some (Entry.make (.rr 0x7A .one { ka := true, ea := true, l := true } (RR.ofWord w)) w (execMscale (RR.ofWord w)))
  | 11 => fastRowOf7B (w.extractLsb' 5 6).toNat w
  | 12 => some (Entry.make (.rr 0x7C .one { d := true } (RR.ofWord w)) w (execMfactChol (RR.ofWord w)))
  | 13 => fastRowOf7D (w.extractLsb' 5 6).toNat w
  | 14 => fastRowOf7E (bitAt w 3) w
  | 15 => fastRowOf7F (w.extractLsb' 5 6).toNat w
  | _ => none

/-- The row that OP and the minor of a word name, as an entry. -/
def fastLook (w : Word) : Option Entry :=
  match (w.extractLsb' 27 3).toNat with
  | 0 => fastRowsOf0 (w.extractLsb' 23 4).toNat w
  | 1 => fastRowsOf1 (w.extractLsb' 23 4).toNat w
  | 2 => fastRowsOf2 (w.extractLsb' 23 4).toNat w
  | 3 => fastRowsOf3 (w.extractLsb' 23 4).toNat w
  | 4 => fastRowsOf4 (w.extractLsb' 23 4).toNat w
  | 5 => fastRowsOf5 (w.extractLsb' 23 4).toNat w
  | 6 => fastRowsOf6 (w.extractLsb' 23 4).toNat w
  | _ => fastRowsOf7 (w.extractLsb' 23 4).toNat w

/-! ## They are equal -/

theorem fastRowOf00_eq : ∀ (m : Nat) (w : Word),
    (rowOf00 m w).map (fun i => Entry.make i.view w (exec i)) = fastRowOf00 m w := fun m w =>
  match m with
  | 0 | 1 | 2 | 3 | 4 | _ + 5 => rfl

theorem fastRowOf16_eq : ∀ (m : Nat) (w : Word),
    (rowOf16 m w).map (fun i => Entry.make i.view w (exec i)) = fastRowOf16 m w := fun m w =>
  match m with
  | 0 | 1 | 2 | 3 | 4 | 5 | 6 | 7 | 8 | 9 | 10 | 11 | 12 | _ + 13 => rfl

theorem fastRowOf20_eq : ∀ (m : Nat) (w : Word),
    (rowOf20 m w).map (fun i => Entry.make i.view w (exec i)) = fastRowOf20 m w := fun m w =>
  match m with
  | 0 | 1 | 2 | _ + 3 => rfl

theorem fastRowOf2A_eq : ∀ (m : Nat) (w : Word),
    (rowOf2A m w).map (fun i => Entry.make i.view w (exec i)) = fastRowOf2A m w := fun m w =>
  match m with
  | 0 | 1 | 2 | 3 | 4 | 5 | 6 | 7 | 8 | _ + 9 => rfl

theorem fastRowOf3F_eq : ∀ (m : Nat) (w : Word),
    (rowOf3F m w).map (fun i => Entry.make i.view w (exec i)) = fastRowOf3F m w := fun m w =>
  match m with
  | 0 | 1 | 2 | 3 | 4 | 5 | 6 | 7 | 8 | 9 | 10 | 11 | 12 | 13 | 14 | _ + 15 => rfl

theorem fastRowOf4C_eq : ∀ (m : Nat) (w : Word),
    (rowOf4C m w).map (fun i => Entry.make i.view w (exec i)) = fastRowOf4C m w := fun m w =>
  match m with
  | 0 | 1 | 2 | 3 | 4 | 5 | 6 | 7 | 8 | 9 | 10 | 11 | 12 | 13 | 14 | 15 | 16 | 17 | 18 | 19 | 20 | 21 | 22 | 23 | 24
  | 25 | 26 | 27 | 28 | 29 | 30 | 31 | 32 | 33 | 34 | 35 | 36 | 37 | 38 | 39 | _ + 40 => rfl

theorem fastRowOf50_eq : ∀ (m : Nat) (w : Word),
    (rowOf50 m w).map (fun i => Entry.make i.view w (exec i)) = fastRowOf50 m w := fun m w =>
  match m with
  | 0 | _ + 1 => rfl

theorem fastRowOf51_eq : ∀ (m : Nat) (w : Word),
    (rowOf51 m w).map (fun i => Entry.make i.view w (exec i)) = fastRowOf51 m w := fun m w =>
  match m with
  | 0 | 1 | 2 | 3 | 4 | 5 | 6 | _ + 7 => rfl

theorem fastRowOf55_eq : ∀ (m : Nat) (w : Word),
    (rowOf55 m w).map (fun i => Entry.make i.view w (exec i)) = fastRowOf55 m w := fun m w =>
  match m with
  | 0 | _ + 1 => rfl

theorem fastRowOf56_eq : ∀ (m : Nat) (w : Word),
    (rowOf56 m w).map (fun i => Entry.make i.view w (exec i)) = fastRowOf56 m w := fun m w =>
  match m with
  | 0 | 1 | 2 | 3 | 4 | _ + 5 => rfl

theorem fastRowOf5B_eq : ∀ (m : Nat) (w : Word),
    (rowOf5B m w).map (fun i => Entry.make i.view w (exec i)) = fastRowOf5B m w := fun m w =>
  match m with
  | 0 | _ + 1 => rfl

theorem fastRowOf61_eq : ∀ (ao : Nat) (w : Word),
    (rowOf61 ao w).map (fun i => Entry.make i.view w (exec i)) = fastRowOf61 ao w := fun ao w =>
  match ao with
  | 0 | 1 | 2 | 3 | 4 | 5 | 6 | 7 | 8 | 9 | 10 | 11 | 12 | _ + 13 => rfl

theorem fastRowOf62_eq : ∀ (ao : Nat) (w : Word),
    (rowOf62 ao w).map (fun i => Entry.make i.view w (exec i)) = fastRowOf62 ao w := fun ao w =>
  match ao with
  | 0 | 1 | 2 | 3 | 4 | 5 | 6 | 7 | 8 | 9 | 10 | 11 | 12 | _ + 13 => rfl

theorem fastRowOf63_eq : ∀ (ao : Nat) (w : Word),
    (rowOf63 ao w).map (fun i => Entry.make i.view w (exec i)) = fastRowOf63 ao w := fun ao w =>
  match ao with
  | 0 | 1 | 2 | 3 | 4 | 5 | 6 | 7 | 8 | 9 | 10 | 11 | 12 | _ + 13 => rfl

theorem fastRowOf64_eq : ∀ (ao : Nat) (w : Word),
    (rowOf64 ao w).map (fun i => Entry.make i.view w (exec i)) = fastRowOf64 ao w := fun ao w =>
  match ao with
  | 0 | 1 | 2 | 3 | 4 | 5 | 6 | 7 | 8 | 9 | 10 | 11 | 12 | _ + 13 => rfl

theorem fastRowOf66_eq : ∀ (kind : Nat) (w : Word),
    (rowOf66 kind w).map (fun i => Entry.make i.view w (exec i)) = fastRowOf66 kind w := fun kind w =>
  match kind with
  | 0 | 1 | 2 | 3 | _ + 4 => rfl

theorem fastRowOf67_eq : ∀ (m : Nat) (w : Word),
    (rowOf67 m w).map (fun i => Entry.make i.view w (exec i)) = fastRowOf67 m w := fun m w =>
  match m with
  | 0 | 1 | 2 | _ + 3 => rfl

theorem fastRowOf69_eq : ∀ (m : Nat) (w : Word),
    (rowOf69 m w).map (fun i => Entry.make i.view w (exec i)) = fastRowOf69 m w := fun m w =>
  match m with
  | 0 | _ + 1 => rfl

theorem fastRowOf6E_eq : ∀ (m : Nat) (w : Word),
    (rowOf6E m w).map (fun i => Entry.make i.view w (exec i)) = fastRowOf6E m w := fun m w =>
  match m with
  | 0 | 1 | 2 | 3 | _ + 4 => rfl

theorem fastRowOf6F_eq : ∀ (m : Nat) (w : Word),
    (rowOf6F m w).map (fun i => Entry.make i.view w (exec i)) = fastRowOf6F m w := fun m w =>
  match m with
  | 0 | 1 | 2 | 3 | 4 | 5 | 6 | _ + 7 => rfl

theorem fastRowOf71_eq : ∀ (m : Nat) (w : Word),
    (rowOf71 m w).map (fun i => Entry.make i.view w (exec i)) = fastRowOf71 m w := fun m w =>
  match m with
  | 0 | 1 | 2 | _ + 3 => rfl

theorem fastRowOf75_eq : ∀ (m : Nat) (w : Word),
    (rowOf75 m w).map (fun i => Entry.make i.view w (exec i)) = fastRowOf75 m w := fun m w =>
  match m with
  | 0 | 1 | 2 | _ + 3 => rfl

theorem fastRowOf76_eq : ∀ (m : Nat) (w : Word),
    (rowOf76 m w).map (fun i => Entry.make i.view w (exec i)) = fastRowOf76 m w := fun m w =>
  match m with
  | 0 | 1 | 2 | 3 | 4 | _ + 5 => rfl

theorem fastRowOf77_eq : ∀ (m : Nat) (w : Word),
    (rowOf77 m w).map (fun i => Entry.make i.view w (exec i)) = fastRowOf77 m w := fun m w =>
  match m with
  | 0 | 1 | 2 | 3 | 4 | 5 | _ + 6 => rfl

theorem fastRowOf7B_eq : ∀ (m : Nat) (w : Word),
    (rowOf7B m w).map (fun i => Entry.make i.view w (exec i)) = fastRowOf7B m w := fun m w =>
  match m with
  | 0 | 1 | 2 | 3 | 4 | _ + 5 => rfl

theorem fastRowOf7D_eq : ∀ (m : Nat) (w : Word),
    (rowOf7D m w).map (fun i => Entry.make i.view w (exec i)) = fastRowOf7D m w := fun m w =>
  match m with
  | 0 | 1 | 2 | 3 | _ + 4 => rfl

theorem fastRowOf7E_eq : ∀ (wr : Bool) (w : Word),
    (rowOf7E wr w).map (fun i => Entry.make i.view w (exec i)) = fastRowOf7E wr w := fun wr w =>
  match wr with
  | false | true => rfl

theorem fastRowOf7F_eq : ∀ (m : Nat) (w : Word),
    (rowOf7F m w).map (fun i => Entry.make i.view w (exec i)) = fastRowOf7F m w := fun m w =>
  match m with
  | 0 | 1 | 2 | 3 | 4 | 5 | _ + 6 => rfl

theorem fastRowsOf0_eq : ∀ (op : Nat) (w : Word),
    (rowsOf0 op w).map (fun i => Entry.make i.view w (exec i)) = fastRowsOf0 op w := fun op w =>
  match op with
  | 0 => fastRowOf00_eq _ w
  | 1 | 2 | 3 | 4 | 5 | 6 | 7 | 8 | 9 | 10 | 11 | 12 | 13 | 14 | 15 | _ + 16 => rfl

theorem fastRowsOf1_eq : ∀ (op : Nat) (w : Word),
    (rowsOf1 op w).map (fun i => Entry.make i.view w (exec i)) = fastRowsOf1 op w := fun op w =>
  match op with
  | 0 | 1 | 2 | 3 | 4 | 5 => rfl
  | 6 => fastRowOf16_eq _ w
  | 7 | 8 | 9 | 10 | 11 | 12 | 13 | 14 | 15 | _ + 16 => rfl

theorem fastRowsOf2_eq : ∀ (op : Nat) (w : Word),
    (rowsOf2 op w).map (fun i => Entry.make i.view w (exec i)) = fastRowsOf2 op w := fun op w =>
  match op with
  | 0 => fastRowOf20_eq _ w
  | 1 | 2 | 3 | 4 | 5 | 6 | 7 | 8 | 9 => rfl
  | 10 => fastRowOf2A_eq _ w
  | 11 | 12 | 13 | 14 | 15 | _ + 16 => rfl

theorem fastRowsOf3_eq : ∀ (op : Nat) (w : Word),
    (rowsOf3 op w).map (fun i => Entry.make i.view w (exec i)) = fastRowsOf3 op w := fun op w =>
  match op with
  | 0 | 1 | 2 | 3 | 4 | 5 | 6 | 7 | 8 | 9 | 10 | 11 | 12 | 13 | 14 => rfl
  | 15 => fastRowOf3F_eq _ w
  | _ + 16 => rfl

theorem fastRowsOf4_eq : ∀ (op : Nat) (w : Word),
    (rowsOf4 op w).map (fun i => Entry.make i.view w (exec i)) = fastRowsOf4 op w := fun op w =>
  match op with
  | 0 | 1 | 2 | 3 | 4 | 5 | 6 | 7 | 8 | 9 | 10 | 11 => rfl
  | 12 => fastRowOf4C_eq _ w
  | 13 | 14 | 15 | _ + 16 => rfl

theorem fastRowsOf5_eq : ∀ (op : Nat) (w : Word),
    (rowsOf5 op w).map (fun i => Entry.make i.view w (exec i)) = fastRowsOf5 op w := fun op w =>
  match op with
  | 0 => fastRowOf50_eq _ w
  | 1 => fastRowOf51_eq _ w
  | 2 | 3 | 4 => rfl
  | 5 => fastRowOf55_eq _ w
  | 6 => fastRowOf56_eq _ w
  | 7 | 8 | 9 | 10 => rfl
  | 11 => fastRowOf5B_eq _ w
  | 12 | 13 | 14 | 15 | _ + 16 => rfl

theorem fastRowsOf6_eq : ∀ (op : Nat) (w : Word),
    (rowsOf6 op w).map (fun i => Entry.make i.view w (exec i)) = fastRowsOf6 op w := fun op w =>
  match op with
  | 0 => rfl
  | 1 => fastRowOf61_eq _ w
  | 2 => fastRowOf62_eq _ w
  | 3 => fastRowOf63_eq _ w
  | 4 => fastRowOf64_eq _ w
  | 5 => rfl
  | 6 => fastRowOf66_eq _ w
  | 7 => fastRowOf67_eq _ w
  | 8 => rfl
  | 9 => fastRowOf69_eq _ w
  | 10 | 11 | 12 | 13 => rfl
  | 14 => fastRowOf6E_eq _ w
  | 15 => fastRowOf6F_eq _ w
  | _ + 16 => rfl

theorem fastRowsOf7_eq : ∀ (op : Nat) (w : Word),
    (rowsOf7 op w).map (fun i => Entry.make i.view w (exec i)) = fastRowsOf7 op w := fun op w =>
  match op with
  | 0 => rfl
  | 1 => fastRowOf71_eq _ w
  | 2 | 3 | 4 => rfl
  | 5 => fastRowOf75_eq _ w
  | 6 => fastRowOf76_eq _ w
  | 7 => fastRowOf77_eq _ w
  | 8 | 9 | 10 => rfl
  | 11 => fastRowOf7B_eq _ w
  | 12 => rfl
  | 13 => fastRowOf7D_eq _ w
  | 14 => fastRowOf7E_eq _ w
  | 15 => fastRowOf7F_eq _ w
  | _ + 16 => rfl

@[csimp] theorem lookWord_eq_fastLook : lookWord = fastLook := by
  funext w
  unfold lookWord candidate fastLook
  generalize (w.extractLsb' 27 3).toNat = n
  match n with
  | 0 => exact fastRowsOf0_eq _ _
  | 1 => exact fastRowsOf1_eq _ _
  | 2 => exact fastRowsOf2_eq _ _
  | 3 => exact fastRowsOf3_eq _ _
  | 4 => exact fastRowsOf4_eq _ _
  | 5 => exact fastRowsOf5_eq _ _
  | 6 => exact fastRowsOf6_eq _ _
  | _ + 7 => exact fastRowsOf7_eq _ _

end Sys2Proof.Machine
end

