-- ==== Sys2Proof/Machine/Step.lean ====
section
/-! DEFINITION. One step of the machine: the schedule's next entry, or what happens by itself, with the meaning of each word
given by the decoder and by exec (log 1); and the placing of one word where the next step issues it (log 5). -/

namespace Sys2Proof.Machine

open Sys2Proof

/-- One step. -/
def step (s : State) : Host.Outcome State Fault Refusal := lookWord.step exec s

/-! ## One word placed for the next step (log 5) -/

/-- The entry header of the kernel that holds the word: 16 threads, 56 registers, one accumulator, four tile slots, a
trap vector at 0x10080, reads of ABSENT registers undefined, not trapped. -/
def probeHeader : Header :=
  { regs := 56, accs := 1, minSlots := 4, fusion := 0, hingedReq := false, width := 0, absm := false, round := 0, lease := 0,
    spmin := 64, fstm := 0, skeins := 0, trapv := 0x10080, handlers := 0, dspan := 0 }

/-- Its record: one team of one group, entry at 0x10000. -/
def probeRecord : Record :=
  { entry := 0x10000, frame := 0, join := 0, slots := 4, hinged := false, width := 0, groups := 1, sp := 64, gang := false,
    prio := 0, count := 1 }

/-- The page of the word: readable, writable and executable, at the physical address of its number. -/
def probePage (asid : Nat) : TlbEntry := { asid := asid, first := 16, count := 1, ppn := 16, bits := 15 }

/-- The state with a team on core 0 of cluster 0 whose first packet begins with the word, in memory and in the instruction
buffer, and whose group issues next. A team comes there by a launch of the host (R404, R23); this stands for it. -/
def State.withFetchWord (s : State) (nbits w : Nat) : State :=
  let bytes := leBytes 16 (w % 2 ^ min nbits 32)
  let launch := s.nextId
  let uid := launch + 1
  let s := s.mapSlot 0 fun sl => { sl with en := true }
  let l : Launch :=
    { id := launch, slot := 0, origin := .spawned, unplaced := 1, resident := 0, status := 0, skeins := [], fhz := 0 }
  let s : State :=
    { s with nextId := uid, mem := Memory.writeN s.mem 0x10000 bytes, tlb := probePage (s.slot 0).asid :: s.tlb,
             launches := s.launches ++ [l] }
  let s := s.placeTeam 0 0 { id := 0, record := probeRecord, hdr := probeHeader, launch := launch, slot := 0, pushed := s.now,
                             next := 0, stop := 1, prio := 0, raised := false, pin := none, msg := none, order := 0 } 0
  let s := s.mapGroup uid 0 fun g => { g with active := true }
  let part := match s.group? uid 0 with
    | some g => partOf g.lane
    | none => 0
  let line : CodeLine := { slot := 0, part := part, va := 256, bytes := bytes ++ List.replicate 240 0, used := 0 }
  { s.mapCore 0 0 fun c => { c with code := line :: c.code } with schedule := [.issue uid 0] }

end Sys2Proof.Machine
end

