-- ==== Sys2Proof/Safety.lean ====
section
/-! DEFINITION. The terms claims are stated in: a word in hand that nothing holds back, what a word does to the group that
issues it, and how the state lands after it. -/

namespace Sys2Proof.Machine

open Sys2Proof

/-! ## A word that runs -/

/-- The word of `i` is in hand in `s` for the threads of its subset, it is legal and allowed, and no register state holds
it back or makes a thread trap (R39, R216, R232, R235). -/
structure Clear (s : State) (i : Issue) (litOk : Issue → Word → Bool) (ops : List Opd) : Prop where
  cur : s.cur = some i.c
  team : s.team? i.c.uid = some i.t
  group : i.t.groups[i.c.gid]? = some i.g
  threads : i.ts = i.c.active
  base : i.base = s.free
  some : i.c.active ≠ []
  once : i.c.active.Nodup
  legal : i.v.legal i.t = true
  literal : i.v.lit = true → litOk i i.c.lit = true
  allowed : s.forbidden i.v i.t = false
  regs : ∀ k ∈ i.c.active, i.check ops k = .ready

/-- The operands of the word in hand. -/
def Issue.ops (i : Issue) : List Opd := i.v.ops i.t.hdr.groupWidth

/-- Every literal will do. -/
def anyLit (_ : Issue) (_ : Word) : Bool := true

/-! ## What a word does to its group -/

/-- What a word does: per thread, the registers it writes, those that wait for a flight, the accumulators, the flags it
raises, where it goes (the next word when nothing else), what else changes in the thread; and the g registers it writes by
their own number. -/
structure Effect where
  out : Nat → List (Nat × Word) := fun _ => []
  gout : List (Nat × Word) := []
  pend : Nat → List (Nat × Nat) := fun _ => []
  acc : Nat → List (Nat × AccCell) := fun _ => []
  flags : Nat → Word := fun _ => 0
  goto : Nat → Option DWord := fun _ => none
  edit : Nat → Thread → Thread := fun _ th => th
  quiet : Bool := false

/-- Register `n` after a word that frees `frees`, writes `out` and leaves `pend` EMPTY (R39, R40): a freed register
keeps its bits and becomes ABSENT, a written one is FULL, a pending one is EMPTY until its producer completes, any other
is as it was. -/
def newReg (frees : List Nat) (out : List (Nat × Word)) (pend : List (Nat × Nat)) (n : Nat) (r : Reg) : Reg :=
  match pend.find? fun x => x.1 == n with
  | some x => { r with st := .empty, prod := x.2 }
  | none =>
    match out.find? fun x => x.1 == n with
    | some x => { val := x.2, st := .full, prod := 0 }
    | none => if frees.contains n then { r with st := .absent, prod := 0 } else r

/-- An accumulator after a word that writes `l`. -/
def newAcc (l : List (Nat × AccCell)) (n : Nat) (a : AccCell) : AccCell := ((l.find? fun x => x.1 == n).map (·.2)).getD a

/-- A thread that has run the word: `held` is what the model remembers for log 6. -/
def Effect.thread (e : Effect) (u : Bool) (frees : List Nat) (pc : DWord) (stamp k : Nat) (held : List Word) (th : Thread) :
    Thread :=
  e.edit k
    { th with
        v := if u then th.v else th.v.mapIdx (newReg frees (e.out k) (e.pend k)),
        held := held,
        acc := th.acc.mapIdx (newAcc (e.acc k)),
        fst := th.fst ||| e.flags k,
        pc := (e.goto k).getD (nextPc pc),
        wait := .none,
        passed := none,
        popping := none,
        lastIssue := if e.quiet then th.lastIssue else stamp }

/-- The group after the word of `i`: the threads of the subset have run it, the others are as they were, and so is all
else but the g registers of a uniform word, or of one that names them. -/
def Effect.group (e : Effect) (i : Issue) (ops : List Opd) (stamp : Nat) (held : List Word) (helds : Nat → List Word)
    (g : Group) : Group :=
  { g with
      g := g.g.mapIdx (newReg (gFreesOf ops ++ if i.v.u then freesOf ops else [])
        ((if i.v.u then e.out i.first else []) ++ e.gout) (if i.v.u then e.pend i.first else [])),
      held := held,
      threads := g.threads.mapIdx fun k th =>
        if i.c.active.contains k then e.thread i.v.u (freesOf ops) i.c.pc stamp k (helds k) th else th,
      stall := none,
      failed := if g.parkPc = i.c.setPc then [] else g.failed }

/-- How the state lands: `st` is the state with what the word does outside its group; the group has run the word; the word
stays noted as the one in hand; nothing else differs but the model's own counters `nextId` and `free`. -/
def Lands (st s' : State) (i : Issue) (ops : List Opd) (e : Effect) : Prop :=
  ∃ (f : Group → Group) (held : Group → List Word) (helds : Group → Nat → List Word),
    (∀ g, f g = e.group i ops st.nextId (held g) (helds g) g) ∧
    s' = { st.mapGroup i.c.uid i.c.gid f with cur := some i.c, nextId := s'.nextId, free := s'.free }

/-! ## Completion -/

/-- Issued with nothing holding it back, the word ends in a next state where its effect has landed and nothing else has
changed. -/
def Computes (word : Instr) (e : State → Issue → Effect) : Prop :=
  ∀ (s : State) (i : Issue), i.v = word.view → Clear s i anyLit i.ops →
    ∃ s', exec word s = .next s' ∧ Lands s s' i i.ops (e s i)

/-- The same where the word also does something outside its group, and under a condition on the state and the operands. -/
def Completes (word : Instr) (litOk : Issue → Word → Bool) (pick : Issue → List Opd → List Opd) (pre : State → Issue → Prop)
    (st : State → Issue → State) (e : State → Issue → Effect) : Prop :=
  ∀ (s : State) (i : Issue), i.v = word.view → Clear s i litOk (pick i i.ops) → pre s i →
    ∃ s', exec word s = .next s' ∧ Lands (st s i) s' i (pick i i.ops) (e s i)

/-! ## Words that act on more than their group -/

/-- The operands as they stand. -/
abbrev asIs (_ : Issue) (l : List Opd) : List Opd := l

/-- The check that the literal of a word must pass at its decode (R235, R279, R313, R317, R321 to R348): every literal will do
where none is named. -/
def literalOk (word : Instr) : Issue → Word → Bool :=
  match word with
  | .ncvtP _ | .ncvtU _ => fun _ => narrowOk
  | .cp w | .cpo w | .sld w => litRef (w.d.toNat + 1)
  | .cpt w => litRef (w.a.toNat + 7)
  | .mfactChol _ => fun _ x => decide (1 ≤ x.toNat) && decide (x.toNat ≤ 32)
  | .mdrainPeer _ => fun _ x => !slotRefIllegal x
  | .mcfg _ => fun _ => mcfgOk
  | .acqr _ => fun _ x => decide (x.toNat < 2 ^ 11)
  | .xferArm _ | .latchExpect _ => fun _ x => !x.getLsbD 31
  | .sknDecl _ => sknOk 0
  | .sknJoin _ => sknOk 1
  | .sknLeave _ => sknOk 2
  | .sknStat _ => sknOk 3
  | .amsg _ => fun _ => destOk
  | .latchArriveRemote _ => fun _ x => !refIllegal x
  | .latchWait _ => fun _ x => decide (x.toNat < 2)
  | .waitc _ => fun _ x => decide (x.toNat < 2 ^ 8)
  | .qopBind _ => fun _ x => !portIllegal x
  | .hypEnter _ | .hypConfirm _ | .hypRefute _ | .hypStat _ => fun _ => handleOk
  | .csrWr w => fun _ x => w.m = 17 || csrOk w.m.toNat x
  | .sysTlbinv _ | .sysCtxsv _ | .sysCtxld _ => fun _ _ => false
  | .sysL2flush _ => fun _ x => decide (x.toNat < 3)
  | _ => anyLit

/-- The operands that a word reads and writes with the values at hand: the latch reference of a copy is read only when its
control word says so (R316), and `free` reads nothing (R240). -/
def operandsOf (word : Instr) : Issue → List Opd → List Opd :=
  match word with
  | .cp w | .cpo w | .sld w => pickRef 2 fun i => i.rd i.first (w.d.toNat + 1)
  | .cpt w => pickRef 1 fun i => i.rd i.first (w.a.toNat + 7)
  | .free _ => freeing
  | _ => asIs

/-- The word is in hand and nothing holds it back. -/
def InHand (word : Instr) (litOk : Issue → Word → Bool) (pick : Issue → List Opd → List Opd) (s : State) (i : Issue) : Prop :=
  i.v = word.view ∧ Clear s i litOk (pick i i.ops)

/-- The word ends in a next state: `e` has landed on `st`. -/
def Ends (word : Instr) (pick : Issue → List Opd → List Opd) (s : State) (i : Issue) (st : State) (e : Effect) : Prop :=
  ∃ s', exec word s = .next s' ∧ Lands st s' i (pick i i.ops) e

/-- The word has begun and stalls its group (R296): `st` with the stall noted, and nothing else. -/
def Stalls (word : Instr) (s : State) (i : Issue) (st : State) (result : Word) (waitUntil : Nat)
    (holds : List Nat := []) : Prop :=
  exec word s = .next
    { st.mapGroup i.c.uid i.c.gid (fun g => { g with
        stall := some { pc := i.c.pc, setPc := i.c.setPc, begun := true, result := result, waitUntil := waitUntil,
                         holds := holds } }) with
        cur := some { i.c with waiting := true } }

/-- The word stalls its group without having begun (R296): `st` with the stall noted, and nothing else; it is tried again. -/
def Retries (word : Instr) (s : State) (i : Issue) (st : State) : Prop :=
  exec word s = .next
    { st.mapGroup i.c.uid i.c.gid (fun g => { g with
        stall := some { pc := i.c.pc, setPc := i.c.setPc, begun := false, result := 0, waitUntil := st.now + 1 } }) with
        cur := some { i.c with waiting := true } }

/-- The group waits for `w` (R32): the threads of the subset wait, and nothing else in `st` changes. -/
def Waits (word : Instr) (s : State) (i : Issue) (st : State) (w : Wait) : Prop :=
  exec word s = .next
    { st.mapGroup i.c.uid i.c.gid (fun g => { g with
        threads := g.threads.mapIdx fun k th => if i.c.active.contains k then { th with wait := w } else th }) with
        cur := some { i.c with waiting := true } }

/-- A command is queued (R312, R314): with its counter below 255, and no acquire or unread handle before it (R58, R72), the
word ends, the command outstanding on its counter; otherwise it stalls. -/
def Queues (word : Instr) (litOk : Issue → Word → Bool) (pick : Issue → List Opd → List Opd) (cls : Nat)
    (pre : State → Issue → Prop) (op : State → Issue → EngOp) : Prop :=
  ∀ (s : State) (i : Issue), InHand word litOk pick s i → pre s i →
    (s.counter i.c.uid i.c.gid cls < 255 → s.acquiring i = false →
      Ends word pick s i { s with ops := s.ops ++ [op s i], nextId := s.nextId + 1 } {}) ∧
    (255 ≤ s.counter i.c.uid i.c.gid cls ∨ s.acquiring i = true → Retries word s i s)

/-- A loop of matrix steps is queued (R172, R174): what of its two handles can be read at issue, with no earlier access of its
threads on its way, goes with it (R58, log 38); while four loops run, its counter is at 255, or an earlier acquire, handle read
or access is outstanding, it stalls. -/
def LoopQueued (w : RR) (pre : State → Issue → Prop) (loop : Issue → Option (List Byte) → Option (List Byte) → Loop) : Prop :=
  ∀ (s : State) (i : Issue), InHand (.mloop w) anyLit asIs s i → pre s i →
    (4 ≤ s.loops i.c.uid i.c.gid ∨ 255 ≤ s.counter i.c.uid i.c.gid 1 ∨ s.acquiring i = true ∨ s.accessing i = true →
      Retries (.mloop w) s i s) ∧
    (s.loops i.c.uid i.c.gid < 4 → s.counter i.c.uid i.c.gid 1 < 255 → s.acquiring i = false → s.accessing i = false →
    let op := fun (s : State) (l : Loop) => i.op s 1 none false .running (.mloop l)
    let l := loop i none none
    let x := s.readHandle (op s l) l.aVa.toNat
    let y := x.1.readHandle (op x.1 l) l.bVa.toNat
    y.1.counter i.c.uid i.c.gid 1 < 255 → y.1.acquiring i = false →
    Ends (.mloop w) asIs s i { y.1 with ops := y.1.ops ++ [op y.1 (loop i x.2 y.2)], nextId := y.1.nextId + 1 } {})

/-- No earlier acquire of a running thread is outstanding, and every access of the word passes the checks of R294. -/
def Passes (s : State) (i : Issue) (va : Nat → DWord) (size : Nat) (acc : AccessKind) (atom : AtomKind) : Prop :=
  s.acquiring i = false ∧ ∀ x ∈ s.checks i va size acc atom, ∃ pa bits e, x.2 = .ok pa bits e

/-- The same for scratchpad addresses. -/
def SpPasses (s : State) (i : Issue) (addr : Nat → Word) (size : Nat) : Prop :=
  s.acquiring i = false ∧ ∀ x ∈ s.spChecks i addr size, ∃ h, x.2 = .inl h

/-- The scratchpad accesses that passed. -/
def spHits (s : State) (i : Issue) (addr : Nat → Word) (size : Nat) : List SpHit :=
  (s.spChecks i addr size).filterMap fun x => x.2.getLeft?

/-- A release of a class need not wait (R76). -/
def MayRelease (s : State) (i : Issue) (cls : ScopeClass) : Prop :=
  s.released i.t.cl (i.t.coreOf i.c.gid) i.c.uid i.c.gid cls = true

/-- The latch reference of a command, when it has one, is well formed and names a latch (R127). -/
def RefOk (s : State) (i : Issue) (used : Bool) (w : Word) : Prop :=
  used = true → refIllegal w = false ∧ (s.latchRef i.t w).isSome

/-- The latch of a command. -/
def refTarget (s : State) (i : Issue) (used : Bool) (w : Word) : Option LatchTarget := if used then s.latchRef i.t w else none

/-- A read of the issuing thread that passes its checks and that nothing holds back, neither an acquire or an unread handle
before it nor a confirm into the root (R58, R77, R159): the state with what the load has brought, the address, and the bytes
(R71, R188, R190). -/
def State.reads (s : State) (i : Issue) (va : DWord) (size : Nat) (acc : AccessKind) (atom : AtomKind) :
    Option (State × Nat × List Byte) :=
  match s.checkGlobal i va size acc atom 0 false with
  | .ok pa bits e =>
    if s.acquiring i ∨ s.publishing pa (min size 64) ∨ s.isPoisoned pa (min size 64) then none
    else
      let r := (s.tlbFill e).plainRead i pa bits (min size 64)
      some (r.1, pa, r.2)
  | _ => none

/-- A read of the issuing thread that cannot be resolved: it would trap (R41, R418). -/
def State.unresolvable (s : State) (i : Issue) (va : DWord) (size : Nat) : Prop :=
  ∃ c d, s.checkGlobal i va size .read .plain 0 false = .trap c d

/-- The buffered stores of the group that overlap some accesses are drained and acknowledged (R69, R71, R94). -/
def Drained (s : State) (i : Issue) (fs : List Flight) : Prop := (s.drainFor i fs).acksOut i fs = false

/-- Loads on their way: one undone access per thread, at the address its check gave; when none bypasses the store buffer,
only the TLB, the flights and their numbering differ from before, so no byte of memory does. -/
def OnTheirWay (s : State) (i : Issue) (hits : List Hit) (r : State × List Flight) (size : Nat) : Prop :=
  r.2.map (fun f => (f.thread, f.tgt)) = hits.map (fun x => (x.t, Target.mem x.pa)) ∧
  (∀ f ∈ r.2, f ∈ r.1.flights ∧ f.done = false ∧ f.size = size ∧ f.uid = i.c.uid ∧ f.gid = i.c.gid) ∧
  ((∀ f ∈ r.2, f.direct = false) → r.1 = { s with tlb := r.1.tlb, flights := s.flights ++ r.2, nextId := r.1.nextId })

/-- Stores that pass end the word (R69, R70, R300): with room for them in the store buffer the untagged ones of core
class are in it, and, once the older entries they overlap are acknowledged and no confirm into the root holds an access that
they must follow, the others are on their way with their bytes. -/
def StoresEnd (word : Instr) (s : State) (i : Issue) (st : State) (cls : ScopeClass) (l : List (Hit × List Byte)) : Prop :=
  let held := (st.core i.t.cl (i.t.coreOf i.c.gid)).sb.length
  let st' := (st.drainFor i (i.stores st cls l)).issueStores i cls l
  (held = 0 ∨ held + st.sbNeed i (l.filter fun x => i.buffers cls x) ≤ Config.storeBufferEntries) →
    Drained st i (i.stores st cls l) → (st.drainFor i (i.stores st cls l)).storesHeld i cls l = false →
    Ends word asIs s i st' {} ∧
    ((l.any fun x => !i.buffers cls x) = false → Ends word asIs s i
      { l.foldl (fun s x => s.bufferStore i x) st with nextId := (l.foldl (fun s x => s.bufferStore i x) st).nextId + 64 } {}) ∧
    ∃ fl : List Flight,
      fl.map (fun f => (f.thread, f.tgt, f.what)) =
        (l.filter fun x => !i.buffers cls x).map (fun x => (x.1.t, Target.mem x.1.pa, Access.store x.2)) ∧
      ∀ f ∈ fl, f ∈ st'.flights ∧ f.done = false ∧ f.acked = false

/-! ## Traps -/

/-- A thread that takes a trap (R42): cause, datum and address saved, the PC, of 48 bits (R203), at the vector, in the handler.
-/
def Traps (trapv : DWord) (cause : Nat) (datum : Word) (addr : DWord) (stamp : Nat) (th : Thread) : Thread :=
  { th with trapc := BitVec.ofNat 32 cause, trapa := addr, trapd := datum, pc := pcWrap trapv, inHandler := true,
            wait := .none, passed := none, popping := none, cover := 0, lastIssue := stamp }

/-- Every running thread `k` has taken the trap `why k`, its cause and datum, on `st`; nothing else in it has changed but
the driver's answers for the set, the note of the word in hand and the model's own counter. -/
def TrapLands (st s' : State) (i : Issue) (why : Nat → Nat × Word) : Prop :=
  ∃ stamp, s' =
    { st.mapGroup i.c.uid i.c.gid (fun g => { g with
        threads := g.threads.mapIdx fun k th =>
          if i.c.active.contains k then
            Traps i.t.hdr.trapv (why k).1 (why k).2 (if reported (why k).1 then i.c.pc else i.c.setPc) stamp th
          else th,
        failed := if g.parkPc = i.c.setPc then [] else g.failed }) with
      cur := s'.cur, nextId := s'.nextId, free := s'.free }

/-- The running threads can take a trap: the kernel has a vector, and they live outside a handler (R42, R43). -/
def CanTrap (i : Issue) : Prop :=
  i.t.hdr.trapv ≠ 0 ∧ ∀ k ∈ i.c.active, ∃ th, i.g.threads[k]? = some th ∧ th.live = true ∧ th.inHandler = false

/-- The word of `i` is in hand: it is the one that issues. -/
structure Issuing (s : State) (i : Issue) : Prop where
  cur : s.cur = some i.c
  team : s.team? i.c.uid = some i.t
  group : i.t.groups[i.c.gid]? = some i.g
  threads : i.ts = i.c.active
  base : i.base = s.free
  some : i.c.active ≠ []
  once : i.c.active.Nodup

/-! ## What the words that compute write, row by row -/

/-- Width and position of a field descriptor (R244). -/
def descPos (b : Word) : Nat := (b.extractLsb' 0 5).toNat
def descWidth (b : Word) : Nat := min (min (b.extractLsb' 8 6).toNat 32) (32 - descPos b)
/-- The mask of a field descriptor (R244). -/
def descMask (b : Word) : Word := BitVec.ofNat 32 ((2 ^ descWidth b - 1) * 2 ^ descPos b)

/-- 1 when a relation holds, else 0 (R247). -/
def oneIf (b : Bool) : Word := if b then 1 else 0

/-- Operand b of a pair word as 64 bits: a pair, or the literal sign-extended (R252). -/
def Issue.pairB (i : Issue) (w : RR) (k : Nat) : DWord := if w.l then i.lit.signExtend 64 else i.rd2 k w.b.toNat

/-- The lowest thread of a subset for which a test holds. -/
def lowest (ts : List Nat) (p : Nat → Bool) : Option Nat := ts.find? p

/-- The minors of R277 whose result, or whose source, is a pair. -/
def cvtPairResult (m : Nat) : Bool := [8, 14, 15, 16, 17, 22, 23, 26, 27, 29, 32, 33].contains m
def cvtPairSource (m : Nat) : Bool := [6, 7, 9, 12, 13, 16, 17, 24, 25, 26, 27, 28, 29, 30, 31].contains m

/-- The source of a conversion as 64 bits, a single register in the low ones. -/
def cvtArg (m : Nat) (w : RM) (i : Issue) (k : Nat) : DWord :=
  if w.l then i.lit.setWidth 64
  else if cvtPairSource m then i.rd2 k w.a.toNat
  else (i.rd k w.a.toNat).setWidth 64

/-! ## What holds between two steps -/

/-- Between two steps no word is in hand, and no core or cluster network that is marked lasting-faulted and holds no
team is left unretired (R442). -/
def State.Settled (s : State) : Prop :=
  s.cur = none ∧
  ∀ x ∈ s.units, x.lasting = true → (unitClass x.word = 1 ∨ unitClass x.word = 2) →
    (∀ c ∈ unitCores x.word, s.teamsOn c.1 c.2 = []) → x.retired = true

/-! ## Writes at the home slices -/

/-- From `s` to `t` a write to `n` bytes of device memory from `pa` on completes at `c`: each of its sectors completes
at the later of now and of its latest granted expiry and has that as its write time stamp afterwards, and `c` is the
latest of these times (R74). -/
def State.stampedAs (s t : State) (pa n c : Nat) : Prop :=
  (∀ sec ∈ sectorsOf pa n, max s.now (s.times sec).expiry ≤ c) ∧
    (∃ sec ∈ sectorsOf pa n, c = max s.now (s.times sec).expiry) ∧
    ∀ sec, t.times sec =
      if sec ∈ sectorsOf pa n then { s.times sec with stamp := max s.now (s.times sec).expiry } else s.times sec

end Sys2Proof.Machine
end

