-- ==== Sys2Proof/Laws/PerInstr.lean ====
section
/-! SUPPORT. What the word of an instruction carries, per format and per constructor: its row's numbers and its fields, read
back at their places (R208 to R215). -/

namespace Sys2Proof.Laws

open Sys2Proof

/-! ## Fields of a word put together from parts -/

theorem field_above {m n : Nat} (x : BitVec m) (y : BitVec n) (k len : Nat) (h : n ≤ k) :
    (x ++ y).extractLsb' k len = x.extractLsb' (k - n) len := by
  apply BitVec.eq_of_getLsbD_eq
  intro i hi
  simp only [BitVec.getLsbD_extractLsb', BitVec.getLsbD_append]
  rw [if_neg (by omega), show k + i - n = k - n + i by omega]

theorem field_within {m n : Nat} (x : BitVec m) (y : BitVec n) (k len : Nat) (h : k + len ≤ n) :
    (x ++ y).extractLsb' k len = y.extractLsb' k len := by
  apply BitVec.eq_of_getLsbD_eq
  intro i hi
  simp only [BitVec.getLsbD_extractLsb', BitVec.getLsbD_append]
  rw [if_pos (by omega)]

theorem field_whole {n : Nat} (y : BitVec n) : y.extractLsb' 0 n = y := by
  apply BitVec.eq_of_getLsbD_eq
  intro i hi
  simp [hi]

theorem bit_above {m n : Nat} (x : BitVec m) (y : BitVec n) (k : Nat) (h : n ≤ k) :
    (x ++ y).getLsbD k = x.getLsbD (k - n) := by
  rw [BitVec.getLsbD_append, if_neg (by omega)]

theorem bit_within {m n : Nat} (x : BitVec m) (y : BitVec n) (k : Nat) (h : k < n) : (x ++ y).getLsbD k = y.getLsbD k := by
  rw [BitVec.getLsbD_append, if_pos h]

theorem bit_bit (b : Bool) : (bit b).getLsbD 0 = b := by simp [bit]

/-! ## The formats -/

theorem RR.ofWord_pack (op : Nat) (w : RR) : RR.ofWord (RR.pack op w) = w := by
  cases w
  simp (disch := omega) only [RR.ofWord, RR.pack, packTop, bitAt, field_above, field_within, field_whole, bit_above, bit_within, Nat.reduceSub,
    Nat.sub_self, bit_bit]

theorem RR.pack_op (op : Nat) (w : RR) : (RR.pack op w).extractLsb' 23 7 = BitVec.ofNat 7 op := by
  simp (disch := omega) only [RR.pack, packTop, field_above, field_within, field_whole, bit_above, bit_within, Nat.reduceSub,
    Nat.sub_self, bit_bit]

theorem RM.ofWord_pack (op m : Nat) (w : RM) : RM.ofWord (RM.pack op m w) = w := by
  cases w
  simp (disch := omega) only [RM.ofWord, RM.pack, packTop, bitAt, field_above, field_within, field_whole, bit_above, bit_within, Nat.reduceSub,
    Nat.sub_self, bit_bit]

theorem RM.pack_op (op m : Nat) (w : RM) : (RM.pack op m w).extractLsb' 23 7 = BitVec.ofNat 7 op := by
  simp (disch := omega) only [RM.pack, packTop, field_above, field_within, field_whole, bit_above, bit_within, Nat.reduceSub,
    Nat.sub_self, bit_bit]

theorem RN.ofWord_pack (op : Nat) (wr : Bool) (w : RN) : RN.ofWord (RN.pack op wr w) = w := by
  cases w
  simp (disch := omega) only [RN.ofWord, RN.pack, packTop, bitAt, field_above, field_within, field_whole, bit_above, bit_within, Nat.reduceSub,
    Nat.sub_self, bit_bit]

theorem RN.pack_op (op : Nat) (wr : Bool) (w : RN) : (RN.pack op wr w).extractLsb' 23 7 = BitVec.ofNat 7 op := by
  simp (disch := omega) only [RN.pack, packTop, field_above, field_within, field_whole, bit_above, bit_within, Nat.reduceSub,
    Nat.sub_self, bit_bit]

theorem FN.ofWord_pack (kind : Nat) (w : FN) : FN.ofWord (FN.pack kind w) = w := by
  cases w
  simp (disch := omega) only [FN.ofWord, FN.pack, packTop, bitAt, field_above, field_within, field_whole, bit_above, bit_within, Nat.reduceSub,
    Nat.sub_self, bit_bit]

theorem FN.pack_op (kind : Nat) (w : FN) : (FN.pack kind w).extractLsb' 23 7 = BitVec.ofNat 7 0x66 := by
  simp (disch := omega) only [FN.pack, packTop, field_above, field_within, field_whole, bit_above, bit_within, Nat.reduceSub,
    Nat.sub_self, bit_bit]

theorem RI.ofWord_pack (op : Nat) (w : RI) : RI.ofWord (RI.pack op w) = w := by
  cases w
  simp (disch := omega) only [RI.ofWord, RI.pack, packTop, bitAt, field_above, field_within, field_whole, bit_above, bit_within, Nat.reduceSub,
    Nat.sub_self, bit_bit]

theorem RI.pack_op (op : Nat) (w : RI) : (RI.pack op w).extractLsb' 23 7 = BitVec.ofNat 7 op := by
  simp (disch := omega) only [RI.pack, packTop, field_above, field_within, field_whole, bit_above, bit_within, Nat.reduceSub,
    Nat.sub_self, bit_bit]

theorem BR.ofWord_pack (op : Nat) (w : BR) : BR.ofWord (BR.pack op w) = w := by
  cases w
  simp (disch := omega) only [BR.ofWord, BR.pack, packTop, bitAt, field_above, field_within, field_whole, bit_above, bit_within, Nat.reduceSub,
    Nat.sub_self, bit_bit]

theorem BR.pack_op (op : Nat) (w : BR) : (BR.pack op w).extractLsb' 23 7 = BitVec.ofNat 7 op := by
  simp (disch := omega) only [BR.pack, packTop, field_above, field_within, field_whole, bit_above, bit_within, Nat.reduceSub,
    Nat.sub_self, bit_bit]

theorem MEM.ofWord_pack (op : Nat) (w : MEM) : MEM.ofWord (MEM.pack op w) = w := by
  cases w
  simp (disch := omega) only [MEM.ofWord, MEM.pack, packTop, bitAt, field_above, field_within, field_whole, bit_above, bit_within, Nat.reduceSub,
    Nat.sub_self, bit_bit]

theorem MEM.pack_op (op : Nat) (w : MEM) : (MEM.pack op w).extractLsb' 23 7 = BitVec.ofNat 7 op := by
  simp (disch := omega) only [MEM.pack, packTop, field_above, field_within, field_whole, bit_above, bit_within, Nat.reduceSub,
    Nat.sub_self, bit_bit]

theorem AT.ofWord_pack (op ao : Nat) (w : AT) : AT.ofWord (AT.pack op ao w) = w := by
  cases w
  simp (disch := omega) only [AT.ofWord, AT.pack, packTop, bitAt, field_above, field_within, field_whole, bit_above, bit_within, Nat.reduceSub,
    Nat.sub_self, bit_bit]

theorem AT.pack_op (op ao : Nat) (w : AT) : (AT.pack op ao w).extractLsb' 23 7 = BitVec.ofNat 7 op := by
  simp (disch := omega) only [AT.pack, packTop, field_above, field_within, field_whole, bit_above, bit_within, Nat.reduceSub,
    Nat.sub_self, bit_bit]

theorem RM.pack_minor (op m : Nat) (w : RM) : (RM.pack op m w).extractLsb' 5 6 = BitVec.ofNat 6 m := by
  simp (disch := omega) only [RM.pack, packTop, field_above, field_within, field_whole, bit_above, bit_within, Nat.reduceSub,
    Nat.sub_self, bit_bit]

theorem RN.pack_write (op : Nat) (wr : Bool) (w : RN) : bitAt (RN.pack op wr w) 3 = wr := by
  simp (disch := omega) only [RN.pack, packTop, bitAt, field_above, field_within, field_whole, bit_above, bit_within, Nat.reduceSub,
    Nat.sub_self, bit_bit]

theorem FN.pack_kind (kind : Nat) (w : FN) : (FN.pack kind w).extractLsb' 9 2 = BitVec.ofNat 2 kind := by
  simp (disch := omega) only [FN.pack, packTop, field_above, field_within, field_whole, bit_above, bit_within, Nat.reduceSub,
    Nat.sub_self, bit_bit]

theorem AT.pack_ao (op ao : Nat) (w : AT) : (AT.pack op ao w).extractLsb' 1 4 = BitVec.ofNat 4 ao := by
  simp (disch := omega) only [AT.pack, packTop, field_above, field_within, field_whole, bit_above, bit_within, Nat.reduceSub,
    Nat.sub_self, bit_bit]

/-! ## Per instruction -/

/-- The word carries the row's major opcode, its minor number, and the instruction's fields, each at the place its format
gives (R208 to R215, R230). -/
def View.Carried (v : View) (w : Word) : Prop :=
  match v with
  | .rr op _ _ x => w.extractLsb' 23 7 = BitVec.ofNat 7 op ∧ RR.ofWord w = x
  | .rm op m _ _ x => w.extractLsb' 23 7 = BitVec.ofNat 7 op ∧ w.extractLsb' 5 6 = BitVec.ofNat 6 m ∧ RM.ofWord w = x
  | .rn op wr _ _ x => w.extractLsb' 23 7 = BitVec.ofNat 7 op ∧ bitAt w 3 = wr ∧ RN.ofWord w = x
  | .fn kind x => w.extractLsb' 23 7 = 0x66 ∧ w.extractLsb' 9 2 = BitVec.ofNat 2 kind ∧ FN.ofWord w = x
  | .ri op x => w.extractLsb' 23 7 = BitVec.ofNat 7 op ∧ RI.ofWord w = x
  | .br op _ x => w.extractLsb' 23 7 = BitVec.ofNat 7 op ∧ BR.ofWord w = x
  | .mem op _ _ x => w.extractLsb' 23 7 = BitVec.ofNat 7 op ∧ MEM.ofWord w = x
  | .at op ao x => w.extractLsb' 23 7 = BitVec.ofNat 7 op ∧ w.extractLsb' 1 4 = BitVec.ofNat 4 ao ∧ AT.ofWord w = x
  | .event => False

theorem View.carried_pack {v : View} {w : Word} (h : v.pack = some w) : View.Carried v w := by
  match v, h with
  | .rr op _ _ x, rfl => exact ⟨RR.pack_op op x, RR.ofWord_pack op x⟩
  | .rm op m _ _ x, rfl => exact ⟨RM.pack_op op m x, RM.pack_minor op m x, RM.ofWord_pack op m x⟩
  | .rn op wr _ _ x, rfl => exact ⟨RN.pack_op op wr x, RN.pack_write op wr x, RN.ofWord_pack op wr x⟩
  | .fn kind x, rfl => exact ⟨FN.pack_op kind x, FN.pack_kind kind x, FN.ofWord_pack kind x⟩
  | .ri op x, rfl => exact ⟨RI.pack_op op x, RI.ofWord_pack op x⟩
  | .br op _ x, rfl => exact ⟨BR.pack_op op x, BR.ofWord_pack op x⟩
  | .mem op _ _ x, rfl => exact ⟨MEM.pack_op op x, MEM.ofWord_pack op x⟩
  | .at op ao x, rfl => exact ⟨AT.pack_op op ao x, AT.pack_ao op ao x, AT.ofWord_pack op ao x⟩

/-- What the word of an instruction carries; an operation of the device has no word. -/
def Encoding.Statement (i : Instr) : Prop := ∀ w, encode i = some w → View.Carried i.view w

theorem Encoding.any_view {i : Instr} {v : View} (h : i.view = v) : Encoding.Statement i := by
  subst h
  exact fun _ h => View.carried_pack h

theorem Encoding.teamPlacement (cl core : Nat) : Encoding.Statement (.teamPlacement cl core) := Encoding.any_view rfl
theorem Encoding.carveReservation (cl : Nat) : Encoding.Statement (.carveReservation cl) := Encoding.any_view rfl
theorem Encoding.steal (cl : Nat) : Encoding.Statement (.steal cl) := Encoding.any_view rfl
theorem Encoding.priorityRaise (cl rid : Nat) : Encoding.Statement (.priorityRaise cl rid) := Encoding.any_view rfl
theorem Encoding.teamExit (uid : Nat) : Encoding.Statement (.teamExit uid) := Encoding.any_view rfl
theorem Encoding.joinRecordPush (jid : Nat) : Encoding.Statement (.joinRecordPush jid) := Encoding.any_view rfl
theorem Encoding.groupExchange (uid gid : Nat) : Encoding.Statement (.groupExchange uid gid) := Encoding.any_view rfl
theorem Encoding.groupTimesliceExchange (uid gid : Nat) : Encoding.Statement (.groupTimesliceExchange uid gid) := Encoding.any_view rfl
theorem Encoding.meetingRelease (uid gid : Nat) : Encoding.Statement (.meetingRelease uid gid) := Encoding.any_view rfl
theorem Encoding.producerCompletion (fid : Nat) : Encoding.Statement (.producerCompletion fid) := Encoding.any_view rfl
theorem Encoding.instructionLineFill (uid gid : Nat) (va : BitVec 64) : Encoding.Statement (.instructionLineFill uid gid va) := Encoding.any_view rfl
theorem Encoding.deadlineExpiry (uid : Nat) : Encoding.Statement (.deadlineExpiry uid) := Encoding.any_view rfl
theorem Encoding.deadlineTrap (uid gid t : Nat) : Encoding.Statement (.deadlineTrap uid gid t) := Encoding.any_view rfl
theorem Encoding.orphanTrap (uid gid t : Nat) : Encoding.Statement (.orphanTrap uid gid t) := Encoding.any_view rfl
theorem Encoding.storeBufferEntryDrain (cl core eid : Nat) : Encoding.Statement (.storeBufferEntryDrain cl core eid) := Encoding.any_view rfl
theorem Encoding.homeSliceWrite (fid : Nat) : Encoding.Statement (.homeSliceWrite fid) := Encoding.any_view rfl
theorem Encoding.writeAcknowledge (fid : Nat) : Encoding.Statement (.writeAcknowledge fid) := Encoding.any_view rfl
theorem Encoding.acqrTargetDrain (aid : Nat) : Encoding.Statement (.acqrTargetDrain aid) := Encoding.any_view rfl
theorem Encoding.acqrReport (aid : Nat) : Encoding.Statement (.acqrReport aid) := Encoding.any_view rfl
theorem Encoding.directorySnoop (pa : Nat) : Encoding.Statement (.directorySnoop pa) := Encoding.any_view rfl
theorem Encoding.writebackAcknowledge (pa : Nat) : Encoding.Statement (.writebackAcknowledge pa) := Encoding.any_view rfl
theorem Encoding.pageWalk (slot : Nat) (va : BitVec 64) (acc : AccessKind) : Encoding.Statement (.pageWalk slot va acc) := Encoding.any_view rfl
theorem Encoding.latchRemoteArrival (mid : Nat) : Encoding.Statement (.latchRemoteArrival mid) := Encoding.any_view rfl
theorem Encoding.copyCommandStart (oid : Nat) : Encoding.Statement (.copyCommandStart oid) := Encoding.any_view rfl
theorem Encoding.copyPart (oid part : Nat) : Encoding.Statement (.copyPart oid part) := Encoding.any_view rfl
theorem Encoding.commandRetire (oid : Nat) : Encoding.Statement (.commandRetire oid) := Encoding.any_view rfl
theorem Encoding.pfrLineResident (oid line : Nat) : Encoding.Statement (.pfrLineResident oid line) := Encoding.any_view rfl
theorem Encoding.skeinRequestArrival (oid : Nat) : Encoding.Statement (.skeinRequestArrival oid) := Encoding.any_view rfl
theorem Encoding.gatherTimeout (launch sk k : Nat) : Encoding.Statement (.gatherTimeout launch sk k) := Encoding.any_view rfl
theorem Encoding.skeinFillLand (oid : Nat) : Encoding.Statement (.skeinFillLand oid) := Encoding.any_view rfl
theorem Encoding.peerWordArrival (uid gid q : Nat) : Encoding.Statement (.peerWordArrival uid gid q) := Encoding.any_view rfl
theorem Encoding.matrixStep (oid : Nat) : Encoding.Statement (.matrixStep oid) := Encoding.any_view rfl
theorem Encoding.mloopOperandFetch (oid : Nat) : Encoding.Statement (.mloopOperandFetch oid) := Encoding.any_view rfl
theorem Encoding.mdrainWrite (oid part : Nat) : Encoding.Statement (.mdrainWrite oid part) := Encoding.any_view rfl
theorem Encoding.peerDrainMerge (oid : Nat) : Encoding.Statement (.peerDrainMerge oid) := Encoding.any_view rfl
theorem Encoding.mfactColumn (oid : Nat) : Encoding.Statement (.mfactColumn oid) := Encoding.any_view rfl
theorem Encoding.mtrsmRow (oid : Nat) : Encoding.Statement (.mtrsmRow oid) := Encoding.any_view rfl
theorem Encoding.amsgArrival (mid : Nat) : Encoding.Statement (.amsgArrival mid) := Encoding.any_view rfl
theorem Encoding.xferArmedFire (oid : Nat) : Encoding.Statement (.xferArmedFire oid) := Encoding.any_view rfl
theorem Encoding.xferRemoteRequest (req : RemoteRequest) : Encoding.Statement (.xferRemoteRequest req) := Encoding.any_view rfl
theorem Encoding.xferResponse (oid : Nat) (resp : XferReply) : Encoding.Statement (.xferResponse oid resp) := Encoding.any_view rfl
theorem Encoding.xferTimeout (oid : Nat) : Encoding.Statement (.xferTimeout oid) := Encoding.any_view rfl
theorem Encoding.apertureDownMessage (oid rtype : Nat) (data : List (BitVec 8)) : Encoding.Statement (.apertureDownMessage oid rtype data) := Encoding.any_view rfl
theorem Encoding.hypIdFree (slot id : Nat) : Encoding.Statement (.hypIdFree slot id) := Encoding.any_view rfl
theorem Encoding.slotEnable (p : Nat) : Encoding.Statement (.slotEnable p) := Encoding.any_view rfl
theorem Encoding.slotHold (p : Nat) (hold : Bool) : Encoding.Statement (.slotHold p hold) := Encoding.any_view rfl
theorem Encoding.slotTeardown (p : Nat) : Encoding.Statement (.slotTeardown p) := Encoding.any_view rfl
theorem Encoding.launchDoorbell (p : Nat) (idx : BitVec 32) : Encoding.Statement (.launchDoorbell p idx) := Encoding.any_view rfl
theorem Encoding.launchEntryTake (p : Nat) : Encoding.Statement (.launchEntryTake p) := Encoding.any_view rfl
theorem Encoding.launchCompletion (lid : Nat) : Encoding.Statement (.launchCompletion lid) := Encoding.any_view rfl
theorem Encoding.completionConsumed (p : Nat) (idx : BitVec 32) : Encoding.Statement (.completionConsumed p idx) := Encoding.any_view rfl
theorem Encoding.hostWindow1Write (off : Nat) (data : List (BitVec 8)) : Encoding.Statement (.hostWindow1Write off data) := Encoding.any_view rfl
theorem Encoding.hostWindow1Read (off n : Nat) : Encoding.Statement (.hostWindow1Read off n) := Encoding.any_view rfl
theorem Encoding.hostAtomicop (off : Nat) (op : HostAtomic) : Encoding.Statement (.hostAtomicop off op) := Encoding.any_view rfl
theorem Encoding.hostCxlMemAccess (pa n : Nat) (data : Option (List (BitVec 8))) : Encoding.Statement (.hostCxlMemAccess pa n data) := Encoding.any_view rfl
theorem Encoding.hostLinkTraining (cxl cache : Bool) : Encoding.Statement (.hostLinkTraining cxl cache) := Encoding.any_view rfl
theorem Encoding.resume (w : BitVec 32) : Encoding.Statement (.resume w) := Encoding.any_view rfl
theorem Encoding.fbciWrite (p : Nat) (idx : BitVec 32) : Encoding.Statement (.fbciWrite p idx) := Encoding.any_view rfl
theorem Encoding.fackRetry (p id : Nat) : Encoding.Statement (.fackRetry p id) := Encoding.any_view rfl
theorem Encoding.fackFail (p id : Nat) : Encoding.Statement (.fackFail p id) := Encoding.any_view rfl
theorem Encoding.dlnow (p : Nat) : Encoding.Statement (.dlnow p) := Encoding.any_view rfl
theorem Encoding.tlbiPage (asid : BitVec 16) : Encoding.Statement (.tlbiPage asid) := Encoding.any_view rfl
theorem Encoding.tlbiAsid (asid : BitVec 16) : Encoding.Statement (.tlbiAsid asid) := Encoding.any_view rfl
theorem Encoding.tlbiAll : Encoding.Statement (.tlbiAll) := Encoding.any_view rfl
theorem Encoding.tlbInvalidationComplete : Encoding.Statement (.tlbInvalidationComplete) := Encoding.any_view rfl
theorem Encoding.vscfgWrite (w : BitVec 32) : Encoding.Statement (.vscfgWrite w) := Encoding.any_view rfl
theorem Encoding.portEnable (m : Master) (n : Nat) : Encoding.Statement (.portEnable m n) := Encoding.any_view rfl
theorem Encoding.portDisable (m : Master) (n : Nat) : Encoding.Statement (.portDisable m n) := Encoding.any_view rfl
theorem Encoding.portTrained (n : Nat) (waves : BitVec 16) : Encoding.Statement (.portTrained n waves) := Encoding.any_view rfl
theorem Encoding.portTrainingTimeout (n : Nat) : Encoding.Statement (.portTrainingTimeout n) := Encoding.any_view rfl
theorem Encoding.wavelengthLost (u : BitVec 32) (wave : Nat) : Encoding.Statement (.wavelengthLost u wave) := Encoding.any_view rfl
theorem Encoding.linkRetryExhausted (n : Nat) : Encoding.Statement (.linkRetryExhausted n) := Encoding.any_view rfl
theorem Encoding.porterrClear (n : Nat) : Encoding.Statement (.porterrClear n) := Encoding.any_view rfl
theorem Encoding.boot : Encoding.Statement (.boot) := Encoding.any_view rfl
theorem Encoding.bootctlCommit (m : Master) : Encoding.Statement (.bootctlCommit m) := Encoding.any_view rfl
theorem Encoding.firmwareUpdate (img : FlashImage) : Encoding.Statement (.firmwareUpdate img) := Encoding.any_view rfl
theorem Encoding.spdmMeasurements : Encoding.Statement (.spdmMeasurements) := Encoding.any_view rfl
theorem Encoding.keyTake : Encoding.Statement (.keyTake) := Encoding.any_view rfl
theorem Encoding.keyRelease : Encoding.Statement (.keyRelease) := Encoding.any_view rfl
theorem Encoding.keyRenew : Encoding.Statement (.keyRenew) := Encoding.any_view rfl
theorem Encoding.status : Encoding.Statement (.status) := Encoding.any_view rfl
theorem Encoding.resetWarm : Encoding.Statement (.resetWarm) := Encoding.any_view rfl
theorem Encoding.resetCold : Encoding.Statement (.resetCold) := Encoding.any_view rfl
theorem Encoding.powerCap (w : BitVec 32) : Encoding.Statement (.powerCap w) := Encoding.any_view rfl
theorem Encoding.write (off : Nat) (w : BitVec 32) : Encoding.Statement (.write off w) := Encoding.any_view rfl
theorem Encoding.keyctlTake : Encoding.Statement (.keyctlTake) := Encoding.any_view rfl
theorem Encoding.keyctlRelease : Encoding.Statement (.keyctlRelease) := Encoding.any_view rfl
theorem Encoding.keyctlRenew : Encoding.Statement (.keyctlRenew) := Encoding.any_view rfl
theorem Encoding.keyExpiry : Encoding.Statement (.keyExpiry) := Encoding.any_view rfl
theorem Encoding.pldmSensorRead (off : Nat) : Encoding.Statement (.pldmSensorRead off) := Encoding.any_view rfl
theorem Encoding.correctedError (u : BitVec 32) (pa : Nat) : Encoding.Statement (.correctedError u pa) := Encoding.any_view rfl
theorem Encoding.uncorrectableError (u : BitVec 32) (loc : ErrorSite) : Encoding.Statement (.uncorrectableError u loc) := Encoding.any_view rfl
theorem Encoding.readmit (m : Master) (u : BitVec 32) : Encoding.Statement (.readmit m u) := Encoding.any_view rfl
theorem Encoding.pcapWrite (m : Master) (w : BitVec 32) : Encoding.Statement (.pcapWrite m w) := Encoding.any_view rfl
theorem Encoding.clockStep (cap fast : Nat) : Encoding.Statement (.clockStep cap fast) := Encoding.any_view rfl
theorem Encoding.thermalThrottle : Encoding.Statement (.thermalThrottle) := Encoding.any_view rfl
theorem Encoding.thermalTrip (sensor : Nat) : Encoding.Statement (.thermalTrip sensor) := Encoding.any_view rfl
theorem Encoding.registerWrite (m : Master) (off : Nat) (w : BitVec 64) : Encoding.Statement (.registerWrite m off w) := Encoding.any_view rfl
theorem Encoding.nop (w : RM) : Encoding.Statement (.nop w) := Encoding.any_view rfl
theorem Encoding.brk (w : RM) : Encoding.Statement (.brk w) := Encoding.any_view rfl
theorem Encoding.yield (w : RM) : Encoding.Statement (.yield w) := Encoding.any_view rfl
theorem Encoding.free (w : RM) : Encoding.Statement (.free w) := Encoding.any_view rfl
theorem Encoding.wtime (w : RM) : Encoding.Statement (.wtime w) := Encoding.any_view rfl
theorem Encoding.add (w : RR) : Encoding.Statement (.add w) := Encoding.any_view rfl
theorem Encoding.sub (w : RR) : Encoding.Statement (.sub w) := Encoding.any_view rfl
theorem Encoding.mullo (w : RR) : Encoding.Statement (.mullo w) := Encoding.any_view rfl
theorem Encoding.mulhiS (w : RR) : Encoding.Statement (.mulhiS w) := Encoding.any_view rfl
theorem Encoding.mulhiZ (w : RR) : Encoding.Statement (.mulhiZ w) := Encoding.any_view rfl
theorem Encoding.mad (w : RR) : Encoding.Statement (.mad w) := Encoding.any_view rfl
theorem Encoding.minS (w : RR) : Encoding.Statement (.minS w) := Encoding.any_view rfl
theorem Encoding.minZ (w : RR) : Encoding.Statement (.minZ w) := Encoding.any_view rfl
theorem Encoding.maxS (w : RR) : Encoding.Statement (.maxS w) := Encoding.any_view rfl
theorem Encoding.maxZ (w : RR) : Encoding.Statement (.maxZ w) := Encoding.any_view rfl
theorem Encoding.and (w : RR) : Encoding.Statement (.and w) := Encoding.any_view rfl
theorem Encoding.or (w : RR) : Encoding.Statement (.or w) := Encoding.any_view rfl
theorem Encoding.xor (w : RR) : Encoding.Statement (.xor w) := Encoding.any_view rfl
theorem Encoding.andn (w : RR) : Encoding.Statement (.andn w) := Encoding.any_view rfl
theorem Encoding.shl (w : RR) : Encoding.Statement (.shl w) := Encoding.any_view rfl
theorem Encoding.shr (w : RR) : Encoding.Statement (.shr w) := Encoding.any_view rfl
theorem Encoding.sar (w : RR) : Encoding.Statement (.sar w) := Encoding.any_view rfl
theorem Encoding.rot (w : RR) : Encoding.Statement (.rot w) := Encoding.any_view rfl
theorem Encoding.bfeZ (w : RR) : Encoding.Statement (.bfeZ w) := Encoding.any_view rfl
theorem Encoding.bfeS (w : RR) : Encoding.Statement (.bfeS w) := Encoding.any_view rfl
theorem Encoding.bfi (w : RR) : Encoding.Statement (.bfi w) := Encoding.any_view rfl
theorem Encoding.not (w : RM) : Encoding.Statement (.not w) := Encoding.any_view rfl
theorem Encoding.neg (w : RM) : Encoding.Statement (.neg w) := Encoding.any_view rfl
theorem Encoding.abs (w : RM) : Encoding.Statement (.abs w) := Encoding.any_view rfl
theorem Encoding.popc (w : RM) : Encoding.Statement (.popc w) := Encoding.any_view rfl
theorem Encoding.clz (w : RM) : Encoding.Statement (.clz w) := Encoding.any_view rfl
theorem Encoding.ctz (w : RM) : Encoding.Statement (.ctz w) := Encoding.any_view rfl
theorem Encoding.brev (w : RM) : Encoding.Statement (.brev w) := Encoding.any_view rfl
theorem Encoding.sext8 (w : RM) : Encoding.Statement (.sext8 w) := Encoding.any_view rfl
theorem Encoding.sext16 (w : RM) : Encoding.Statement (.sext16 w) := Encoding.any_view rfl
theorem Encoding.zext8 (w : RM) : Encoding.Statement (.zext8 w) := Encoding.any_view rfl
theorem Encoding.zext16 (w : RM) : Encoding.Statement (.zext16 w) := Encoding.any_view rfl
theorem Encoding.mov (w : RM) : Encoding.Statement (.mov w) := Encoding.any_view rfl
theorem Encoding.bswap (w : RM) : Encoding.Statement (.bswap w) := Encoding.any_view rfl
theorem Encoding.sel (w : RR) : Encoding.Statement (.sel w) := Encoding.any_view rfl
theorem Encoding.cmpEq (w : RR) : Encoding.Statement (.cmpEq w) := Encoding.any_view rfl
theorem Encoding.cmpNe (w : RR) : Encoding.Statement (.cmpNe w) := Encoding.any_view rfl
theorem Encoding.cmpLtS (w : RR) : Encoding.Statement (.cmpLtS w) := Encoding.any_view rfl
theorem Encoding.cmpLeS (w : RR) : Encoding.Statement (.cmpLeS w) := Encoding.any_view rfl
theorem Encoding.cmpLtZ (w : RR) : Encoding.Statement (.cmpLtZ w) := Encoding.any_view rfl
theorem Encoding.cmpLeZ (w : RR) : Encoding.Statement (.cmpLeZ w) := Encoding.any_view rfl
theorem Encoding.lea (w : RR) : Encoding.Statement (.lea w) := Encoding.any_view rfl
theorem Encoding.addi (w : RI) : Encoding.Statement (.addi w) := Encoding.any_view rfl
theorem Encoding.movl (w : RM) : Encoding.Statement (.movl w) := Encoding.any_view rfl
theorem Encoding.movpc (w : RM) : Encoding.Statement (.movpc w) := Encoding.any_view rfl
theorem Encoding.mov64 (w : RM) : Encoding.Statement (.mov64 w) := Encoding.any_view rfl
theorem Encoding.movg (w : RN) : Encoding.Statement (.movg w) := Encoding.any_view rfl
theorem Encoding.movtg (w : RN) : Encoding.Statement (.movtg w) := Encoding.any_view rfl
theorem Encoding.add64 (w : RR) : Encoding.Statement (.add64 w) := Encoding.any_view rfl
theorem Encoding.sub64 (w : RR) : Encoding.Statement (.sub64 w) := Encoding.any_view rfl
theorem Encoding.lea64 (w : RR) : Encoding.Statement (.lea64 w) := Encoding.any_view rfl
theorem Encoding.xidx (w : RR) : Encoding.Statement (.xidx w) := Encoding.any_view rfl
theorem Encoding.xup (w : RR) : Encoding.Statement (.xup w) := Encoding.any_view rfl
theorem Encoding.xdown (w : RR) : Encoding.Statement (.xdown w) := Encoding.any_view rfl
theorem Encoding.xxor (w : RR) : Encoding.Statement (.xxor w) := Encoding.any_view rfl
theorem Encoding.any (w : RM) : Encoding.Statement (.any w) := Encoding.any_view rfl
theorem Encoding.all (w : RM) : Encoding.Statement (.all w) := Encoding.any_view rfl
theorem Encoding.ballotLo (w : RM) : Encoding.Statement (.ballotLo w) := Encoding.any_view rfl
theorem Encoding.ballotHi (w : RM) : Encoding.Statement (.ballotHi w) := Encoding.any_view rfl
theorem Encoding.count (w : RM) : Encoding.Statement (.count w) := Encoding.any_view rfl
theorem Encoding.elect (w : RM) : Encoding.Statement (.elect w) := Encoding.any_view rfl
theorem Encoding.xmatch (w : RM) : Encoding.Statement (.xmatch w) := Encoding.any_view rfl
theorem Encoding.scanAdd (w : RM) : Encoding.Statement (.scanAdd w) := Encoding.any_view rfl
theorem Encoding.sumAdd (w : RM) : Encoding.Statement (.sumAdd w) := Encoding.any_view rfl
theorem Encoding.rget (w : RR) : Encoding.Statement (.rget w) := Encoding.any_view rfl
theorem Encoding.rput (w : RR) : Encoding.Statement (.rput w) := Encoding.any_view rfl
theorem Encoding.br (w : BR) : Encoding.Statement (.br w) := Encoding.any_view rfl
theorem Encoding.bnz (w : BR) : Encoding.Statement (.bnz w) := Encoding.any_view rfl
theorem Encoding.bz (w : BR) : Encoding.Statement (.bz w) := Encoding.any_view rfl
theorem Encoding.call (w : BR) : Encoding.Statement (.call w) := Encoding.any_view rfl
theorem Encoding.jmpi (w : BR) : Encoding.Statement (.jmpi w) := Encoding.any_view rfl
theorem Encoding.meet (w : BR) : Encoding.Statement (.meet w) := Encoding.any_view rfl
theorem Encoding.exit (w : BR) : Encoding.Statement (.exit w) := Encoding.any_view rfl
theorem Encoding.trap (w : RN) : Encoding.Statement (.trap w) := Encoding.any_view rfl
theorem Encoding.fadd (w : RR) : Encoding.Statement (.fadd w) := Encoding.any_view rfl
theorem Encoding.fsub (w : RR) : Encoding.Statement (.fsub w) := Encoding.any_view rfl
theorem Encoding.fmul (w : RR) : Encoding.Statement (.fmul w) := Encoding.any_view rfl
theorem Encoding.ffma (w : RR) : Encoding.Statement (.ffma w) := Encoding.any_view rfl
theorem Encoding.fmin (w : RR) : Encoding.Statement (.fmin w) := Encoding.any_view rfl
theorem Encoding.fmax (w : RR) : Encoding.Statement (.fmax w) := Encoding.any_view rfl
theorem Encoding.fcmpEq (w : RR) : Encoding.Statement (.fcmpEq w) := Encoding.any_view rfl
theorem Encoding.fcmpLt (w : RR) : Encoding.Statement (.fcmpLt w) := Encoding.any_view rfl
theorem Encoding.fcmpLe (w : RR) : Encoding.Statement (.fcmpLe w) := Encoding.any_view rfl
theorem Encoding.fcmpUn (w : RR) : Encoding.Statement (.fcmpUn w) := Encoding.any_view rfl
theorem Encoding.fabs (w : RM) : Encoding.Statement (.fabs w) := Encoding.any_view rfl
theorem Encoding.fneg (w : RM) : Encoding.Statement (.fneg w) := Encoding.any_view rfl
theorem Encoding.rcp (w : RM) : Encoding.Statement (.rcp w) := Encoding.any_view rfl
theorem Encoding.rsq (w : RM) : Encoding.Statement (.rsq w) := Encoding.any_view rfl
theorem Encoding.sqrt (w : RM) : Encoding.Statement (.sqrt w) := Encoding.any_view rfl
theorem Encoding.exp2 (w : RM) : Encoding.Statement (.exp2 w) := Encoding.any_view rfl
theorem Encoding.log2 (w : RM) : Encoding.Statement (.log2 w) := Encoding.any_view rfl
theorem Encoding.sin (w : RM) : Encoding.Statement (.sin w) := Encoding.any_view rfl
theorem Encoding.cos (w : RM) : Encoding.Statement (.cos w) := Encoding.any_view rfl
theorem Encoding.trunc (w : RM) : Encoding.Statement (.trunc w) := Encoding.any_view rfl
theorem Encoding.floor (w : RM) : Encoding.Statement (.floor w) := Encoding.any_view rfl
theorem Encoding.ceil (w : RM) : Encoding.Statement (.ceil w) := Encoding.any_view rfl
theorem Encoding.rint (w : RM) : Encoding.Statement (.rint w) := Encoding.any_view rfl
theorem Encoding.frac (w : RM) : Encoding.Statement (.frac w) := Encoding.any_view rfl
theorem Encoding.class (w : RM) : Encoding.Statement (.class w) := Encoding.any_view rfl
theorem Encoding.fdiv (w : RR) : Encoding.Statement (.fdiv w) := Encoding.any_view rfl
theorem Encoding.badd (w : RR) : Encoding.Statement (.badd w) := Encoding.any_view rfl
theorem Encoding.bmul (w : RR) : Encoding.Statement (.bmul w) := Encoding.any_view rfl
theorem Encoding.bfma (w : RR) : Encoding.Statement (.bfma w) := Encoding.any_view rfl
theorem Encoding.bmin (w : RR) : Encoding.Statement (.bmin w) := Encoding.any_view rfl
theorem Encoding.bmax (w : RR) : Encoding.Statement (.bmax w) := Encoding.any_view rfl
theorem Encoding.hadd (w : RR) : Encoding.Statement (.hadd w) := Encoding.any_view rfl
theorem Encoding.hmul (w : RR) : Encoding.Statement (.hmul w) := Encoding.any_view rfl
theorem Encoding.hfma (w : RR) : Encoding.Statement (.hfma w) := Encoding.any_view rfl
theorem Encoding.dadd (w : RR) : Encoding.Statement (.dadd w) := Encoding.any_view rfl
theorem Encoding.dmul (w : RR) : Encoding.Statement (.dmul w) := Encoding.any_view rfl
theorem Encoding.dfma (w : RR) : Encoding.Statement (.dfma w) := Encoding.any_view rfl
theorem Encoding.cvtF32F16 (w : RM) : Encoding.Statement (.cvtF32F16 w) := Encoding.any_view rfl
theorem Encoding.cvtF32F16Hi (w : RM) : Encoding.Statement (.cvtF32F16Hi w) := Encoding.any_view rfl
theorem Encoding.cvtF32Bf16 (w : RM) : Encoding.Statement (.cvtF32Bf16 w) := Encoding.any_view rfl
theorem Encoding.cvtF32Bf16Hi (w : RM) : Encoding.Statement (.cvtF32Bf16Hi w) := Encoding.any_view rfl
theorem Encoding.cvtF16F32 (w : RM) : Encoding.Statement (.cvtF16F32 w) := Encoding.any_view rfl
theorem Encoding.cvtBf16F32 (w : RM) : Encoding.Statement (.cvtBf16F32 w) := Encoding.any_view rfl
theorem Encoding.cvtF16x2F32 (w : RM) : Encoding.Statement (.cvtF16x2F32 w) := Encoding.any_view rfl
theorem Encoding.cvtBf16x2F32 (w : RM) : Encoding.Statement (.cvtBf16x2F32 w) := Encoding.any_view rfl
theorem Encoding.cvtF64F32 (w : RM) : Encoding.Statement (.cvtF64F32 w) := Encoding.any_view rfl
theorem Encoding.cvtF32F64 (w : RM) : Encoding.Statement (.cvtF32F64 w) := Encoding.any_view rfl
theorem Encoding.cvtF32S32 (w : RM) : Encoding.Statement (.cvtF32S32 w) := Encoding.any_view rfl
theorem Encoding.cvtF32Z32 (w : RM) : Encoding.Statement (.cvtF32Z32 w) := Encoding.any_view rfl
theorem Encoding.cvtF32S64 (w : RM) : Encoding.Statement (.cvtF32S64 w) := Encoding.any_view rfl
theorem Encoding.cvtF32Z64 (w : RM) : Encoding.Statement (.cvtF32Z64 w) := Encoding.any_view rfl
theorem Encoding.cvtF64S32 (w : RM) : Encoding.Statement (.cvtF64S32 w) := Encoding.any_view rfl
theorem Encoding.cvtF64Z32 (w : RM) : Encoding.Statement (.cvtF64Z32 w) := Encoding.any_view rfl
theorem Encoding.cvtF64S64 (w : RM) : Encoding.Statement (.cvtF64S64 w) := Encoding.any_view rfl
theorem Encoding.cvtF64Z64 (w : RM) : Encoding.Statement (.cvtF64Z64 w) := Encoding.any_view rfl
theorem Encoding.cvtS32F32 (w : RM) : Encoding.Statement (.cvtS32F32 w) := Encoding.any_view rfl
theorem Encoding.cvtZ32F32 (w : RM) : Encoding.Statement (.cvtZ32F32 w) := Encoding.any_view rfl
theorem Encoding.cvtS32F32Rz (w : RM) : Encoding.Statement (.cvtS32F32Rz w) := Encoding.any_view rfl
theorem Encoding.cvtZ32F32Rz (w : RM) : Encoding.Statement (.cvtZ32F32Rz w) := Encoding.any_view rfl
theorem Encoding.cvtS64F32 (w : RM) : Encoding.Statement (.cvtS64F32 w) := Encoding.any_view rfl
theorem Encoding.cvtZ64F32 (w : RM) : Encoding.Statement (.cvtZ64F32 w) := Encoding.any_view rfl
theorem Encoding.cvtS32F64 (w : RM) : Encoding.Statement (.cvtS32F64 w) := Encoding.any_view rfl
theorem Encoding.cvtZ32F64 (w : RM) : Encoding.Statement (.cvtZ32F64 w) := Encoding.any_view rfl
theorem Encoding.cvtS64F64 (w : RM) : Encoding.Statement (.cvtS64F64 w) := Encoding.any_view rfl
theorem Encoding.cvtZ64F64 (w : RM) : Encoding.Statement (.cvtZ64F64 w) := Encoding.any_view rfl
theorem Encoding.cvtS32F64Rz (w : RM) : Encoding.Statement (.cvtS32F64Rz w) := Encoding.any_view rfl
theorem Encoding.cvtS64F64Rz (w : RM) : Encoding.Statement (.cvtS64F64Rz w) := Encoding.any_view rfl
theorem Encoding.cvtF16F64 (w : RM) : Encoding.Statement (.cvtF16F64 w) := Encoding.any_view rfl
theorem Encoding.cvtBf16F64 (w : RM) : Encoding.Statement (.cvtBf16F64 w) := Encoding.any_view rfl
theorem Encoding.cvtF64F16 (w : RM) : Encoding.Statement (.cvtF64F16 w) := Encoding.any_view rfl
theorem Encoding.cvtF64Bf16 (w : RM) : Encoding.Statement (.cvtF64Bf16 w) := Encoding.any_view rfl
theorem Encoding.cvtBf16F16 (w : RM) : Encoding.Statement (.cvtBf16F16 w) := Encoding.any_view rfl
theorem Encoding.cvtF16Bf16 (w : RM) : Encoding.Statement (.cvtF16Bf16 w) := Encoding.any_view rfl
theorem Encoding.cvtS8F32 (w : RM) : Encoding.Statement (.cvtS8F32 w) := Encoding.any_view rfl
theorem Encoding.cvtZ8F32 (w : RM) : Encoding.Statement (.cvtZ8F32 w) := Encoding.any_view rfl
theorem Encoding.cvtS16F32 (w : RM) : Encoding.Statement (.cvtS16F32 w) := Encoding.any_view rfl
theorem Encoding.cvtZ16F32 (w : RM) : Encoding.Statement (.cvtZ16F32 w) := Encoding.any_view rfl
theorem Encoding.ncvtP (w : RR) : Encoding.Statement (.ncvtP w) := Encoding.any_view rfl
theorem Encoding.ncvtU (w : RR) : Encoding.Statement (.ncvtU w) := Encoding.any_view rfl
theorem Encoding.fscale (w : RR) : Encoding.Statement (.fscale w) := Encoding.any_view rfl
theorem Encoding.lclr (w : RM) : Encoding.Statement (.lclr w) := Encoding.any_view rfl
theorem Encoding.laddF32 (w : RM) : Encoding.Statement (.laddF32 w) := Encoding.any_view rfl
theorem Encoding.laddBf16Lo (w : RM) : Encoding.Statement (.laddBf16Lo w) := Encoding.any_view rfl
theorem Encoding.laddBf16Hi (w : RM) : Encoding.Statement (.laddBf16Hi w) := Encoding.any_view rfl
theorem Encoding.laddF16Lo (w : RM) : Encoding.Statement (.laddF16Lo w) := Encoding.any_view rfl
theorem Encoding.laddF16Hi (w : RM) : Encoding.Statement (.laddF16Hi w) := Encoding.any_view rfl
theorem Encoding.laddS32 (w : RM) : Encoding.Statement (.laddS32 w) := Encoding.any_view rfl
theorem Encoding.laddZ32 (w : RM) : Encoding.Statement (.laddZ32 w) := Encoding.any_view rfl
theorem Encoding.lfma (w : RR) : Encoding.Statement (.lfma w) := Encoding.any_view rfl
theorem Encoding.lfmab (w : RR) : Encoding.Statement (.lfmab w) := Encoding.any_view rfl
theorem Encoding.lmerge (w : RR) : Encoding.Statement (.lmerge w) := Encoding.any_view rfl
theorem Encoding.lnorm (w : RM) : Encoding.Statement (.lnorm w) := Encoding.any_view rfl
theorem Encoding.lrndF32 (w : RM) : Encoding.Statement (.lrndF32 w) := Encoding.any_view rfl
theorem Encoding.lrndBf16 (w : RM) : Encoding.Statement (.lrndBf16 w) := Encoding.any_view rfl
theorem Encoding.lrndF16 (w : RM) : Encoding.Statement (.lrndF16 w) := Encoding.any_view rfl
theorem Encoding.lrndF64 (w : RM) : Encoding.Statement (.lrndF64 w) := Encoding.any_view rfl
theorem Encoding.lrndS32 (w : RM) : Encoding.Statement (.lrndS32 w) := Encoding.any_view rfl
theorem Encoding.lsh (w : RR) : Encoding.Statement (.lsh w) := Encoding.any_view rfl
theorem Encoding.lst (w : MEM) : Encoding.Statement (.lst w) := Encoding.any_view rfl
theorem Encoding.lld (w : MEM) : Encoding.Statement (.lld w) := Encoding.any_view rfl
theorem Encoding.lred (w : MEM) : Encoding.Statement (.lred w) := Encoding.any_view rfl
theorem Encoding.lgred (w : RM) : Encoding.Statement (.lgred w) := Encoding.any_view rfl
theorem Encoding.lseg (w : RN) : Encoding.Statement (.lseg w) := Encoding.any_view rfl
theorem Encoding.ldg (w : MEM) : Encoding.Statement (.ldg w) := Encoding.any_view rfl
theorem Encoding.stg (w : MEM) : Encoding.Statement (.stg w) := Encoding.any_view rfl
theorem Encoding.lds (w : MEM) : Encoding.Statement (.lds w) := Encoding.any_view rfl
theorem Encoding.sts (w : MEM) : Encoding.Statement (.sts w) := Encoding.any_view rfl
theorem Encoding.atgAdd (w : AT) : Encoding.Statement (.atgAdd w) := Encoding.any_view rfl
theorem Encoding.atgSub (w : AT) : Encoding.Statement (.atgSub w) := Encoding.any_view rfl
theorem Encoding.atgMinS (w : AT) : Encoding.Statement (.atgMinS w) := Encoding.any_view rfl
theorem Encoding.atgMinZ (w : AT) : Encoding.Statement (.atgMinZ w) := Encoding.any_view rfl
theorem Encoding.atgMaxS (w : AT) : Encoding.Statement (.atgMaxS w) := Encoding.any_view rfl
theorem Encoding.atgMaxZ (w : AT) : Encoding.Statement (.atgMaxZ w) := Encoding.any_view rfl
theorem Encoding.atgAnd (w : AT) : Encoding.Statement (.atgAnd w) := Encoding.any_view rfl
theorem Encoding.atgOr (w : AT) : Encoding.Statement (.atgOr w) := Encoding.any_view rfl
theorem Encoding.atgXor (w : AT) : Encoding.Statement (.atgXor w) := Encoding.any_view rfl
theorem Encoding.atgSwap (w : AT) : Encoding.Statement (.atgSwap w) := Encoding.any_view rfl
theorem Encoding.atgCas (w : AT) : Encoding.Statement (.atgCas w) := Encoding.any_view rfl
theorem Encoding.atgIncWrap (w : AT) : Encoding.Statement (.atgIncWrap w) := Encoding.any_view rfl
theorem Encoding.atgDecWrap (w : AT) : Encoding.Statement (.atgDecWrap w) := Encoding.any_view rfl
theorem Encoding.atgArAdd (w : AT) : Encoding.Statement (.atgArAdd w) := Encoding.any_view rfl
theorem Encoding.atgArSub (w : AT) : Encoding.Statement (.atgArSub w) := Encoding.any_view rfl
theorem Encoding.atgArMinS (w : AT) : Encoding.Statement (.atgArMinS w) := Encoding.any_view rfl
theorem Encoding.atgArMinZ (w : AT) : Encoding.Statement (.atgArMinZ w) := Encoding.any_view rfl
theorem Encoding.atgArMaxS (w : AT) : Encoding.Statement (.atgArMaxS w) := Encoding.any_view rfl
theorem Encoding.atgArMaxZ (w : AT) : Encoding.Statement (.atgArMaxZ w) := Encoding.any_view rfl
theorem Encoding.atgArAnd (w : AT) : Encoding.Statement (.atgArAnd w) := Encoding.any_view rfl
theorem Encoding.atgArOr (w : AT) : Encoding.Statement (.atgArOr w) := Encoding.any_view rfl
theorem Encoding.atgArXor (w : AT) : Encoding.Statement (.atgArXor w) := Encoding.any_view rfl
theorem Encoding.atgArSwap (w : AT) : Encoding.Statement (.atgArSwap w) := Encoding.any_view rfl
theorem Encoding.atgArCas (w : AT) : Encoding.Statement (.atgArCas w) := Encoding.any_view rfl
theorem Encoding.atgArIncWrap (w : AT) : Encoding.Statement (.atgArIncWrap w) := Encoding.any_view rfl
theorem Encoding.atgArDecWrap (w : AT) : Encoding.Statement (.atgArDecWrap w) := Encoding.any_view rfl
theorem Encoding.atgSysAdd (w : AT) : Encoding.Statement (.atgSysAdd w) := Encoding.any_view rfl
theorem Encoding.atgSysSub (w : AT) : Encoding.Statement (.atgSysSub w) := Encoding.any_view rfl
theorem Encoding.atgSysMinS (w : AT) : Encoding.Statement (.atgSysMinS w) := Encoding.any_view rfl
theorem Encoding.atgSysMinZ (w : AT) : Encoding.Statement (.atgSysMinZ w) := Encoding.any_view rfl
theorem Encoding.atgSysMaxS (w : AT) : Encoding.Statement (.atgSysMaxS w) := Encoding.any_view rfl
theorem Encoding.atgSysMaxZ (w : AT) : Encoding.Statement (.atgSysMaxZ w) := Encoding.any_view rfl
theorem Encoding.atgSysAnd (w : AT) : Encoding.Statement (.atgSysAnd w) := Encoding.any_view rfl
theorem Encoding.atgSysOr (w : AT) : Encoding.Statement (.atgSysOr w) := Encoding.any_view rfl
theorem Encoding.atgSysXor (w : AT) : Encoding.Statement (.atgSysXor w) := Encoding.any_view rfl
theorem Encoding.atgSysSwap (w : AT) : Encoding.Statement (.atgSysSwap w) := Encoding.any_view rfl
theorem Encoding.atgSysCas (w : AT) : Encoding.Statement (.atgSysCas w) := Encoding.any_view rfl
theorem Encoding.atgSysIncWrap (w : AT) : Encoding.Statement (.atgSysIncWrap w) := Encoding.any_view rfl
theorem Encoding.atgSysDecWrap (w : AT) : Encoding.Statement (.atgSysDecWrap w) := Encoding.any_view rfl
theorem Encoding.atsAdd (w : AT) : Encoding.Statement (.atsAdd w) := Encoding.any_view rfl
theorem Encoding.atsSub (w : AT) : Encoding.Statement (.atsSub w) := Encoding.any_view rfl
theorem Encoding.atsMinS (w : AT) : Encoding.Statement (.atsMinS w) := Encoding.any_view rfl
theorem Encoding.atsMinZ (w : AT) : Encoding.Statement (.atsMinZ w) := Encoding.any_view rfl
theorem Encoding.atsMaxS (w : AT) : Encoding.Statement (.atsMaxS w) := Encoding.any_view rfl
theorem Encoding.atsMaxZ (w : AT) : Encoding.Statement (.atsMaxZ w) := Encoding.any_view rfl
theorem Encoding.atsAnd (w : AT) : Encoding.Statement (.atsAnd w) := Encoding.any_view rfl
theorem Encoding.atsOr (w : AT) : Encoding.Statement (.atsOr w) := Encoding.any_view rfl
theorem Encoding.atsXor (w : AT) : Encoding.Statement (.atsXor w) := Encoding.any_view rfl
theorem Encoding.atsSwap (w : AT) : Encoding.Statement (.atsSwap w) := Encoding.any_view rfl
theorem Encoding.atsCas (w : AT) : Encoding.Statement (.atsCas w) := Encoding.any_view rfl
theorem Encoding.atsIncWrap (w : AT) : Encoding.Statement (.atsIncWrap w) := Encoding.any_view rfl
theorem Encoding.atsDecWrap (w : AT) : Encoding.Statement (.atsDecWrap w) := Encoding.any_view rfl
theorem Encoding.acas16 (w : RR) : Encoding.Statement (.acas16 w) := Encoding.any_view rfl
theorem Encoding.fenceAcq (w : FN) : Encoding.Statement (.fenceAcq w) := Encoding.any_view rfl
theorem Encoding.fenceRel (w : FN) : Encoding.Statement (.fenceRel w) := Encoding.any_view rfl
theorem Encoding.fenceFull (w : FN) : Encoding.Statement (.fenceFull w) := Encoding.any_view rfl
theorem Encoding.cacheL1inv (w : RM) : Encoding.Statement (.cacheL1inv w) := Encoding.any_view rfl
theorem Encoding.cacheDrain (w : RM) : Encoding.Statement (.cacheDrain w) := Encoding.any_view rfl
theorem Encoding.cachePfl (w : RM) : Encoding.Statement (.cachePfl w) := Encoding.any_view rfl
theorem Encoding.pfr (w : RR) : Encoding.Statement (.pfr w) := Encoding.any_view rfl
theorem Encoding.acqr (w : RM) : Encoding.Statement (.acqr w) := Encoding.any_view rfl
theorem Encoding.cp (w : RR) : Encoding.Statement (.cp w) := Encoding.any_view rfl
theorem Encoding.cpt (w : RR) : Encoding.Statement (.cpt w) := Encoding.any_view rfl
theorem Encoding.cpo (w : RR) : Encoding.Statement (.cpo w) := Encoding.any_view rfl
theorem Encoding.sld (w : RR) : Encoding.Statement (.sld w) := Encoding.any_view rfl
theorem Encoding.sknDecl (w : RM) : Encoding.Statement (.sknDecl w) := Encoding.any_view rfl
theorem Encoding.sknJoin (w : RM) : Encoding.Statement (.sknJoin w) := Encoding.any_view rfl
theorem Encoding.sknLeave (w : RM) : Encoding.Statement (.sknLeave w) := Encoding.any_view rfl
theorem Encoding.sknStat (w : RM) : Encoding.Statement (.sknStat w) := Encoding.any_view rfl
theorem Encoding.latchInit (w : RM) : Encoding.Statement (.latchInit w) := Encoding.any_view rfl
theorem Encoding.latchExpect (w : RM) : Encoding.Statement (.latchExpect w) := Encoding.any_view rfl
theorem Encoding.latchArrive (w : RM) : Encoding.Statement (.latchArrive w) := Encoding.any_view rfl
theorem Encoding.latchArriveRemote (w : RM) : Encoding.Statement (.latchArriveRemote w) := Encoding.any_view rfl
theorem Encoding.latchWait (w : RM) : Encoding.Statement (.latchWait w) := Encoding.any_view rfl
theorem Encoding.latchTest (w : RM) : Encoding.Statement (.latchTest w) := Encoding.any_view rfl
theorem Encoding.latchInval (w : RM) : Encoding.Statement (.latchInval w) := Encoding.any_view rfl
theorem Encoding.waitc (w : RN) : Encoding.Statement (.waitc w) := Encoding.any_view rfl
theorem Encoding.qopBind (w : RM) : Encoding.Statement (.qopBind w) := Encoding.any_view rfl
theorem Encoding.qopUnbind (w : RM) : Encoding.Statement (.qopUnbind w) := Encoding.any_view rfl
theorem Encoding.qopStat (w : RM) : Encoding.Statement (.qopStat w) := Encoding.any_view rfl
theorem Encoding.qpush (w : RN) : Encoding.Statement (.qpush w) := Encoding.any_view rfl
theorem Encoding.qpop (w : RN) : Encoding.Statement (.qpop w) := Encoding.any_view rfl
theorem Encoding.amsg (w : RR) : Encoding.Statement (.amsg w) := Encoding.any_view rfl
theorem Encoding.spawn (w : RM) : Encoding.Statement (.spawn w) := Encoding.any_view rfl
theorem Encoding.spawnGang (w : RM) : Encoding.Statement (.spawnGang w) := Encoding.any_view rfl
theorem Encoding.spawnJoin (w : RM) : Encoding.Statement (.spawnJoin w) := Encoding.any_view rfl
theorem Encoding.xferPut (w : RM) : Encoding.Statement (.xferPut w) := Encoding.any_view rfl
theorem Encoding.xferPutred (w : RM) : Encoding.Statement (.xferPutred w) := Encoding.any_view rfl
theorem Encoding.xferGet (w : RM) : Encoding.Statement (.xferGet w) := Encoding.any_view rfl
theorem Encoding.xferArm (w : RM) : Encoding.Statement (.xferArm w) := Encoding.any_view rfl
theorem Encoding.xferDisarm (w : RM) : Encoding.Statement (.xferDisarm w) := Encoding.any_view rfl
theorem Encoding.hypNew (w : RM) : Encoding.Statement (.hypNew w) := Encoding.any_view rfl
theorem Encoding.hypEnter (w : RM) : Encoding.Statement (.hypEnter w) := Encoding.any_view rfl
theorem Encoding.hypLeave (w : RM) : Encoding.Statement (.hypLeave w) := Encoding.any_view rfl
theorem Encoding.hypConfirm (w : RM) : Encoding.Statement (.hypConfirm w) := Encoding.any_view rfl
theorem Encoding.hypRefute (w : RM) : Encoding.Statement (.hypRefute w) := Encoding.any_view rfl
theorem Encoding.hypStat (w : RM) : Encoding.Statement (.hypStat w) := Encoding.any_view rfl
theorem Encoding.mma (w : RR) : Encoding.Statement (.mma w) := Encoding.any_view rfl
theorem Encoding.mloop (w : RR) : Encoding.Statement (.mloop w) := Encoding.any_view rfl
theorem Encoding.mscale (w : RR) : Encoding.Statement (.mscale w) := Encoding.any_view rfl
theorem Encoding.mdrainR (w : RM) : Encoding.Statement (.mdrainR w) := Encoding.any_view rfl
theorem Encoding.mdrainSp (w : RM) : Encoding.Statement (.mdrainSp w) := Encoding.any_view rfl
theorem Encoding.mdrainGl (w : RM) : Encoding.Statement (.mdrainGl w) := Encoding.any_view rfl
theorem Encoding.mdrainPeer (w : RM) : Encoding.Statement (.mdrainPeer w) := Encoding.any_view rfl
theorem Encoding.mdrainQ (w : RM) : Encoding.Statement (.mdrainQ w) := Encoding.any_view rfl
theorem Encoding.mfactChol (w : RR) : Encoding.Statement (.mfactChol w) := Encoding.any_view rfl
theorem Encoding.mzero (w : RM) : Encoding.Statement (.mzero w) := Encoding.any_view rfl
theorem Encoding.mcfg (w : RM) : Encoding.Statement (.mcfg w) := Encoding.any_view rfl
theorem Encoding.mtrsm (w : RM) : Encoding.Statement (.mtrsm w) := Encoding.any_view rfl
theorem Encoding.mstat (w : RM) : Encoding.Statement (.mstat w) := Encoding.any_view rfl
theorem Encoding.csrRd (w : RN) : Encoding.Statement (.csrRd w) := Encoding.any_view rfl
theorem Encoding.csrWr (w : RN) : Encoding.Statement (.csrWr w) := Encoding.any_view rfl
theorem Encoding.sysEret (w : RM) : Encoding.Statement (.sysEret w) := Encoding.any_view rfl
theorem Encoding.sysCtxsv (w : RM) : Encoding.Statement (.sysCtxsv w) := Encoding.any_view rfl
theorem Encoding.sysCtxld (w : RM) : Encoding.Statement (.sysCtxld w) := Encoding.any_view rfl
theorem Encoding.sysTlbinv (w : RM) : Encoding.Statement (.sysTlbinv w) := Encoding.any_view rfl
theorem Encoding.sysL2flush (w : RM) : Encoding.Statement (.sysL2flush w) := Encoding.any_view rfl
theorem Encoding.sysHalt (w : RM) : Encoding.Statement (.sysHalt w) := Encoding.any_view rfl
theorem Encoding.hostHomeAgentSnoop (pa : Nat) : Encoding.Statement (.hostHomeAgentSnoop pa) := Encoding.any_view rfl
theorem Encoding.powerLoss : Encoding.Statement (.powerLoss) := Encoding.any_view rfl

end Sys2Proof.Laws
end

