-- ==== Sys2Proof/Certificates/Slice0/Obligations.lean ====
section
/-! DEFINITION. The statements. A statement rests on the rules its docstring names; values the model chose are named with
their log entry. -/

open Sys2Proof
open Sys2Proof.Machine

/-- ADD, SUB, MULLO, MULHI_S, MULHI_Z, MIN_S, MIN_Z, MAX_S, MAX_Z, AND, OR, XOR, ANDN and MAD, issued with nothing
holding them back, complete: each running thread (a uniform word: once, in the g registers) gets in register D the
result of the row on a, b (and, for MAD, the old d); registers marked K that are not written become ABSENT; every
other register, flag, accumulator, special register, thread, team and byte of memory is as before, and the PC goes
to the next word. (R242.) -/
def Obligations.IntegerArithmetic : Prop :=
  (∀ row ∈ ([(.add, fun a b => a + b), (.sub, fun a b => a - b), (.mullo, fun a b => a * b),
   (.mulhiS, fun a b => (a.signExtend 64 * b.signExtend 64).extractLsb' 32 32),
   (.mulhiZ, fun a b => (a.setWidth 64 * b.setWidth 64).extractLsb' 32 32),
   (.minS, fun a b => if a.toInt ≤ b.toInt then a else b), (.minZ, fun a b => if a.toNat ≤ b.toNat then a else b),
   (.maxS, fun a b => if a.toInt ≤ b.toInt then b else a), (.maxZ, fun a b => if a.toNat ≤ b.toNat then b else a),
   (.and, fun a b => a &&& b), (.or, fun a b => a ||| b), (.xor, fun a b => a ^^^ b), (.andn, fun a b => a &&& ~~~b)] : List ((RR → Instr) × (Word → Word → Word))), ∀ w : RR, Computes (row.1 w) fun _ i => { out := fun k => [(w.d.toNat, row.2 (i.rd k w.a.toNat) (i.srcB w k))] }) ∧
  ∀ w : RR, Computes (.mad w) fun _ i => { out := fun k => [(w.d.toNat, i.rd k w.d.toNat + i.rd k w.a.toNat * i.srcB w k)] }

/-- SHL, SHR, SAR and ROT complete with the results of R243 for every amount b, amounts of 32 and more among them, and
change nothing else. (R243.) -/
def Obligations.IntegerShifts : Prop :=
  ∀ row ∈ ([(.shl, fun a b => if b.toNat < 32 then a <<< b.toNat else 0),
   (.shr, fun a b => if b.toNat < 32 then a >>> b.toNat else 0),
   (.sar, fun a b => if b.toNat < 32 then a.sshiftRight b.toNat else if a.msb then 0xFFFFFFFF else 0),
   (.rot, fun a b => a.rotateLeft (b.toNat % 32))] : List ((RR → Instr) × (Word → Word → Word))), ∀ w : RR, Computes (row.1 w) fun _ i => { out := fun k => [(w.d.toNat, row.2 (i.rd k w.a.toNat) (i.srcB w k))] }

/-- BFE_Z, BFE_S and BFI complete with the results of R244 for every field descriptor b, of width 0 too, and change
nothing else. (R244.) -/
def Obligations.FieldWords : Prop :=
  (∀ row ∈ ([(.bfeZ, fun a b => (a &&& descMask b) >>> descPos b),
   (.bfeS, fun a b => if descWidth b = 0 then 0
     else (((a &&& descMask b) >>> descPos b).setWidth (descWidth b)).signExtend 32)] : List ((RR → Instr) × (Word → Word → Word))), ∀ w : RR, Computes (row.1 w) fun _ i => { out := fun k => [(w.d.toNat, row.2 (i.rd k w.a.toNat) (i.srcB w k))] }) ∧
  ∀ w : RR, Computes (.bfi w) fun _ i =>
    { out := fun k =>
        [(w.d.toNat, (i.rd k w.d.toNat &&& ~~~descMask (i.srcB w k)) ||| ((i.rd k w.a.toNat <<< descPos (i.srcB w k)) &&& descMask (i.srcB w k)))] }

/-- NOT, NEG, ABS, POPC, CLZ, CTZ, BREV, SEXT8, SEXT16, ZEXT8, ZEXT16, MOV and BSWAP complete with the results of R245
on the register or the literal, and change nothing else. (R245.) -/
def Obligations.UnaryWords : Prop :=
  ∀ row ∈ ([(.not, fun a => ~~~a), (.neg, fun a => 0 - a), (.abs, fun a => if a.getLsbD 31 then 0 - a else a),
   (.popc, fun a => BitVec.ofNat 32 ((List.range 32).filter fun k => a.getLsbD k).length),
   (.clz, fun a => BitVec.ofNat 32 (((List.range 32).takeWhile fun k => !a.getLsbD (31 - k)).length)),
   (.ctz, fun a => BitVec.ofNat 32 (((List.range 32).takeWhile fun k => !a.getLsbD k).length)),
   (.brev, fun a => a.reverse), (.sext8, fun a => (a.setWidth 8).signExtend 32), (.sext16, fun a => (a.setWidth 16).signExtend 32),
   (.zext8, fun a => a &&& 0xFF), (.zext16, fun a => a &&& 0xFFFF), (.mov, fun a => a),
   (.bswap, fun a => BitVec.ofNat 32 (leNat [a.extractLsb' 24 8, a.extractLsb' 16 8, a.extractLsb' 8 8, a.extractLsb' 0 8]))] : List ((RM → Instr) × (Word → Word))), ∀ w : RM, Computes (row.1 w) fun _ i => { out := fun k => [(w.d.toNat, row.2 (i.srcA w k))] }

/-- SEL writes a when the old d is not 0 and b when it is 0; CMP_EQ, CMP_NE, CMP_LT_S, CMP_LE_S, CMP_LT_Z and CMP_LE_Z
write 1 when their relation holds and 0 otherwise; each completes and changes nothing else. (R246, R247.) -/
def Obligations.SelectAndCompare : Prop :=
  (∀ w : RR, Computes (.sel w) fun _ i =>
    { out := fun k =>
        [(w.d.toNat, if i.rd k w.d.toNat ≠ 0 then i.rd k w.a.toNat else i.srcB w k)] }) ∧
  ∀ row ∈ ([(.cmpEq, fun a b => decide (a = b)), (.cmpNe, fun a b => decide (a ≠ b)), (.cmpLtS, fun a b => decide (a.toInt < b.toInt)),
   (.cmpLeS, fun a b => decide (a.toInt ≤ b.toInt)), (.cmpLtZ, fun a b => decide (a.toNat < b.toNat)),
   (.cmpLeZ, fun a b => decide (a.toNat ≤ b.toNat))] : List ((RR → Instr) × (Word → Word → Bool))), ∀ w : RR, Computes (row.1 w) fun _ i => { out := fun k => [(w.d.toNat, oneIf (row.2 (i.rd k w.a.toNat) (i.srcB w k)))] }

/-- LEA writes a + (b << 2), ADDI a plus the signed immediate, ADD64 and SUB64 the sum and difference of pairs (the
literal sign-extended), LEA64 pair a plus zero-extended b, the low word in D and the high one in D + 1; each
completes and changes nothing else. (R248, R252.) -/
def Obligations.AddressWords : Prop :=
  (∀ w : RR, Computes (.lea w) fun _ i => { out := fun k => [(w.d.toNat, i.rd k w.a.toNat + 4 * i.srcB w k)] }) ∧
  (∀ w : RI, Computes (.addi w) fun _ i => { out := fun k => [(w.d.toNat, i.rd k w.a.toNat + w.i.signExtend 32)] }) ∧
  (∀ w : RR, Computes (.add64 w) fun _ i => { out := fun k => pairOf w.d.toNat (i.rd2 k w.a.toNat + i.pairB w k) }) ∧
  (∀ w : RR, Computes (.sub64 w) fun _ i => { out := fun k => pairOf w.d.toNat (i.rd2 k w.a.toNat - i.pairB w k) }) ∧
  ∀ w : RR, Computes (.lea64 w) fun _ i => { out := fun k => pairOf w.d.toNat (i.rd2 k w.a.toNat + (i.srcB w k).setWidth 64) }

/-- MOVL, MOVPC, MOV64 and MOVG complete with the values of R249 and R250, MOVTG writes the lowest running thread's a
(or the literal) into g[M] (R251), WTIME writes the global time into a pair (R241); nothing else changes. (R241,
R249, R250, R251.) -/
def Obligations.MoveWords : Prop :=
  (∀ w : RM, Computes (.movl w) fun _ i => { out := fun _ => [(w.d.toNat, i.lit)] }) ∧
  (∀ w : RM, Computes (.movpc w) fun _ i =>
    { out := fun _ =>
        pairOf w.d.toNat (packetOf i.c.pc + if w.l then i.lit.signExtend 64 else 0) }) ∧
  (∀ w : RM, Computes (.mov64 w) fun _ i =>
    { out := fun k =>
        pairOf w.d.toNat (if w.l then i.lit.signExtend 64 else i.rd2 k w.a.toNat) }) ∧
  (∀ w : RN, Computes (.movg w) fun _ i => { out := fun _ => [(w.d.toNat, i.rdG w.m.toNat)] }) ∧
  (∀ w : RN, Computes (.movtg w) fun _ i => { gout := [(w.m.toNat, if w.l then i.lit else i.rd i.first w.a.toNat)] }) ∧
  ∀ w : RM, Computes (.wtime w) fun s _ => { out := fun _ => pairOf w.d.toNat (BitVec.ofNat 64 s.now) }

/-- NOP only moves the PC on and does not count as an issue (R204); FREE makes its register ABSENT without reading it
(R240); YIELD exchanges the group for the oldest ready pending group of its lane, and changes nothing but the PC
when there is none (R239). (R204, R239, R240.) -/
def Obligations.MiscWords : Prop :=
  (∀ w : RM, Computes (.nop w) fun _ _ => { quiet := true }) ∧
  (∀ w : RM, Completes (.free w) anyLit freeing (fun _ _ => True) (fun s _ => s) fun _ _ => {}) ∧
  (∀ w : RM, Completes (.yield w) anyLit (fun _ l => l) (fun _ _ => True) (fun s i => s.exchange i.c.uid i.c.gid) fun _ _ => {}) ∧
  (∀ (s : State) (uid gid : Nat) (t : Team) (g : Group), s.team? uid = some t → t.groups[gid]? = some g →
    s.oldestReady t gid g = none → s.exchange uid gid = s)

/-- XIDX, XUP, XDOWN and XXOR write to each running thread t the value R38 gives for the thread j that the word names
(e, t - e, t + e, t XOR e), and change nothing else: 0 or the literal when j lies outside the group, 0 when thread j
has exited, its register A when it runs the word, else its register A if FULL and 0 otherwise. (R38, R253, R254.) -/
def Obligations.CrossReads : Prop :=
  ∀ row ∈ ([(.xidx, fun _ e => e), (.xup, fun t e => t - e), (.xdown, fun t e => t + e)] : List ((RR → Instr) × (Int → Int → Int))),
  ∀ w : RR, (Computes (row.1 w) fun _ i =>
    { out := fun k =>
        [(w.d.toNat, i.other w.a.toNat (if w.l then i.lit else 0)
      (row.2 k (if w.l then w.b.toNat else (i.rd k w.b.toNat).toInt)))] }) ∧
  Computes (.xxor w) fun _ i =>
    { out := fun k =>
        [(w.d.toNat, i.other w.a.toNat (if w.l then i.lit else 0) ((k ^^^ (if w.l then w.b.toNat else (i.rd k w.b.toNat).toNat) : Nat) : Int))] }

/-- ANY, ALL, BALLOT_LO, BALLOT_HI, COUNT, ELECT, MATCH, SCAN_ADD and SUM_ADD write the values of R256 over the running
threads of the subset, and change nothing else. (R255, R256.) -/
def Obligations.VoteWords : Prop :=
  (∀ row ∈ ([(.any, fun ts a _ => oneIf (ts.any fun t => a t != 0)), (.all, fun ts a _ => oneIf (ts.all fun t => a t != 0)),
   (.count, fun ts a _ => BitVec.ofNat 32 (ts.countP fun t => a t != 0)),
   (.elect, fun ts a k => oneIf (lowest ts (fun t => a t != 0) == some k)),
   (.xmatch, fun ts a k => BitVec.ofNat 32 ((lowest ts fun t => a t == a k).getD k)),
   (.scanAdd, fun ts a k => ((ts.filter fun t => t ≤ k).map a).sum), (.sumAdd, fun ts a _ => (ts.map a).sum)] : List ((RM → Instr) × (List Nat → (Nat → Word) → Nat → Word))),
  ∀ w : RM, Computes (row.1 w) fun _ i => { out := fun k => [(w.d.toNat, row.2 i.c.active (i.srcA w) k)] }) ∧
  ∀ w : RM, (Computes (.ballotLo w) fun _ i => { out := fun _ => [(w.d.toNat, (ballot i w).extractLsb' 0 32)] }) ∧
  Computes (.ballotHi w) fun _ i => { out := fun _ => [(w.d.toNat, (ballot i w).extractLsb' 32 32)] }

/-- When every index is that of a register of the kernel and no v_k blocks, RGET writes v_k to D within one bank, and
over several banks it is a long-latency producer whose D is EMPTY until v_k arrives; it waits while some v_k is
EMPTY; RPUT writes D into v_k within one bank, and over several banks v_k is EMPTY until D arrives; it waits while
an older producer of some v_k is outstanding; nothing else changes. When every running thread's index is out of
range or, for RGET, names an ABSENT register in trap mode, each takes ILLEGAL with the word, or REG_ABSENT with k.
(R257, R258, R259.) -/
def Obligations.IndirectWords : Prop :=
  (∀ (w : RR) (s : State) (i : Issue), i.v = (Instr.rget w).view → Clear s i anyLit i.ops →
    let reg := fun k => i.regState k (i.index w k).toNat
    let oneBank := ∀ k ∈ i.c.active, ∀ m ∈ i.c.active, i.index w k % 4 = i.index w m % 4
    let good := fun k => i.indexOk w k = true ∧ (reg k).st ≠ .empty ∧ ((reg k).st = .absent → i.c.snap.absm = 0)
    let why := fun k => if i.indexOk w k = true then (0x02, BitVec.ofNat 32 (i.index w k).toNat) else (0x01, i.c.word)
    ((∀ k ∈ i.c.active, good k ∧ (i.regState k w.d.toNat).prod = 0) → oneBank →
      ∃ s', exec (.rget w) s = .next s' ∧ Lands s s' i i.ops { out := fun k => [(w.d.toNat, i.rd k (i.index w k).toNat)] }) ∧
    ((∀ k ∈ i.c.active, good k) → ¬oneBank →
      ∃ s' fl, exec (.rget w) s = .next s' ∧ fl.map (fun f => (f.thread, f.done, f.what)) =
          i.c.active.map (fun k => (k, true, Access.regs w.d.toNat [i.rd k (i.index w k).toNat])) ∧
        (∀ f ∈ fl, f.uid = i.c.uid ∧ f.gid = i.c.gid) ∧
        Lands { s with flights := s.flights ++ fl, nextId := s.nextId + fl.length + 64 } s' i i.ops
          { pend := fun k => (fl.filter fun f => f.thread == k).map fun f => (w.d.toNat, f.id) }) ∧
    ((∃ k ∈ i.c.active, i.indexOk w k = true ∧ (reg k).st = .empty) → Waits (.rget w) s i s .reg) ∧
    (CanTrap i → (∀ k ∈ i.c.active, i.indexOk w k = false ∨ (reg k).st = .absent ∧ i.c.snap.absm ≠ 0) →
      ∃ s', exec (.rget w) s = .next s' ∧ TrapLands s s' i why)) ∧
  ∀ (w : RR) (s : State) (i : Issue), i.v = (Instr.rput w).view → Clear s i anyLit i.ops →
    let n := fun k => (i.index w k).toNat
    let oneBank := ∀ k ∈ i.c.active, ∀ m ∈ i.c.active, i.index w k % 4 = i.index w m % 4
    let good := ∀ k ∈ i.c.active, i.indexOk w k = true ∧ (i.regState k (n k)).prod = 0
    (good → oneBank → ∃ s', exec (.rput w) s = .next s' ∧ Lands s s' i i.ops { out := fun k => [(n k, i.rd k w.d.toNat)] }) ∧
    (good → ¬oneBank →
      ∃ s' fl, exec (.rput w) s = .next s' ∧ fl.map (fun f => (f.thread, f.done, f.what)) =
          i.c.active.map (fun k => (k, true, Access.regs (n k) [i.rd k w.d.toNat])) ∧
        (∀ f ∈ fl, f.uid = i.c.uid ∧ f.gid = i.c.gid) ∧
        Lands { s with flights := s.flights ++ fl, nextId := s.nextId + fl.length + 64 } s' i i.ops
          { pend := fun k => (fl.filter fun f => f.thread == k).map fun f => (n k, f.id) }) ∧
    ((∃ k ∈ i.c.active, i.indexOk w k = true ∧ (i.regState k (n k)).prod ≠ 0) → Waits (.rput w) s i s .reg) ∧
    (CanTrap i → (∀ k ∈ i.c.active, i.indexOk w k = false) →
      ∃ s', exec (.rput w) s = .next s' ∧ TrapLands s s' i fun _ => (0x01, i.c.word))

/-- BR goes to the target packet, BNZ and BZ go there in the threads whose register is not 0 or is 0 and on in the
others, CALL also writes the address of the next packet to the link pair, JMPI goes to the address in the pair when
its bits [3:0] and [63:48] are 0, and takes MISALIGN with its low word when they are not, MEET sets the meeting
register; nothing else changes. That the target and the next packet are taken modulo 2^48 is the model's choice (log
61): R203 gives the PC 48 bits and R212 says nothing of a sum beyond them. (R203, R212, R261 to R264.) -/
def Obligations.ControlTransfers : Prop :=
  (∀ w : BR, Computes (.br w) fun _ i => { goto := fun _ => some (branchTarget i.c.pc w.t) }) ∧
  (∀ w : BR, Computes (.bnz w) fun _ i =>
    { goto := fun k => if i.rd (i.one k) w.a.toNat ≠ 0 then some (branchTarget i.c.pc w.t) else none }) ∧
  (∀ w : BR, Computes (.bz w) fun _ i =>
    { goto := fun k => if i.rd (i.one k) w.a.toNat = 0 then some (branchTarget i.c.pc w.t) else none }) ∧
  (∀ w : BR, Computes (.call w) fun _ i =>
    { out := fun _ => pairOf w.a.toNat (pcWrap (packetOf i.c.pc + 16)), goto := fun _ => some (branchTarget i.c.pc w.t) }) ∧
  (∀ w : BR, Completes (.jmpi w) anyLit (fun _ l => l)
    (fun _ i => ∀ k ∈ i.c.active,
      (i.rd2 (i.one k) w.a.toNat).extractLsb' 0 4 = 0 ∧ (i.rd2 (i.one k) w.a.toNat).extractLsb' 48 16 = 0)
    (fun s _ => s) fun _ i => { goto := fun k => some (i.rd2 (i.one k) w.a.toNat) }) ∧
  (∀ (w : BR) (s : State) (i : Issue), InHand (.jmpi w) anyLit asIs s i → CanTrap i →
    (∀ k ∈ i.c.active, ¬((i.rd2 (i.one k) w.a.toNat).extractLsb' 0 4 = 0 ∧ (i.rd2 (i.one k) w.a.toNat).extractLsb' 48 16 = 0)) →
    ∃ s', exec (.jmpi w) s = .next s' ∧ TrapLands s s' i fun k => (0x04, (i.rd2 (i.one k) w.a.toNat).extractLsb' 0 32)) ∧
  (∀ w : BR, Computes (.meet w) fun _ i => { edit := fun _ th => { th with meet := branchTarget i.c.pc w.t } }) ∧
  ∀ (pc : DWord) (t : BitVec 17), branchTarget pc t = (packetOf pc + 16 * t.signExtend 64) &&& 0xFFFFFFFFFFFF ∧
    pcWrap pc = pc &&& 0xFFFFFFFFFFFF

/-- When no running thread has an enabled flag set, EXIT ends each of them: it is no longer live, its v registers are
ABSENT; the other threads and everything outside the group are as before. (R45, R265.) -/
def Obligations.ExitEndsThreads : Prop :=
  ∀ w : BR, Completes (.exit w) anyLit (fun _ l => l)
    (fun _ i => ∀ k ∈ i.c.active, ∃ th, i.thread? k = some th ∧ th.fst &&& i.g.fstm = 0)
    (fun s i => s.mapGroup i.c.uid i.c.gid fun g => { g with lastExit := i.c.pc })
    fun _ _ =>
      { edit := fun _ th =>
          { th with
              live := false, v := th.v.map (fun r => { r with st := .absent, prod := 0 }),
              acc := th.acc.map (fun a => { a with prod := 0 }), wait := .none, dlPend := none, orphan := false } }

/-- FADD, FSUB, FMUL, FDIV, FMIN, FMAX, the four FCMP words, FSCALE, and the packed BADD, BMUL, BMIN, BMAX, HADD and
HMUL write the value their format gives for a and b in the mode of csr round, OR the flags of that operation into
fst, and change nothing else; so do the fused FFMA, BFMA and HFMA with the old d. (R105, R269, R271, R272, R275,
R281.) -/
def Obligations.FloatWords : Prop :=
  (∀ row ∈ ([(.fadd, fpAdd), (.fsub, fpSub), (.fmul, fpMul), (.fdiv, fpDiv), (.fmin, fun _ => fpMin), (.fmax, fun _ => fpMax),
   (.fcmpEq, fun _ => fpEq), (.fcmpLt, fun _ => fpLt), (.fcmpLe, fun _ => fpLe), (.fcmpUn, fun _ => fpUn), (.fscale, fpScale),
   (.badd, fun m => packedBin bf16 (bf16.add m)), (.bmul, fun m => packedBin bf16 (bf16.mul m)),
   (.bmin, fun _ => packedMinmax bf16 false), (.bmax, fun _ => packedMinmax bf16 true),
   (.hadd, fun m => packedBin fp16 (fp16.add m)), (.hmul, fun m => packedBin fp16 (fp16.mul m))] : List ((RR → Instr) × (RMode → Word → Word → WordFl))),
  ∀ w : RR, Computes (row.1 w) fun _ i =>
    { out := fun k => [(w.d.toNat, (row.2 (modeOf i.g.round) (i.rd k w.a.toNat) (i.srcB w k)).1)],
      flags := fun k => (row.2 (modeOf i.g.round) (i.rd (if i.v.u then i.first else k) w.a.toNat)
        (i.srcB w (if i.v.u then i.first else k))).2 }) ∧
  ∀ row ∈ ([(.ffma, fpFma), (.bfma, packedFma bf16), (.hfma, packedFma fp16)] : List ((RR → Instr) × (RMode → Word → Word → Word → WordFl))),
  ∀ w : RR, Computes (row.1 w) fun _ i =>
    { out := fun k => [(w.d.toNat, (row.2 (modeOf i.g.round) (i.rd k w.a.toNat) (i.srcB w k) (i.rd k w.d.toNat)).1)],
      flags := fun k => (row.2 (modeOf i.g.round) (i.rd (if i.v.u then i.first else k) w.a.toNat)
        (i.srcB w (if i.v.u then i.first else k)) (i.rd (if i.v.u then i.first else k) w.d.toNat)).2 }

/-- FABS, FNEG, RCP, RSQ, SQRT, EXP2, LOG2, SIN, COS, TRUNC, FLOOR, CEIL, RINT, FRAC and CLASS write the value of their
function on the register or the literal, OR its flags into fst, and change nothing else. (R273, R274.) -/
def Obligations.FloatFunctions : Prop :=
  ∀ row ∈ ([(.fabs, fun _ a => (a &&& 0x7FFFFFFF, 0)), (.fneg, fun _ a => (a ^^^ 0x80000000, 0)), (.rcp, fpFn .rcp), (.rsq, fpFn .rsq),
   (.sqrt, fpFn .sqrt), (.exp2, fpFn .exp2), (.log2, fpFn .log2), (.sin, fpFn .sin), (.cos, fpFn .cos),
   (.trunc, fun _ => fpIntegral .rz false), (.floor, fun _ => fpIntegral .rd false), (.ceil, fun _ => fpIntegral .rp false),
   (.rint, fun m => fpIntegral m true), (.frac, fun _ => fpFrac), (.class, fun _ a => (fpClass a, 0))] : List ((RM → Instr) × (RMode → Word → WordFl))),
  ∀ w : RM, Computes (row.1 w) fun _ i =>
    { out := fun k => [(w.d.toNat, (row.2 (modeOf i.g.round) (i.srcA w k)).1)],
      flags := fun k => (row.2 (modeOf i.g.round) (i.srcA w (if i.v.u then i.first else k))).2 }

/-- DADD, DMUL and DFMA write the FP64 result on pairs (a literal b read as FP32) with one rounding, OR its flags into
fst, and change nothing else. (R269, R275.) -/
def Obligations.DoubleWords : Prop :=
  (∀ row ∈ ([(.dadd, dpAdd), (.dmul, dpMul)] : List ((RR → Instr) × (RMode → FVal → FVal → DWordFl))), ∀ w : RR,
    Computes (row.1 w) fun _ i =>
      { out := fun k => pairOf w.d.toNat (row.2 (modeOf i.g.round) (fp64.read (i.rd2 k w.a.toNat).toNat) (i.dsrcB w k)).1,
        flags := fun k => (row.2 (modeOf i.g.round) (fp64.read (i.rd2 (if i.v.u then i.first else k) w.a.toNat).toNat)
          (i.dsrcB w (if i.v.u then i.first else k))).2 }) ∧
  ∀ w : RR, Computes (.dfma w) fun _ i =>
      { out := fun k => pairOf w.d.toNat (dpFma (modeOf i.g.round) (fp64.read (i.rd2 k w.a.toNat).toNat) (i.dsrcB w k)
          (fp64.read (i.rd2 k w.d.toNat).toNat)).1,
        flags := fun k => (dpFma (modeOf i.g.round) (fp64.read (i.rd2 (if i.v.u then i.first else k) w.a.toNat).toNat)
          (i.dsrcB w (if i.v.u then i.first else k)) (fp64.read (i.rd2 (if i.v.u then i.first else k) w.d.toNat).toNat)).2 }

/-- Each CVT word writes the conversion of its entry M, in the mode and SAT of csr round, to a register or, for a 64-bit
result, to a pair, ORs its flags into fst, and changes nothing else. (R276, R277.) -/
def Obligations.Conversions : Prop :=
  ∀ row ∈ ([(0, .cvtF32F16), (1, .cvtF32F16Hi), (2, .cvtF32Bf16), (3, .cvtF32Bf16Hi), (4, .cvtF16F32), (5, .cvtBf16F32),
   (6, .cvtF16x2F32), (7, .cvtBf16x2F32), (8, .cvtF64F32), (9, .cvtF32F64), (10, .cvtF32S32), (11, .cvtF32Z32),
   (12, .cvtF32S64), (13, .cvtF32Z64), (14, .cvtF64S32), (15, .cvtF64Z32), (16, .cvtF64S64), (17, .cvtF64Z64),
   (18, .cvtS32F32), (19, .cvtZ32F32), (20, .cvtS32F32Rz), (21, .cvtZ32F32Rz), (22, .cvtS64F32), (23, .cvtZ64F32),
   (24, .cvtS32F64), (25, .cvtZ32F64), (26, .cvtS64F64), (27, .cvtZ64F64), (28, .cvtS32F64Rz), (29, .cvtS64F64Rz),
   (30, .cvtF16F64), (31, .cvtBf16F64), (32, .cvtF64F16), (33, .cvtF64Bf16), (34, .cvtBf16F16), (35, .cvtF16Bf16),
   (36, .cvtS8F32), (37, .cvtZ8F32), (38, .cvtS16F32), (39, .cvtZ16F32)] : List (Nat × (RM → Instr))),
  ∀ w : RM, Computes (row.2 w) fun _ i =>
    { out := fun k => if cvtPairResult row.1 then pairOf w.d.toNat (cvtEntry row.1 (modeOf i.g.round) (satOf i.g.round) (cvtArg row.1 w i k)).1
        else [(w.d.toNat, (cvtEntry row.1 (modeOf i.g.round) (satOf i.g.round) (cvtArg row.1 w i k)).1.setWidth 32)],
      flags := fun k => (cvtEntry row.1 (modeOf i.g.round) (satOf i.g.round) (cvtArg row.1 w i (if i.v.u then i.first else k))).2 }

/-- With a legal control word in every running thread, NCVT_P packs four scaled FP32 values into a register and NCVT_U
unpacks four n8 bytes into four registers, with their flags, and nothing else changes. (R278, R279, R280.) -/
def Obligations.NarrowWords : Prop :=
  (∀ w : RR, Completes (.ncvtP w) (fun _ => narrowOk) (fun _ l => l) (fun _ i => ∀ k ∈ i.c.active, narrowOk (i.srcB w k) = true)
    (fun s _ => s) fun _ i =>
      let r := fun k => narrowPack (modeOf i.g.round) (satOf i.g.round) (i.srcB w k) (i.rd k w.a.toNat) (i.rd k (w.a.toNat + 1))
        (i.rd k (w.a.toNat + 2)) (i.rd k (w.a.toNat + 3))
      { out := fun k => [(w.d.toNat, (r k).1)], flags := fun k => (r (if i.v.u then i.first else k)).2 }) ∧
  ∀ w : RR, Completes (.ncvtU w) (fun _ => narrowOk) (fun _ l => l) (fun _ i => ∀ k ∈ i.c.active, narrowOk (i.srcB w k) = true)
    (fun s _ => s) fun _ i =>
      let r := fun k n => narrowUnpack (modeOf i.g.round) (i.srcB w k) (i.rd k w.a.toNat) n
      let f := fun k => (r k 0).2 ||| (r k 1).2 ||| (r k 2).2 ||| (r k 3).2
      { out := fun k => [(w.d.toNat, (r k 0).1), (w.d.toNat + 1, (r k 1).1), (w.d.toNat + 2, (r k 2).1), (w.d.toNat + 3, (r k 3).1)],
        flags := fun k => f (if i.v.u then i.first else k) }

/-- LCLR clears the accumulator, the LADD words add their term, LFMA and LFMAB their products, LMERGE merges, LNORM
resolves, LSH scales; the accumulator of each running thread is FULL with the result, the flags are ORed into fst,
and nothing else changes. R286 gives the value that LSH leaves; the segments held after it, fully resolved, are the
model's reading (log 24). (R282 to R286.) -/
def Obligations.AccumulatorWords : Prop :=
  (∀ w : RM, Computes (.lclr w) fun _ _ => { acc := fun _ => [(w.d.toNat, { acc := LongAcc.zero, prod := 0 })] }) ∧
  (∀ row ∈ ([(.laddF32, fun a => fp32.read a.toNat), (.laddBf16Lo, fun a => bf16.read (a.setWidth 16).toNat),
   (.laddBf16Hi, fun a => bf16.read (a.extractLsb' 16 16).toNat), (.laddF16Lo, fun a => fp16.read (a.setWidth 16).toNat),
   (.laddF16Hi, fun a => fp16.read (a.extractLsb' 16 16).toNat), (.laddS32, fun a => .ofInt a.toInt),
   (.laddZ32, fun a => .ofInt a.toNat)] : List ((RM → Instr) × (Word → FVal))), ∀ w : RM, Computes (row.1 w) fun _ i =>
    let r := fun k => (i.acc k w.d.toNat).acc.addVal (row.2 (i.srcA w k))
    { acc := fun k => [(w.d.toNat, { acc := (r k).1, prod := 0 })], flags := fun k => (r k).2 }) ∧
  (∀ w : RR, Computes (.lfma w) fun _ i =>
    let r := fun k => (i.acc k w.d.toNat).acc.addProd (fp32.read (i.rd k w.a.toNat).toNat) (fp32.read (i.srcB w k).toNat)
    { acc := fun k => [(w.d.toNat, { acc := (r k).1, prod := 0 })], flags := fun k => (r k).2 }) ∧
  (∀ w : RR, Computes (.lfmab w) fun _ i =>
    let half := fun (x : Word) (n : Nat) => bf16.read (x.toNat / 2 ^ n % 2 ^ 16)
    let lo := fun k => (i.acc k w.d.toNat).acc.addProd (half (i.rd k w.a.toNat) 0) (half (i.srcB w k) 0)
    let hi := fun k => (lo k).1.addProd (half (i.rd k w.a.toNat) 16) (half (i.srcB w k) 16)
    { acc := fun k => [(w.d.toNat, { acc := (hi k).1, prod := 0 })], flags := fun k => (lo k).2 ||| (hi k).2 }) ∧
  (∀ w : RR, Computes (.lmerge w) fun _ i =>
    { acc := fun k =>
        [(w.d.toNat, { acc := (i.acc k w.d.toNat).acc.merge (i.acc k w.a.toNat).acc, prod := 0 })] }) ∧
  (∀ w : RM, Computes (.lnorm w) fun _ i => { acc := fun k => [(w.d.toNat, { acc := (i.acc k w.d.toNat).acc.resolve, prod := 0 })] }) ∧
  ∀ w : RR, Computes (.lsh w) fun _ i =>
    let r := fun k => (i.acc k w.a.toNat).acc.shift (i.srcB w k).toInt
    { acc := fun k => [(w.d.toNat, { acc := (r k).1, prod := 0 })], flags := fun k => (r k).2 }

/-- With a FULL accumulator and no older producer of D outstanding, the five LRND words write one rounding of its value
(a pair for FP64) with its flags; in a thread whose accumulator is EMPTY, D is EMPTY and the rounding, in the mode
and SAT of the issue, is on its way until the producer has completed; LSEG writes a held segment as a signed pair;
LGRED puts the merge of all running threads' accumulators on its way to cD of each, which is EMPTY until it arrives.
The order in which LGRED merges, on which the held segments can depend, is the model's choice (log 24). (R287 to
R289.) -/
def Obligations.AccumulatorReads : Prop :=
  (∀ row ∈ ([(0, .lrndF32), (1, .lrndBf16), (2, .lrndF16), (3, .lrndF64), (4, .lrndS32)] : List (Nat × (RM → Instr))), ∀ w : RM, Completes (row.2 w) anyLit (fun _ l => l)
    (fun _ i => ∀ k ∈ i.c.active, (i.acc k w.a.toNat).prod = 0 ∧ i.destBusy k w.d.toNat (if row.1 = 3 then 2 else 1) = false)
    (fun s _ => s) fun _ i =>
    let r := fun k => roundAcc row.1 i.g.round (i.acc k w.a.toNat).acc
    { out := fun k => (r k).1.mapIdx fun n x => (w.d.toNat + n, x), flags := fun k => (r k).2 }) ∧
  (∀ row ∈ ([(0, .lrndF32), (1, .lrndBf16), (2, .lrndF16), (3, .lrndF64), (4, .lrndS32)] : List (Nat × (RM → Instr))),
    ∀ (w : RM) (s : State) (i : Issue), i.v = (row.2 w).view → Clear s i anyLit i.ops →
    let n := if row.1 = 3 then 2 else 1
    let late := fun k => (i.acc k w.a.toNat).prod ≠ 0
    let r := fun k => roundAcc row.1 i.g.round (i.acc k w.a.toNat).acc
    (∀ k ∈ i.c.active, late k ∨ i.destBusy k w.d.toNat n = false) →
    ∃ s' fl, exec (row.2 w) s = .next s' ∧
      fl.map (fun f => (f.thread, f.done, f.what)) =
        (i.c.active.filter fun k => decide (late k)).map (fun k => (k, false, Access.round w.d.toNat w.a.toNat row.1 i.g.round)) ∧
      (∀ f ∈ fl, f.uid = i.c.uid ∧ f.gid = i.c.gid) ∧
      Lands { s with flights := s.flights ++ fl, nextId := s.nextId + fl.length + 64 } s' i i.ops
        { out := fun k => if late k then [] else (r k).1.mapIdx fun m x => (w.d.toNat + m, x),
          flags := fun k => if late k then 0 else (r k).2,
          pend := fun k => (fl.filter fun f => f.thread == k).flatMap fun f => (List.range n).map fun m => (w.d.toNat + m, f.id) }) ∧
  (∀ w : RN, Computes (.lseg w) fun _ i =>
    { out := fun k =>
        pairOf w.d.toNat (BitVec.ofInt 64 ((i.acc k w.a.toNat).acc.seg.getD w.m.toNat 0)) }) ∧
  ∀ (w : RM) (s : State) (i : Issue), i.v = (Instr.lgred w).view → Clear s i anyLit i.ops →
    ∃ s' fl, exec (.lgred w) s = .next s' ∧ fl.length = i.c.active.length ∧
      (∀ f ∈ fl, f.uid = i.c.uid ∧ f.gid = i.c.gid ∧ f.done = true ∧
        f.what = .accs w.d.toNat (i.c.active.foldl (fun x k => x.merge (i.acc k w.a.toNat).acc) LongAcc.zero)) ∧
      Lands { s with flights := s.flights ++ fl, nextId := s.nextId + fl.length + 64 } s' i i.ops
        { acc := fun k => (fl.filter fun f => f.thread == k).map fun f => (w.d.toNat, { acc := (i.acc k w.d.toNat).acc, prod := f.id }) }

/-- When every running thread's access passes the checks of R294 and no acquire is outstanding, and the group's older
buffered stores to bytes that a tagged load or an acquire reads are acknowledged, LDG (every SZ, every ordering) and
LLD with SZ = 0 complete: each thread has its load (LLD: its eight 16-byte parts) on its way from the translated
address, D (for LDG the registers of SZ, for LLD the accumulator) is EMPTY until it completes, and nothing else
changes; when the loads are neither tagged nor device or system acquires, the TLB is all of the device that changes
besides, and every byte of memory is as before. (R292, R298, R299.) -/
def Obligations.GlobalLoads : Prop :=
  ∀ (w : MEM) (s : State) (i : Issue), w.sz.toNat ≤ 6 →
    (let va := fun k => i.rd2 k w.a.toNat + if w.l then i.lit.signExtend 64 else w.o.signExtend 64 * BitVec.ofNat 64 (szBytes w.sz)
     let c := s.checks i va (szBytes w.sz) .read .plain
     let st := s.translated .plain c
     let what := fun (_ _ : Nat) => Access.load w.d.toNat w.sz.toNat
     let fs := (i.loads st (hitsOf c) (szBytes w.sz) what (memClass w i.t) (memOrd w == 1)).filter (·.direct)
     let r := (st.drainFor i fs).sendLoads i (hitsOf c) (szBytes w.sz) what (memClass w i.t) (memOrd w == 1)
     InHand (.ldg w) anyLit asIs s i → Passes s i va (szBytes w.sz) .read .plain → Drained st i fs →
       Ends (.ldg w) asIs s i r.1 { pend := pendRegs r.2 i.v.u w.d.toNat (szRegs w.sz) } ∧ OnTheirWay s i (hitsOf c) r (szBytes w.sz)) ∧
    (let va := fun k => i.rd2 k w.a.toNat + if w.l then i.lit.signExtend 64 else w.o.signExtend 64 * 128
     let c := s.checks i va 128 .read .plain
     let st := s.translated .plain c
     let hits := (hitsOf c).flatMap fun x => (List.range 8).map fun k => { x with pa := x.pa + 16 * k }
     let fs := (i.loads st hits 16 (partLoad w.d.toNat) (memClass w i.t) (memOrd w == 1)).filter (·.direct)
     let r := (st.drainFor i fs).sendLoads i hits 16 (partLoad w.d.toNat) (memClass w i.t) (memOrd w == 1)
     w.sz = 0 → InHand (.lld w) anyLit asIs s i → Passes s i va 128 .read .plain → Drained st i fs →
       Ends (.lld w) asIs s i r.1 { acc := i.pendAcc r.2 w.d.toNat } ∧ OnTheirWay s i hits r 16)

/-- When every running thread's address passes the checks of R294 and no acquire is outstanding, LDS and LLD with SZ = 1
complete with D waiting for the access; STS and LST with SZ = 1 complete, a release first waiting for its class, the
bytes of D on their way to each thread's address (LLD and LST: in eight 16-byte parts); loads of the own core's SRAM
are performed at issue, in ascending thread order; nothing else changes. (R291, R292, R299, R300, R301.) -/
def Obligations.ScratchpadWords : Prop :=
  ∀ (w : MEM) (s : State) (i : Issue),
    (let va := fun k => i.rd k w.a.toNat + if w.l then i.lit else w.o.signExtend 32 * BitVec.ofNat 32 (szBytes w.sz)
     let l := i.spFlights s (spHits s i va (szBytes w.sz)) (szBytes w.sz) (fun _ _ => .load w.d.toNat w.sz.toNat) (memClass w i.t) (memOrd w == 1)
     InHand (.lds w) anyLit asIs s i → SpPasses s i va (szBytes w.sz) →
       Ends (.lds w) asIs s i (s.sendSp l) { pend := pendRegs (l.map (·.2)) i.v.u w.d.toNat (szRegs w.sz) }) ∧
    (let va := fun k => i.rd k w.a.toNat + if w.l then i.lit else w.o.signExtend 32 * BitVec.ofNat 32 (szBytes w.sz)
     let l := (spHits s i va (szBytes w.sz)).mapIdx fun k x =>
       (x, i.spFlight s k x (i.storeBytes x.t w.d.toNat (szBytes w.sz)).length (.store (i.storeBytes x.t w.d.toNat (szBytes w.sz))) (memClass w i.t) false)
     InHand (.sts w) anyLit asIs s i → SpPasses s i va (szBytes w.sz) → (memOrd w = 2 → MayRelease s i (memClass w i.t)) →
       Ends (.sts w) asIs s i (s.sendSp l) {}) ∧
    (let va := fun k => i.rd k w.a.toNat + if w.l then i.lit else w.o.signExtend 32 * 128
     let parts := fun (x : SpHit) => (List.range 8).map fun k => { x with off := x.off + 16 * k }
     let l := i.spFlights s ((spHits s i va 128).flatMap parts) 16 (fun k _ => partLoad w.d.toNat s.nextId k) (memClass w i.t) (memOrd w == 1)
     (w.sz = 1 → InHand (.lld w) anyLit asIs s i → SpPasses s i va 128 →
       Ends (.lld w) asIs s i (s.sendSp l) { acc := i.pendAcc (l.map (·.2)) w.d.toNat }) ∧
     (w.sz = 1 → InHand (.lst w) anyLit asIs s i → SpPasses s i va 128 → (memOrd w = 2 → MayRelease s i (memClass w i.t)) →
       Ends (.lst w) asIs s i (s.sendSp (((spHits s i va 128).flatMap fun x => imageParts (parts x) (i.acc x.t w.d.toNat).acc.image).mapIdx
         fun k x => (x.1, i.spFlight s k x.1 x.2.length (.store x.2) (memClass w i.t) false))) {}))

/-- When every running thread's access passes the checks of R294 and no acquire is outstanding, and a release need not
wait, STG and LST with SZ = 0 complete: with room for them in the store buffer the stores of core class without
hypothesis enter it, and once older buffered stores they overlap are acknowledged the others are on their way to
their home slices, one per thread (eight parts per image for LST), holding the bytes of D; LRED completes likewise
with a merge of each thread's accumulator on its way. No register changes, and nothing else does. (R291, R293,
R300.) -/
def Obligations.GlobalStores : Prop :=
  ∀ (w : MEM) (s : State) (i : Issue),
    (let va := fun k => i.rd2 k w.a.toNat + if w.l then i.lit.signExtend 64 else w.o.signExtend 64 * BitVec.ofNat 64 (szBytes w.sz)
     let c := s.checks i va (szBytes w.sz) .write .plain
     InHand (.stg w) anyLit asIs s i → Passes s i va (szBytes w.sz) .write .plain → (memOrd w = 2 → MayRelease (s.translated .plain c) i (memClass w i.t)) →
       StoresEnd (.stg w) s i (s.translated .plain c) (memClass w i.t) ((hitsOf c).map fun x => (x, i.storeBytes x.t w.d.toNat (szBytes w.sz)))) ∧
    (let va := fun k => i.rd2 k w.a.toNat + if w.l then i.lit.signExtend 64 else w.o.signExtend 64 * 128
     let c := s.checks i va 128 .write .plain
     w.sz = 0 → InHand (.lst w) anyLit asIs s i → Passes s i va 128 .write .plain → (memOrd w = 2 → MayRelease (s.translated .plain c) i (memClass w i.t)) →
       StoresEnd (.lst w) s i (s.translated .plain c) (memClass w i.t) ((hitsOf c).flatMap fun x =>
         imageParts ((List.range 8).map fun k => { x with pa := x.pa + 16 * k }) (i.acc x.t w.d.toNat).acc.image)) ∧
    (let va := fun k => i.rd2 k w.a.toNat + if w.l then i.lit.signExtend 64 else w.o.signExtend 64 * 128
     let c := s.checks i va 128 .write .dev
     let st := s.translated .dev c
     let what := fun (x : Hit) => Access.merge (i.acc x.t w.d.toNat).acc
     let fs := i.writes st (hitsOf c) 128 what .device false
     InHand (.lred w) anyLit asIs s i → Passes s i va 128 .write .dev → (memOrd w = 2 → MayRelease st i (memClass w i.t)) → Drained st i fs →
       Ends (.lred w) asIs s i ((st.drainFor i fs).sendWrites i (hitsOf c) 128 what .device false).1 {})

/-- When every running thread's access passes the checks of R294 (for a system atomic on untracked host memory: the
operation is one R89 allows and the completer takes it), older buffered stores to its bytes are acknowledged and,
but for the relaxed ones, a release of their class need not wait, each ATG word and ACAS16 completes: one atomic per
thread is on its way with the operand from B (for CAS the compare value below the new one) at the word's size, D is
EMPTY until it completes, or nothing waits when D = 63, and nothing else changes. (R303, R304, R305, R306.) -/
def Obligations.GlobalAtomics : Prop :=
  (∀ row ∈ ([(.atgAdd, .add, .relaxed), (.atgSub, .sub, .relaxed), (.atgMinS, .minS, .relaxed), (.atgMinZ, .minZ, .relaxed), (.atgMaxS, .maxS, .relaxed), (.atgMaxZ, .maxZ, .relaxed), (.atgAnd, .and, .relaxed), (.atgOr, .or, .relaxed), (.atgXor, .xor, .relaxed), (.atgSwap, .swap, .relaxed), (.atgCas, .cas, .relaxed), (.atgIncWrap, .incWrap, .relaxed), (.atgDecWrap, .decWrap, .relaxed),
    (.atgArAdd, .add, .acqRel), (.atgArSub, .sub, .acqRel), (.atgArMinS, .minS, .acqRel), (.atgArMinZ, .minZ, .acqRel), (.atgArMaxS, .maxS, .acqRel), (.atgArMaxZ, .maxZ, .acqRel), (.atgArAnd, .and, .acqRel), (.atgArOr, .or, .acqRel), (.atgArXor, .xor, .acqRel), (.atgArSwap, .swap, .acqRel), (.atgArCas, .cas, .acqRel), (.atgArIncWrap, .incWrap, .acqRel), (.atgArDecWrap, .decWrap, .acqRel),
    (.atgSysAdd, .add, .system), (.atgSysSub, .sub, .system), (.atgSysMinS, .minS, .system), (.atgSysMinZ, .minZ, .system), (.atgSysMaxS, .maxS, .system), (.atgSysMaxZ, .maxZ, .system), (.atgSysAnd, .and, .system), (.atgSysOr, .or, .system), (.atgSysXor, .xor, .system), (.atgSysSwap, .swap, .system), (.atgSysCas, .cas, .system), (.atgSysIncWrap, .incWrap, .system), (.atgSysDecWrap, .decWrap, .system)] : List ((AT → Instr) × AtomOp × AtomOrder)), ∀ (w : AT) (s : State) (i : Issue),
    let size := if w.sz then 8 else 4
    let c := s.checks i (fun k => i.rd2 k w.a.toNat) size .readWrite (row.2.2.kind row.2.1)
    let st := s.translated (row.2.2.kind row.2.1) c
    let what := fun (x : Hit) =>
      Access.atomic row.2.1 (i.atomArgs row.2.1 w x.t).1 (i.atomArgs row.2.1 w x.t).2 (if w.d = 63 then none else some w.d.toNat)
    let fs := i.writes st (hitsOf c) size what row.2.2.cls (row.2.2 != .relaxed)
    let r := (st.drainFor i fs).sendWrites i (hitsOf c) size what row.2.2.cls (row.2.2 != .relaxed)
    InHand (row.1 w) anyLit asIs s i → Passes s i (fun k => i.rd2 k w.a.toNat) size .readWrite (row.2.2.kind row.2.1) →
      (row.2.2 ≠ .relaxed → MayRelease st i row.2.2.cls) → Drained st i fs →
      Ends (row.1 w) asIs s i r.1 { pend := if w.d = 63 then fun _ => [] else pendRegs r.2 i.v.u w.d.toNat (if w.sz then 2 else 1) }) ∧
  ∀ (w : RR) (s : State) (i : Issue),
    let c := s.checks i (fun k => i.rd2 k w.a.toNat) 16 .readWrite (.sys true)
    let quad := fun k n => leNat (wordsBytes [i.rd k n, i.rd k (n + 1), i.rd k (n + 2), i.rd k (n + 3)])
    let st := s.translated (.sys true) c
    let what := fun (x : Hit) => Access.cas16 (quad x.t w.b.toNat) (quad x.t (w.b.toNat + 4)) w.d.toNat
    let fs := i.writes st (hitsOf c) 16 what .system true
    let r := (st.drainFor i fs).sendWrites i (hitsOf c) 16 what .system true
    InHand (.acas16 w) anyLit asIs s i → Passes s i (fun k => i.rd2 k w.a.toNat) 16 .readWrite (.sys true) →
      MayRelease st i .system → Drained st i fs → Ends (.acas16 w) asIs s i r.1 { pend := pendRegs r.2 i.v.u w.d.toNat 4 }

/-- When every running thread's address passes the checks of R294, each ATS word completes: one atomic per thread is
made at the SRAM (at once and in ascending thread order on the own core, else on its way), D is EMPTY until it
completes, and nothing else changes. (R303, R304, R305.) -/
def Obligations.ScratchAtomics : Prop :=
  ∀ row ∈ ([(.atsAdd, .add), (.atsSub, .sub), (.atsMinS, .minS), (.atsMinZ, .minZ), (.atsMaxS, .maxS), (.atsMaxZ, .maxZ), (.atsAnd, .and), (.atsOr, .or), (.atsXor, .xor), (.atsSwap, .swap), (.atsCas, .cas), (.atsIncWrap, .incWrap), (.atsDecWrap, .decWrap)] : List ((AT → Instr) × AtomOp)), ∀ (w : AT) (s : State) (i : Issue),
    let size := if w.sz then 8 else 4
    let l := i.spFlights s (spHits s i (fun k => i.rd k w.a.toNat) size) size
      (fun _ x => .atomic row.2 (i.atomArgs row.2 w x.t).1 (i.atomArgs row.2 w x.t).2 (if w.d = 63 then none else some w.d.toNat)) .core false
    InHand (row.1 w) anyLit asIs s i → SpPasses s i (fun k => i.rd k w.a.toNat) size →
      Ends (row.1 w) asIs s i (s.sendSp l) { pend := if w.d = 63 then fun _ => [] else pendRegs (l.map (·.2)) i.v.u w.d.toNat (if w.sz then 2 else 1) }

/-- Once the release they need may complete and the group's loads have, FENCE_REL changes only the PC, FENCE_ACQ and
FENCE_FULL of device or system class raise the freshness floor to the time of the issue; until then they stall, the
drain that the release needs begun; CACHE_L1INV empties the L1s that serve the core, CACHE_DRAIN completes once no
buffered store of the group waits and stalls until then, CACHE_PFL changes no byte and no register; ACQR on the own
core acts as a device-class fence, on another it sends its request at its first issue, stalls until that core's
report, then raises the floor. (R84, R307, R308, R310.) -/
def Obligations.FenceWords : Prop :=
  (∀ (w : FN) (s : State) (i : Issue),
    let cls := classOf w.scope.toNat i.t.record.hinged
    (InHand (.fenceAcq w) anyLit asIs s i → s.loadsDone i.c.uid i.c.gid = true →
      Ends (.fenceAcq w) asIs s i (if cls.wide then s.raiseFfl i.c.uid i.c.gid s.now else s) {}) ∧
    (InHand (.fenceRel w) anyLit asIs s i → MayRelease s i cls → s.loadsDone i.c.uid i.c.gid = true → Ends (.fenceRel w) asIs s i s {}) ∧
    (InHand (.fenceFull w) anyLit asIs s i → MayRelease s i cls → s.loadsDone i.c.uid i.c.gid = true →
      Ends (.fenceFull w) asIs s i (if cls.wide then s.raiseFfl i.c.uid i.c.gid s.now else s) {}) ∧
    ∀ word, (word = .fenceRel w ∨ word = .fenceFull w ∨ word = .fenceAcq w) → InHand word anyLit asIs s i →
      (word ≠ .fenceAcq w → ¬MayRelease s i cls →
        Retries word s i (s.beginRelease i.t.cl (i.t.coreOf i.c.gid) i.c.uid i.c.gid cls)) ∧
      ((word = .fenceAcq w ∨ MayRelease s i cls) → s.loadsDone i.c.uid i.c.gid = false → Retries word s i s)) ∧
  (∀ (w : RM) (s : State) (i : Issue),
    (InHand (.cacheL1inv w) anyLit asIs s i → ∃ st, Ends (.cacheL1inv w) asIs s i st {} ∧
      (∀ n ∈ s.l1Cores i.t.cl (i.t.coreOf i.c.gid), (st.core i.t.cl n).l1 = []) ∧ st = { s with cores := st.cores }) ∧
    (let st := s.drainGroup i.t.cl (i.t.coreOf i.c.gid) i.c.uid i.c.gid
     InHand (.cacheDrain w) anyLit asIs s i →
       (st.drainPending i.c.uid i.c.gid = false → Ends (.cacheDrain w) asIs s i st {}) ∧
       (st.drainPending i.c.uid i.c.gid = true → Retries (.cacheDrain w) s i st)) ∧
    (InHand (.cachePfl w) anyLit asIs s i → ∃ st, Ends (.cachePfl w) asIs s i st {} ∧
      st = { s with cores := st.cores, sectors := st.sectors, tlb := st.tlb, free := st.free, flights := st.flights } ∧
      st.flights.map (fun f => { f with seen := true }) = s.flights.map fun f => { f with seen := true }) ∧
    (let x := i.srcA w i.first
     let cl := (x.extractLsb' 8 3).toNat
     let core := (x.extractLsb' 0 8).toNat
     let left := s.acqrs.filter fun a => !(a.uid == i.c.uid && a.gid == i.c.gid)
     InHand (.acqr w) (fun _ x => decide (x.toNat < 2 ^ 11)) asIs s i → x.toNat < 2 ^ 11 →
       (cl = i.t.cl ∧ core = i.t.coreOf i.c.gid →
         (MayRelease s i .device → Ends (.acqr w) asIs s i (s.raiseFfl i.c.uid i.c.gid s.now) {}) ∧
         (¬MayRelease s i .device →
           Retries (.acqr w) s i (s.beginRelease i.t.cl (i.t.coreOf i.c.gid) i.c.uid i.c.gid .device))) ∧
       (¬(cl = i.t.cl ∧ core = i.t.coreOf i.c.gid) → s.coreRetired cl core = true →
         (s.loadsDone i.c.uid i.c.gid = true →
           Ends (.acqr w) asIs s i ({ s with acqrs := left }.raiseFfl i.c.uid i.c.gid s.now) {}) ∧
         (s.loadsDone i.c.uid i.c.gid = false → Retries (.acqr w) s i s)) ∧
       (¬(cl = i.t.cl ∧ core = i.t.coreOf i.c.gid) → s.coreRetired cl core = false → i.begun = none →
         Stalls (.acqr w) s i { s with
           acqrs := left ++ [{ id := s.nextId, uid := i.c.uid, gid := i.c.gid, pc := i.c.pc, cl := cl, core := core, arrived := false,
                                  cutFlights := [], cutEntries := [], drained := false, reported := false }],
           nextId := s.nextId + 1 } 0 (s.now + 1)) ∧
       (¬(cl = i.t.cl ∧ core = i.t.coreOf i.c.gid) → s.coreRetired cl core = false →
         i.begun ≠ none → ∀ a, s.acqrs.find? (fun a => a.uid == i.c.uid && a.gid == i.c.gid && a.pc == i.c.pc) = some a →
         (a.reported = true → Ends (.acqr w) asIs s i ({ s with acqrs := left }.raiseFfl i.c.uid i.c.gid s.now) {}) ∧
         (a.reported = false → Stalls (.acqr w) s i s 0 (s.now + 1)))))

/-- With a legal operand block, addresses in form and in range and a good latch reference (read only with LAT = 1), CP,
CPO, CPT, SLD and PFR put one command on their counter with the operands and csr round as they stand at issue,
change no other register, and free what K marks; a CP, CPO or PFR of length 0 is finished at once; while the counter
is at 255 or an earlier acquire or handle read of the threads is outstanding, each stalls. That CPT reads its handle
at its issue, where it waits for the earlier accesses of its threads and makes the checks of the box, is the model's
reading of R58, which orders the read only (log 38). (R132, R309, R312, R316, R317, R320.) -/
def Obligations.CopyWords : Prop :=
  (∀ row ∈ ([(.cp, false), (.cpo, true)] : List ((RR → Instr) × Bool)), ∀ w : RR,
    let ctl := fun (i : Issue) => i.rd i.first (w.d.toNat + 1)
    let len := fun i => ((ctl i).extractLsb' 0 20).toNat
    Queues (row.1 w) (litRef (w.d.toNat + 1)) (pickRef 2 ctl) 0
      (fun s i => (ctl i).extractLsb' 20 10 = 0 ∧ ((ctl i).getLsbD 31 = true → (ctl i).getLsbD 30 = true) ∧ 16 ∣ len i ∧
        (i.rd2 i.first w.a.toNat).extractLsb' 48 16 = 0 ∧ (i.rd2 i.first w.a.toNat).extractLsb' 0 4 = 0 ∧
        (i.rd i.first w.d.toNat).extractLsb' 0 4 = 0 ∧ (s.spMarks i.t (i.rd i.first w.d.toNat) (len i)).isSome ∧
        RefOk s i ((ctl i).getLsbD 30) (i.srcB w i.first) ∧ (s.copyQueue i.t.cl (i.t.coreOf i.c.gid)).length < 64)
      fun s i => i.op s 0 (refTarget s i ((ctl i).getLsbD 30) (i.srcB w i.first)) ((ctl i).getLsbD 31) (if len i = 0 then .finished else .queued)
        (.copy row.2 (i.rd2 i.first w.a.toNat) ((s.spMarks i.t (i.rd i.first w.d.toNat) (len i)).getD []) (List.range (len i / 16)))) ∧
  (∀ (w : RR) (s : State) (i : Issue),
    let r := fun n => i.rd i.first (w.a.toNat + n)
    let ctl := r 7
    let conv := (ctl.extractLsb' 24 4).toNat
    let desc := ctl.extractLsb' 16 8
    let pitch := (ctl.extractLsb' 0 16).toNat
    let hva := i.rd2 i.first w.a.toNat
    let b : TileCmd :=
      { out := ctl.getLsbD 29, hva := hva, origin := [(r 2).toInt, (r 3).toInt, (r 4).toInt, (r 5).toInt], sp := r 6, conv := conv, desc := desc,
        pitch := pitch, raw := none, handle := none, marks := [], blocks := [] }
    let y := s.engDrain (s.tileOp i w) .read 64 [hva.toNat]
    let x := y.readHandle (y.tileOp i w) hva.toNat
    let s1 := x.1
    let box := (x.2.filter fun l => (handleCheck l true).isNone && convFits conv (Handle.parse l)).map Handle.parse
    InHand (.cpt w) (litRef (w.a.toNat + 7)) (pickRef 1 fun i => i.rd i.first (w.a.toNat + 7)) s i → ctl.getLsbD 28 = false →
      (ctl.getLsbD 31 = true → ctl.getLsbD 30 = true) → conv < 7 → 16 ∣ pitch →
      (if conv = 5 then (N8.ofByte desc.toNat).isSome = true else desc = 0) →
      (ctl.getLsbD 30 = true → refIllegal (i.srcB w i.first) = false) →
      (s.acquiring i = true ∨ s.accessing i = true → Retries (.cpt w) s i s) ∧
      (hva.extractLsb' 48 16 = 0 → hva.extractLsb' 0 6 = 0 → s.acquiring i = false → s.accessing i = false → s.tileFault i w = none →
      (y.engHeld (y.tileOp i w) .read 64 [hva.toNat] = true → Retries (.cpt w) s i y) ∧
      (y.engHeld (y.tileOp i w) .read 64 [hva.toNat] = false → (r 6).extractLsb' 0 4 = 0 → RefOk s1 i (ctl.getLsbD 30) (i.srcB w i.first) →
      (match box with
        | none => (s1.spMarks i.t (r 6) 1).isSome
        | some h => (pitch ≠ 0 → h.boxAt 0 * convSize conv h.es ≤ pitch) ∧ (s1.boxMarks i.t b h).isSome) →
      ((s1.copyQueue i.t.cl (i.t.coreOf i.c.gid)).length < 64 → s1.counter i.c.uid i.c.gid 0 < 255 → s1.acquiring i = false →
        Ends (.cpt w) (pickRef 1 fun i => i.rd i.first (w.a.toNat + 7)) s i
          (s1.addOp (i.op s1 0 (refTarget s1 i (ctl.getLsbD 30) (i.srcB w i.first)) (ctl.getLsbD 31) .queued
            (.tile { b with raw := x.2, marks := ((box.bind fun h => s1.boxMarks i.t b h).getD []) } []))) {}) ∧
      (64 ≤ (s1.copyQueue i.t.cl (i.t.coreOf i.c.gid)).length ∨ 255 ≤ s1.counter i.c.uid i.c.gid 0 → Retries (.cpt w) s i s1)))) ∧
  (∀ w : RR,
    let ctl := fun (i : Issue) => i.rd i.first (w.d.toNat + 1)
    let sk := fun i => ((ctl i).extractLsb' 16 8).toNat
    let len := fun i => ((ctl i).extractLsb' 0 16).toNat
    let va := fun (i : Issue) => i.rd2 i.first w.a.toNat
    let sp := fun (i : Issue) => i.rd i.first w.d.toNat
    ∀ (s : State) (i : Issue) (e : Enrol), InHand (.sld w) (litRef (w.d.toNat + 1)) (pickRef 2 ctl) s i → ((ctl i).getLsbD 31 = true → (ctl i).getLsbD 30 = true) →
      (ctl i).extractLsb' 24 6 = 0 → sk i < i.t.hdr.skeins → 256 ≤ len i → len i ≤ 32768 → 256 ∣ len i → i.t.skeins.find? (fun e => e.sk == sk i) = some e →
      (va i).extractLsb' 48 16 = 0 → (va i).extractLsb' 0 8 = 0 → (sp i).extractLsb' 30 2 = 0 → (s.spMarks i.t (sp i) (len i)).isSome →
      (sp i).extractLsb' 0 4 = 0 → RefOk s i ((ctl i).getLsbD 30) (i.srcB w i.first) →
      (255 ≤ s.counter i.c.uid i.c.gid 2 ∨ s.acquiring i = true → Retries (.sld w) s i s) ∧
      (s.counter i.c.uid i.c.gid 2 < 255 → s.acquiring i = false →
      Ends (.sld w) (pickRef 2 ctl) s i
        ((s.mapTeam i.c.uid fun t => { t with skeins := t.skeins.map fun e => if e.sk = sk i then { e with k := e.k + 1 } else e }).addOp
          (i.op (s.mapTeam i.c.uid fun t => { t with skeins := t.skeins.map fun e => if e.sk = sk i then { e with k := e.k + 1 } else e })
            2 (refTarget s i ((ctl i).getLsbD 30) (i.srcB w i.first)) ((ctl i).getLsbD 31) .queued
            (.skein { launch := i.t.launch, sk := sk i, k := e.k, va := (va i).toNat, len := len i, off := (sp i).toNat % 2 ^ 30, sent := false,
                      solo := false, fill := none }))) {})) ∧
  ∀ w : RR,
    let va := fun (i : Issue) => i.rd2 i.first w.a.toNat
    let len := fun (i : Issue) => (i.srcB w i.first).toNat
    Queues (.pfr w) anyLit asIs 2
      (fun s i => (va i).extractLsb' 48 16 = 0 ∧ (va i).toNat + len i ≤ 2 ^ 48 ∧ RefOk s i (w.d != 0) (i.rd i.first w.d.toNat))
      fun s i => i.op s 2 (refTarget s i (w.d != 0) (i.rd i.first w.d.toNat)) false (if len i = 0 then .finished else .running)
        (.prefetch (va i) (len i) (List.range (lineCount (va i).toNat (len i))))

/-- With a skein number below the kernel's SKEINS and reserved bits zero: DECL declares the skein of the launch with its
member count and timeout and gives 0, or for a declared one gives 0 when they agree and 1 when not; JOIN gives 3
undeclared, 1 enrolled already, 2 full, else enrols the team with its sequence counter at 0 and gives 0; LEAVE gives
3, 1, or withdraws the enrolment and gives 0; STAT writes the pair of R140; nothing else changes. That STAT of an
undeclared skein gives zeros and that all four give their result at issue is the model's reading (log 40): R140 and
R321 are silent on both. (R135, R136, R140, R321.) -/
def Obligations.SkeinWords : Prop :=
  ∀ (w : RM) (s : State) (i : Issue),
    let x := i.srcA w i.first
    let sk := (x.extractLsb' 0 8).toNat
    let gives := fun (word : Instr) (st : State) (r : Word) => Ends word asIs s i st { out := fun _ => [(w.d.toNat, r)] }
    sk < i.t.hdr.skeins →
    (InHand (.sknDecl w) (sknOk 0) asIs s i →
      match s.skein? i.t.launch sk with
      | some k => gives (.sknDecl w) s (if k.n = (x.extractLsb' 8 8).toNat + 1 ∧ k.tmo = (x.extractLsb' 16 16).toNat then 0 else 1)
      | none => gives (.sknDecl w) (s.mapLaunch i.t.launch fun l =>
          { l with skeins := l.skeins ++ [{ sk := sk, n := (x.extractLsb' 8 8).toNat + 1, tmo := (x.extractLsb' 16 16).toNat, members := [],
                                            timedOut := 0, late := 0, discarded := 0 }] }) 0) ∧
    (InHand (.sknJoin w) (sknOk 1) asIs s i → x.extractLsb' 8 24 = 0 →
      match s.skein? i.t.launch sk with
      | none => gives (.sknJoin w) s 3
      | some k =>
        if i.t.uid ∈ k.members then gives (.sknJoin w) s 1
        else if k.n ≤ k.members.length then gives (.sknJoin w) s 2
        else gives (.sknJoin w) ((s.mapSkein i.t.launch sk fun k => { k with members := k.members ++ [i.t.uid] }).mapTeam i.t.uid
          fun t => { t with skeins := t.skeins ++ [{ sk := sk, k := 0 }] }) 0) ∧
    (InHand (.sknLeave w) (sknOk 2) asIs s i → x.extractLsb' 8 24 = 0 →
      match s.skein? i.t.launch sk with
      | none => gives (.sknLeave w) s 3
      | some k =>
        if i.t.uid ∈ k.members then gives (.sknLeave w) ((s.mapSkein i.t.launch sk fun k => { k with members := k.members.erase i.t.uid }).mapTeam i.t.uid
          fun t => { t with skeins := t.skeins.filter fun e => e.sk != sk }) 0
        else gives (.sknLeave w) s 1) ∧
    (InHand (.sknStat w) (sknOk 3) asIs s i → x.extractLsb' 8 24 = 0 →
      Ends (.sknStat w) asIs s i s { out := fun _ => pairOf w.d.toNat (match s.skein? i.t.launch sk with
        | none => 0
        | some k => BitVec.ofNat 64 (min k.late 0xFFFF + 2 ^ 16 * min k.timedOut 0xFFFF + 2 ^ 32 * min k.discarded 0xFFFF + 2 ^ 48 * k.members.length)) })

/-- INIT with legal counts starts the latch, EXPECT adds bytes, ARRIVE (its release done; no enabled flag on lk15)
arrives, ARRIVE_REMOTE sends an arrival to the latch its reference names, both stalling while their release must
wait, TEST writes the status word, INVAL clears V (reloads lk15), WAIT for a phase that has completed, or of a group
that a completion has released, goes on; each then applies the completion rule of R126 with the release of waiters,
raises the freshness floor where R83 says so, and changes nothing else; WAIT for a phase that has not completed
makes the subset wait. (R83, R125, R126, R127, R322.) -/
def Obligations.LatchWords : Prop :=
  ∀ (w : RM) (s : State) (i : Issue),
    let lk := w.d.toNat
    (InHand (.latchInit w) anyLit asIs s i →
      let ea := (i.rd i.first w.a.toNat).toNat
      let eb := (i.rd i.first (w.a.toNat + 1)).toNat
      ea ≤ 32767 → eb < 2 ^ 31 → ea + eb ≠ 0 →
        Ends (.latchInit w) asIs s i (s.mapTeam i.c.uid fun t => t.onLatch lk fun l =>
          { l with ea := ea, eb := eb, a := ea, b := eb, ph := false, f := false, fw := 0, v := true, remote := false, low := none }) {}) ∧
    (InHand (.latchExpect w) (fun _ x => !x.getLsbD 31) asIs s i → (i.srcA w i.first).toNat < 2 ^ 31 → (i.t.latch lk).v = true →
      Ends (.latchExpect w) asIs s i (s.mapTeam i.c.uid fun t => t.onLatch lk fun l => l.addBytes (i.srcA w i.first).toNat) {}) ∧
    (InHand (.latchArrive w) anyLit asIs s i → (i.t.latch lk).v = true → (lk = 15 → ∀ k ∈ i.c.active, i.report k = none) →
      (MayRelease s i (classOf 1 i.t.record.hinged) →
        Ends (.latchArrive w) asIs s i (s.mapTeam i.c.uid fun t => t.onLatch lk Latch.arrive) {}) ∧
      (¬MayRelease s i (classOf 1 i.t.record.hinged) → Retries (.latchArrive w) s i
        (s.beginRelease i.t.cl (i.t.coreOf i.c.gid) i.c.uid i.c.gid (classOf 1 i.t.record.hinged)))) ∧
    (InHand (.latchArriveRemote w) (fun _ x => !refIllegal x) asIs s i → refIllegal (i.srcA w i.first) = false →
      ∀ x, s.latchRef i.t (i.srcA w i.first) = some x →
        (MayRelease s i .device →
          Ends (.latchArriveRemote w) asIs s i { s with latchMsgs := s.latchMsgs ++ [{ id := s.nextId, uid := x.uid, lk := x.lk }], nextId := s.nextId + 1 } {}) ∧
        (¬MayRelease s i .device → Retries (.latchArriveRemote w) s i
          (s.beginRelease i.t.cl (i.t.coreOf i.c.gid) i.c.uid i.c.gid .device))) ∧
    (InHand (.latchWait w) (fun _ x => decide (x.toNat < 2)) asIs s i → i.passes ≠ [] →
      Ends (.latchWait w) asIs s i (if true ∈ i.passes then s.raiseFfl i.c.uid i.c.gid s.now else s) {}) ∧
    (InHand (.latchWait w) (fun _ x => decide (x.toNat < 2)) asIs s i → i.passes = [] → (i.srcA w i.first).toNat < 2 → (i.t.latch lk).v = true → (i.t.latch lk).f = false →
      let p := (i.srcA w i.first).getLsbD 0
      ((i.t.latch lk).ph ≠ p → Ends (.latchWait w) asIs s i (if (i.t.latch lk).lastDev then s.raiseFfl i.c.uid i.c.gid s.now else s) {}) ∧
      ((i.t.latch lk).ph = p → Waits (.latchWait w) s i s (.latch lk p))) ∧
    (InHand (.latchTest w) anyLit asIs s i → (i.t.latch w.a.toNat).v = true → (i.t.latch w.a.toNat).f = false →
      Ends (.latchTest w) asIs s i (if (i.t.latch w.a.toNat).anyDev then s.raiseFfl i.c.uid i.c.gid s.now else s)
        { out := fun _ => [(lk, (i.t.latch w.a.toNat).status)] }) ∧
    (InHand (.latchInval w) anyLit asIs s i → (i.t.latch lk).v = true →
      Ends (.latchInval w) asIs s i (s.mapTeam i.c.uid fun t => t.onLatch lk fun l =>
        if lk = 15 then { l with f := false, a := l.ea, b := l.eb, low := l.sink l.eb } else { l with v := false }) {})

/-- With n above 255 WAITC takes ILLEGAL with the word. With n at most 255: while more than n commands of the class are
outstanding WAITC waits, remembering which commands it covers; once n or fewer are, it goes on when no covered
command left an event, and otherwise it takes LATCH_FAULT with the fault word, or PIVOT with the column, of the
oldest of them, which is then reported no more. (R92, R323, R447.) -/
def Obligations.WaitcWord : Prop :=
  ∀ (w : RN) (s : State) (i : Issue),
    let n := if w.l then i.lit else i.rd i.first w.a.toNat
    let cls := w.m.toNat
    (InHand (.waitc w) anyLit asIs s i → 255 < n.toNat → CanTrap i →
      ∃ s', exec (.waitc w) s = .next s' ∧ TrapLands s s' i fun _ => (0x01, i.c.word)) ∧
    (InHand (.waitc w) (fun _ x => decide (x.toNat < 2 ^ 8)) asIs s i → n.toNat < 2 ^ 8 →
    (n.toNat < s.counter i.c.uid i.c.gid cls →
      Waits (.waitc w) s i (s.mapGroup i.c.uid i.c.gid fun g => g.mapThreads i.ts fun _ th => { th with cover := s.coverBound i cls n.toNat }) (.waitc cls)) ∧
    (s.counter i.c.uid i.c.gid cls ≤ n.toNat → i.g.coveredEvent cls (s.coverBound i cls n.toNat) = none →
      Ends (.waitc w) asIs s i s { edit := fun _ th => { th with cover := 0 } }) ∧
    (s.counter i.c.uid i.c.gid cls ≤ n.toNat → CanTrap i → ∀ e, i.g.coveredEvent cls (s.coverBound i cls n.toNat) = some e →
      ∃ s', exec (.waitc w) s = .next s' ∧
        TrapLands (s.mapGroup i.c.uid i.c.gid fun g => { g with events := g.events.erase e }) s' i
          (fun _ => (if e.pivot then 0x11 else 0x0A, e.datum))))

/-- A binding that R142 allows binds the queue with no words, UNBIND leaves it NULL, STAT writes KIND and the word
count; QPUSH to a PEER out queue with room, its release done, appends one word per running thread in ascending
order, stalls while its release must wait and waits while there is no room, and to a NULL queue or an in port takes
QUEUE with the queue number; QPOP from NULL or PEER out takes the same; QPOP from a queue with a word for each
thread takes them off and delivers them to D in that order, all at once (of a g register that a later producer
writes, the words are taken and nothing is written, R39); with too few it waits with D EMPTY, or with E set traps
REG_EMPTY; nothing else changes. That the datum of REG_EMPTY is the D field, and that a waiting QPOP makes D read as
EMPTY by a note in its threads, is the model's reading (log 36). (R141 to R143, R324, R325.) -/
def Obligations.QueueWords : Prop :=
  ∀ (s : State) (i : Issue),
    (∀ w : RM,
      (let p := i.srcA w i.first
       let out := p.extractLsb' 28 4 = 5
       InHand (.qopBind w) (fun _ x => !portIllegal x) asIs s i → portIllegal p = false → bindRefused i.t i.g w.d.toNat p = false →
         (out → (s.portTarget i.t p).isSome) →
         Ends (.qopBind w) asIs s i (s.setQueue i.c.uid i.c.gid w.d.toNat
           { bind := p, target := if out then ((s.portTarget i.t p).map (·.uid)).getD 0 else 0, words := [] }) {}) ∧
      (InHand (.qopUnbind w) anyLit asIs s i → Ends (.qopUnbind w) asIs s i (s.setQueue i.c.uid i.c.gid w.d.toNat { bind := 0, target := 0, words := [] }) {}) ∧
      (InHand (.qopStat w) anyLit asIs s i → Ends (.qopStat w) asIs s i s
        { out := fun _ => [(w.d.toNat, BitVec.ofNat 32 ((i.g.queue w.a.toNat).kind * 4096 + (i.g.queue w.a.toNat).words.length))] })) ∧
    ∀ w : RN,
      let q := i.g.queue w.m.toNat
      (let ws := i.runners.map fun k => if w.l then i.lit else i.rd k w.a.toNat
       InHand (.qpush w) anyLit asIs s i → q.kind = 5 →
         (q.words.length + ws.length ≤ 64 → MayRelease s i (s.peerClass i q) →
           (Ends (.qpush w) asIs s i { s.setQueue i.c.uid i.c.gid w.m.toNat { q with
             words := q.words ++ ws.map fun x => (x, false), stamps := q.stamps ++ List.replicate ws.length s.nextId } with nextId := s.nextId + 1 } {})) ∧
         (q.words.length + ws.length ≤ 64 → ¬MayRelease s i (s.peerClass i q) → Retries (.qpush w) s i
           (s.beginRelease i.t.cl (i.t.coreOf i.c.gid) i.c.uid i.c.gid (s.peerClass i q))) ∧
         (64 < q.words.length + ws.length → Waits (.qpush w) s i s (.qpush w.m.toNat))) ∧
      (InHand (.qpush w) anyLit asIs s i → q.kind ≠ 5 → CanTrap i →
         ∃ s', exec (.qpush w) s = .next s' ∧ TrapLands s s' i fun _ => (0x0C, BitVec.ofNat 32 w.m.toNat)) ∧
      (InHand (.qpop w) anyLit asIs s i → (q.kind = 0 ∨ q.kind = 5) → CanTrap i →
         ∃ s', exec (.qpop w) s = .next s' ∧ TrapLands s s' i fun _ => (0x0C, BitVec.ofNat 32 w.m.toNat)) ∧
      (InHand (.qpop w) anyLit asIs s i → q.kind ≠ 0 → q.kind ≠ 5 →
         let st := s.setQueue i.c.uid i.c.gid w.m.toNat { q with words := q.words.drop i.runners.length }
         let taken := if q.kind = 4 ∧ (q.words.take i.runners.length).any (·.2) then st.raiseFfl i.c.uid i.c.gid s.now else st
         (i.runners.length ≤ q.words.length → i.v.u = true → i.popPassed w.d.toNat (i.popNumber s) = true →
           Ends (.qpop w) asIs s i taken {}) ∧
         (i.runners.length ≤ q.words.length → (i.v.u = true → i.popPassed w.d.toNat (i.popNumber s) = false) →
           Ends (.qpop w) asIs s i
             (if i.v.u then taken.mapGroup i.c.uid i.c.gid fun g => g.voidPops w.d.toNat (i.popNumber taken) else taken)
             { out := fun k => (((i.runners.zip (q.words.take i.runners.length)).find? fun x => x.1 == k).map fun x => (w.d.toNat, x.2.1)).toList }) ∧
         (q.words.length < i.runners.length → w.ea = false → Waits (.qpop w) s i (s.emptyPop i w.d.toNat) (.qpop w.m.toNat)) ∧
         (q.words.length < i.runners.length → w.ea = true → CanTrap i →
           ∃ s', exec (.qpop w) s = .next s' ∧ TrapLands s s' i (fun _ => (0x03, BitVec.ofNat 32 w.d.toNat))))

/-- NEW makes a live child of the subset's hypothesis with the lowest free ID, or gives the status of a full store, a
depth of 15 or a dead parent; ENTER moves the subset to a live hypothesis or the root, LEAVE to the parent; STAT
gives depth and parent; CONFIRM and REFUTE stall while their release must wait, then confirm or refute and give the
status and count of R156 and R157, raise the freshness floor, and CONFIRM into the root returns 2 ns after what it
wrote, its stall noting the sectors it published; nothing else changes. That NEW tests the depth before the room in
the store and HYPEN, and that a confirm into the root stalls its group with the sectors it published held, is the
model's choice (log 65); that the results are given at issue, and the stall itself, is log 40. (R152 to R159.) -/
def Obligations.HypothesisWords : Prop :=
  ∀ (w : RM) (s : State) (i : Issue),
    let sl := s.slot i.t.slot
    let gives := fun (word : Instr) (st : State) (r : Nat) => Ends word asIs s i st { out := fun _ => [(w.d.toNat, BitVec.ofNat 32 r)] }
    let floor := fun (st : State) => st.raiseFfl i.c.uid i.c.gid st.now
    let h := i.srcA w i.first
    (InHand (.hypNew w) anyLit asIs s i →
      let me := i.subsetHyp
      let depth := if me = 0 then 0 else (sl.hyp (hypId me)).depth
      (me ≠ 0 → sl.hypStatus me ≠ 0 → gives (.hypNew w) s (sl.hypStatus me * 2 ^ 28)) ∧
      ((me = 0 ∨ sl.hypStatus me = 0) → 15 ≤ depth → gives (.hypNew w) s (7 * 2 ^ 28)) ∧
      ((me = 0 ∨ sl.hypStatus me = 0) → depth < 15 →
        match (List.range 256).find? fun id => id != 0 && (sl.hyp id).st == .free with
        | none => gives (.hypNew w) s (6 * 2 ^ 28)
        | some id =>
          if sl.xctl.getLsbD 1 then
            Ends (.hypNew w) asIs s i (s.mapSlot i.t.slot fun sl0 => sl0.setHyp { sl.hyp id with st := .live, parent := me, depth := depth + 1 })
              { out := fun _ => [(w.d.toNat, BitVec.ofNat 32 (hypHandle id (sl.hyp id).gen).toNat)] }
          else gives (.hypNew w) s (6 * 2 ^ 28))) ∧
    (InHand (.hypEnter w) (fun _ => handleOk) asIs s i → handleOk h = true →
      let st := if h = 0 then 0 else sl.hypStatus h
      Ends (.hypEnter w) asIs s i s
        { out := fun _ => [(w.d.toNat, BitVec.ofNat 32 (st * 2 ^ 28))], edit := fun _ th => if st = 0 then { th with hyp := h } else th }) ∧
    (InHand (.hypLeave w) anyLit asIs s i → Ends (.hypLeave w) asIs s i s
      { out := fun _ => [(w.d.toNat, 0)], edit := fun _ th => if th.hyp = 0 then th else { th with hyp := (sl.hyp (hypId th.hyp)).parent } }) ∧
    (InHand (.hypStat w) (fun _ => handleOk) asIs s i → handleOk h = true →
      gives (.hypStat w) s (if sl.hypStatus h = 0 then (sl.hyp (hypId h)).depth * 2 ^ 24 + (sl.hyp (hypId h)).parent.toNat else sl.hypStatus h * 2 ^ 28)) ∧
    (∀ word, (word = .hypRefute w ∨ word = .hypConfirm w) → InHand word (fun _ => handleOk) asIs s i → i.begun = none →
      handleOk h = true → ¬MayRelease s i .device →
      Retries word s i (s.beginRelease i.t.cl (i.t.coreOf i.c.gid) i.c.uid i.c.gid .device)) ∧
    (InHand (.hypRefute w) (fun _ => handleOk) asIs s i → handleOk h = true → MayRelease s i .device →
      (sl.hypStatus h ≠ 0 → gives (.hypRefute w) (floor s) (sl.hypStatus h * 2 ^ 28)) ∧
      (sl.hypStatus h = 0 → gives (.hypRefute w) (floor (s.refuteTree i.t.slot (hypId h) .refuted).1) (s.refuteTree i.t.slot (hypId h) .refuted).2)) ∧
    (InHand (.hypConfirm w) (fun _ => handleOk) asIs s i →
      (i.begun = none → handleOk h = true → MayRelease s i .device →
        let r := s.confirm i.t.slot (hypId h)
        (sl.hypStatus h ≠ 0 → gives (.hypConfirm w) (floor s) (sl.hypStatus h * 2 ^ 28)) ∧
        (sl.hypStatus h = 0 → (s.liveHyp i.t.slot h).isSome → r.2.1 = 0 → gives (.hypConfirm w) (floor r.1) (3 * 2 ^ 28)) ∧
        (sl.hypStatus h = 0 → r.2.1 ≠ 0 → (sl.hyp (hypId h)).parent ≠ 0 → gives (.hypConfirm w) (floor r.1) r.2.1) ∧
        (sl.hypStatus h = 0 → r.2.1 ≠ 0 → (sl.hyp (hypId h)).parent = 0 → Stalls (.hypConfirm w) s i r.1 (BitVec.ofNat 32 r.2.1) (r.2.2 + 2) (s.hypSectors i.t.slot (hypId h)))) ∧
      ∀ y, i.begun = some y →
        (s.now < y.waitUntil → Stalls (.hypConfirm w) s i s y.result y.waitUntil y.holds) ∧
        (y.waitUntil ≤ s.now → Ends (.hypConfirm w) asIs s i (floor s) { out := fun _ => [(w.d.toNat, y.result)] }))

/-- Each stalls while its device release must wait. When it need not and their reads pass the checks of R294 and nothing
holds them back: SPAWN of a well-formed non-gang record that its header allows pushes it into the issuing cluster
while there is room and gives 0, SPAWN_GANG places a gang whole in the first cluster that fits, giving 0, or gives
1, and a refused record gives 2; SPAWN_JOIN decrements the join count, giving 0 above 1 and pushing the join record
at 1, whose status it then gives; AMSG sends its payload and words once the core's buffer has room, and stalls while
it has none; nothing else changes. That a header at an address no table can map (State.unresolvable) gives status 2,
and that the release comes before the reads, is the model's reading (log 41). (R17, R188 to R191, R326, R327.) -/
def Obligations.SpawnWords : Prop :=
  ∀ (s : State) (i : Issue),
    (∀ w : RM,
      let va := i.rd2 i.first w.a.toNat
      let gives := fun (word : Instr) (st : State) (r : Word) => Ends word asIs s i st { out := fun _ => [(w.d.toNat, r)] }
      (∀ gang : Bool,
        let word : Instr := if gang then .spawnGang w else .spawn w
        InHand word anyLit asIs s i →
          (¬MayRelease s i .device → Retries word s i (s.beginRelease i.t.cl (i.t.coreOf i.c.gid) i.c.uid i.c.gid .device)) ∧
          ∀ s1 pa l, MayRelease s i .device → s.reads i va 32 .read .plain = some (s1, pa, l) →
          (Record.parse l = none → gives word s1 2) ∧
          ∀ r, Record.parse l = some r → (s1.unresolvable i (r.entry - 64) 64 → gives word s1 2) ∧
            ∀ s2 pa2 hl, s1.reads i (r.entry - 64) 64 .read .plain = some (s2, pa2, hl) →
            (Header.parse hl = none → gives word s2 2) ∧
            ∀ h, Header.parse hl = some h →
              (r.against h ≠ 0 ∨ r.gang ≠ gang ∨ (gang = true ∧ s2.gangFits r h = false) → gives word s2 2) ∧
              (r.against h = 0 → r.gang = gang →
                (gang = true → s2.gangFits r h = true →
                  let x := s2.newLaunch i.t.slot .spawned r.count
                  match (List.range Config.clusters).findSome? fun cl => x.1.placeAll cl (x.1.queueRec i.t.slot x.2 r h none none 0) r.count 0 with
                  | some st => gives word st 0
                  | none => gives word s2 1) ∧
                (gang = false → ∀ s3,
                  (s2.spill i.t.slot 64 = (s3, true) → gives word (s3.push i.t.cl i.t.slot .spawned r h none none 0) 0) ∧
                  (s2.spill i.t.slot 64 = (s3, false) → Retries word s i s3)))) ∧
      (InHand (.spawnJoin w) anyLit asIs s i →
        (i.begun = none → ¬MayRelease s i .device →
          Retries (.spawnJoin w) s i (s.beginRelease i.t.cl (i.t.coreOf i.c.gid) i.c.uid i.c.gid .device)) ∧
        (i.begun = none → ∀ s1 pa l, MayRelease s i .device → s.reads i va 64 .readWrite .dev = some (s1, pa, l) →
          ((s1.decrementAt pa).2 ≠ 1 → gives (.spawnJoin w) (s1.decrementAt pa).1 0) ∧
          ((s1.decrementAt pa).2 = 1 → Stalls (.spawnJoin w) s i
            ((s1.decrementAt pa).1.addJoin i.t (i.t.coreOf i.c.gid) va false (some (i.c.uid, i.c.gid))) pendingJoin
            (s1.now + 1))) ∧
        ∀ y, i.begun = some y →
          (y.result ≠ pendingJoin → gives (.spawnJoin w) s y.result) ∧
          (y.result = pendingJoin → Stalls (.spawnJoin w) s i s pendingJoin (s.now + 1)))) ∧
    ∀ w : RR,
      let sp := i.rd i.first w.a.toNat
      let m := i.rd i.first (w.a.toNat + 1)
      let dst := i.srcB w i.first
      let len := (m.extractLsb' 0 9).toNat
      let idx := (m.extractLsb' 16 8).toNat
      let core := i.t.coreOf i.c.gid
      let slot := i.t.hdr.handlers + BitVec.ofNat 64 (8 + 16 * idx)
      InHand (.amsg w) (fun _ => destOk) asIs s i → m.extractLsb' 26 6 = 0 → m.extractLsb' 9 7 = 0 → 4 ≤ len → len ≤ 256 → len % 4 = 0 →
        destOk dst = true → sp.extractLsb' 30 2 = 0 → (s.spMarks i.t sp len).isSome → sp.extractLsb' 0 4 = 0 → i.t.hdr.handlers ≠ 0 →
        (¬MayRelease s i .device → Retries (.amsg w) s i (s.beginRelease i.t.cl (i.t.coreOf i.c.gid) i.c.uid i.c.gid .device)) ∧
        ∀ s1 p1 l s2 p2 le s3 p3 lf, MayRelease s i .device → s.reads i i.t.hdr.handlers 8 .read .plain = some (s1, p1, l) →
          s1.reads i slot 8 .read .plain = some (s2, p2, le) → s2.reads i (slot + 8) 8 .read .plain = some (s3, p3, lf) →
          idx < fieldAt l 0 4 → fieldAt l 0 4 ≤ 256 → fieldAt l 4 4 = 0 → leNat (le.take 8) ≠ 0 →
          (32 ≤ (s3.messages.filter fun x => x.cl == i.t.cl && x.core == core).length → Retries (.amsg w) s i s3) ∧
          ((s3.messages.filter fun x => x.cl == i.t.cl && x.core == core).length < 32 →
          Ends (.amsg w) asIs s i { s3 with
            messages := s3.messages ++ [
              { id := s3.nextId, slot := i.t.slot, cl := i.t.cl, core := core, dst := dst,
                prio := (m.extractLsb' 24 2).toNat, idx := idx, entry := BitVec.ofNat 64 (leNat (le.take 8)),
                frame := BitVec.ofNat 64 (leNat (lf.take 8)), table := i.t.hdr.handlers,
                words := leWords (len / 4) (s3.spReadRange [{ start := 0, uid := i.c.uid, off := sp.toNat }] 0 len),
                src := BitVec.ofNat 32 (idx + 256 * core + 2 ^ 16 * i.t.cl + 2 ^ 19 * i.t.place + 2 ^ 24 * (len / 4)),
                parked := false, failed := false }],
            nextId := s3.nextId + 1 } {})

/-- With a legal operand block, addresses in form, a good latch reference, no hypothesis, and the system release done,
XFER_PUT, XFER_PUTRED and XFER_GET put a transfer on counter 3, armed when an arm was pending, which is then spent,
and start it (the armed transfers whose moment has come fire first); they stall while the release must wait, the
counter is at 255, an acquire is outstanding or the table of armed transfers is full; XFER_ARM arms the group's next
transfer, and stalls while the table is full; XFER_DISARM ends every armed transfer of the group that has not fired
as delivered, gives their number, and drops a pending arm; nothing else changes. (R194, R195, R198, R199, R328.) -/
def Obligations.TransferWords : Prop :=
  ∀ (w : RM) (s : State) (i : Issue),
    (∀ row ∈ ([(.xferPut, 0), (.xferPutred, 1), (.xferGet, 2)] : List ((RM → Instr) × Nat)),
      let r := fun k => i.rd i.first (w.a.toNat + k)
      let va := i.rd2 i.first w.a.toNat
      let remote := i.rd2 i.first (w.a.toNat + 2)
      let len := (r 4).toNat
      let ctl := r 5
      let spl := ctl.getLsbD 15
      let al := if row.2 = 1 ∧ (ctl.extractLsb' 16 4).toNat = 0 ∧ remote.extractLsb' 44 4 ≠ 0xF then 128 else 16
      let x : Xfer :=
        { minor := row.2, va := va, marks := (s.spMarks i.t (r 0) len).getD [], spl := spl, remote := remote, len := len,
          rtype := (ctl.extractLsb' 16 4).toNat, dev := (ctl.extractLsb' 0 10).toNat, block := w.a.toNat,
          armed := i.g.arm.map fun x => (x.lk, x.n, (i.t.latch x.lk).phases), entry := s.reduceEntry (remote.extractLsb' 32 12).toNat,
          sent := false, sentAt := 0, sentNo := 0, port := 0, spoiled := false, data := none }
      let s0 := if i.g.arm.isSome then s.settleArms else s
      let o := i.op s0 3 ((refTarget s i (ctl.getLsbD 13) (r 6)).map fun x => { x with far := true }) (ctl.getLsbD 14) .running (.xfer x)
      InHand (row.1 w) anyLit asIs s i → xferIllegal row.2 len ctl.toNat (r 7).toNat remote = false →
        RefOk s i (ctl.getLsbD 13) (r 6) → remote.extractLsb' 48 16 = 0 → al ∣ remote.toNat →
        (spl = false → va.extractLsb' 48 16 = 0 ∧ al ∣ va.toNat) →
        (spl = true → (r 0).extractLsb' 30 2 = 0 ∧ (s.spMarks i.t (r 0) len).isSome ∧ al ∣ (r 0).toNat) →
        i.subsetHyp = 0 →
        (¬MayRelease s i .system → Retries (row.1 w) s i (s.beginRelease i.t.cl (i.t.coreOf i.c.gid) i.c.uid i.c.gid .system)) ∧
        (MayRelease s i .system → (255 ≤ s.counter i.c.uid i.c.gid 3 ∨ s.acquiring i = true ∨
            i.g.arm.isSome = true ∧ 64 ≤ (s.armedTable i.t.cl (i.t.coreOf i.c.gid)).length) → Retries (row.1 w) s i s) ∧
        (MayRelease s i .system → s.counter i.c.uid i.c.gid 3 < 255 → s.acquiring i = false →
            (i.g.arm.isSome = true → (s.armedTable i.t.cl (i.t.coreOf i.c.gid)).length < 64) →
        Ends (row.1 w) asIs s i
          ((({ s0 with ops := s0.ops ++ [o], nextId := s0.nextId + 1 }.mapGroup i.c.uid i.c.gid fun g => { g with arm := none }).sendXfer o.id).armedFire
            o.id) {})) ∧
    (InHand (.xferArm w) (fun _ x => !x.getLsbD 31) asIs s i → (i.srcA w i.first).toNat < 2 ^ 31 → i.subsetHyp = 0 →
      let held := (s.armedTable i.t.cl (i.t.coreOf i.c.gid)).length + s.armsPending i.t.cl (i.t.coreOf i.c.gid) i.c.uid i.c.gid
      (held < 64 → Ends (.xferArm w) asIs s i
        (s.mapGroup i.c.uid i.c.gid fun g => { g with arm := some { lk := w.d.toNat, n := (i.srcA w i.first).toNat } }) {}) ∧
      (64 ≤ held → Retries (.xferArm w) s i s)) ∧
    (InHand (.xferDisarm w) anyLit asIs s i → i.subsetHyp = 0 →
      let mine := (s.classOps i.c.uid i.c.gid 3).filter fun o => o.stage != .finished && (o.xfer?.any fun x => x.armed.isSome)
      Ends (.xferDisarm w) asIs s i
        ((mine.foldl (fun s o => match o.xfer? with
            | some x => (s.mapXfer o.id fun x => { x with armed := none }).endTransfer o x 0
            | none => s) s).mapGroup i.c.uid i.c.gid fun g => { g with arm := none })
        { out := fun _ => [(w.d.toNat, BitVec.ofNat 32 mine.length)] })

/-- MMA run by the whole group under a format, MLOOP, MSCALE, MZERO, MTRSM and MFACT_CHOL with legal operands put one
command with its sampled operands on counter 1, and stall while it is at 255 or an earlier acquire or handle read is
outstanding (MLOOP also while four loops run or an earlier access is outstanding, MFACT_CHOL while its region is
busy); MFACT_CHOL on a fresh region first writes its header; MCFG writes the format register; MSTAT writes the
group's status word and clears LOSS; nothing else changes. That the region of MFACT_CHOL and MTRSM is checked, and
the header of a fresh one written, at issue is log 26; that MLOOP reads its handles at issue when it can, log 38;
the BUSY bit of MSTAT and the need of the whole group, log 45: the model's readings. (R167, R168, R172, R175, R176,
R181, R186, R333 to R335, R338, R339.) -/
def Obligations.MatrixWords : Prop :=
  (∀ w : RR, Queues (.mma w) anyLit asIs 1 (fun _ i => i.whole = true ∧ i.g.mcfg ≠ 0)
      fun s i => i.op s 1 none false .running (.mma w.d.toNat i.g.mcfg (i.fragment w.a.toNat) (i.fragment w.b.toNat))) ∧
  (∀ w : RR,
    let r := fun (i : Issue) k => i.rd i.first (w.a.toNat + k)
    LoopQueued w
      (fun _ i => 1 ≤ (r i 14).toNat ∧ (r i 14).toNat ≤ 65535 ∧ r i 15 = 0 ∧ i.g.mcfg ≠ 0 ∧
        ∀ k ∈ [0, 2], (i.rd2 i.first (w.a.toNat + k)).extractLsb' 48 16 = 0 ∧ (i.rd2 i.first (w.a.toNat + k)).extractLsb' 0 6 = 0)
      fun i aRaw bRaw =>
        { slot := w.d.toNat, cfg := i.g.mcfg, aVa := i.rd2 i.first w.a.toNat, bVa := i.rd2 i.first (w.a.toNat + 2),
          aOrg := [(r i 4).toInt, (r i 5).toInt, (r i 6).toInt, (r i 7).toInt], bOrg := [(r i 8).toInt, (r i 9).toInt, (r i 10).toInt, (r i 11).toInt],
          aInc := (r i 12).toInt, bInc := (r i 13).toInt, steps := (r i 14).toNat, applied := 0, aRaw := aRaw, bRaw := bRaw, fetched := [] }) ∧
  (∀ w : RR, Queues (.mscale w) anyLit asIs 1 (fun _ _ => True)
      fun s i => i.op s 1 none false .running (.mscale w.d.toNat w.a.toNat (wordsBytes (i.rdN i.first w.b.toNat 4)) (wordsBytes (i.rdN i.first (w.b.toNat + 4) 4)))) ∧
  (∀ w : RM, Queues (.mzero w) anyLit asIs 1 (fun _ _ => True) fun s i => i.op s 1 none false .running (.mzero w.d.toNat)) ∧
  (∀ (w : RM) (s : State) (i : Issue),
    (InHand (.mcfg w) (fun _ => mcfgOk) asIs s i → mcfgOk (i.srcA w i.first) = true →
      Ends (.mcfg w) asIs s i (s.mapGroup i.c.uid i.c.gid fun g => { g with mcfg := i.srcA w i.first }) {}) ∧
    (InHand (.mstat w) anyLit asIs s i → Ends (.mstat w) asIs s i (s.mapGroup i.c.uid i.c.gid fun g => { g with mLoss := false })
      { out := fun _ => [(w.d.toNat, s.matrixStatus i.c.uid i.c.gid i.g)] }) ∧
    (let r := fun k => i.rd i.first (w.a.toNat + k)
     let n := ((r 3).extractLsb' 8 6).toNat
     let cols := ((r 3).extractLsb' 0 6).toNat
     let size := 4 * n * cols
     let o := i.op s 1 none false .running (.mtrsm (r 0) (r 1) (r 2) n cols ((r 3).getLsbD 31) 0)
     let x := s.engSpRead o (ownMark i.c.uid (r 0)) 0 64
     InHand (.mtrsm w) anyLit asIs s i → (r 3).extractLsb' 14 17 = 0 → (r 3).extractLsb' 6 2 = 0 → 1 ≤ n → n ≤ 32 → 1 ≤ cols → cols ≤ 32 →
       (∀ y ∈ [(r 0, factBytes n, 64), (r 1, size, 16), (r 2, size, 16)], y.1.extractLsb' 30 2 = 0 ∧ (s.spMarks i.t y.1 y.2.1).isSome ∧ y.2.2 ∣ y.1.toNat) →
       rangesMeet (r 1).toNat size (r 2).toNat size = false → rangesMeet (r 1).toNat size (r 0).toNat (factBytes n) = false →
       rangesMeet (r 2).toNat size (r 0).toNat (factBytes n) = false →
       (s.acquiring i = true → Retries (.mtrsm w) s i s) ∧
       (s.acquiring i = false → fieldAt x.2 8 1 = 2 → fieldAt x.2 0 1 = n →
         (255 ≤ s.counter i.c.uid i.c.gid 1 → Retries (.mtrsm w) s i s) ∧
         (s.counter i.c.uid i.c.gid 1 < 255 → x.1.counter i.c.uid i.c.gid 1 < 255 → x.1.acquiring i = false →
           Ends (.mtrsm w) asIs s i
             (x.1.addOp (i.op x.1 1 none false .running (.mtrsm (r 0) (r 1) (r 2) n cols ((r 3).getLsbD 31) 0))) {})))) ∧
  ∀ (w : RR) (s : State) (i : Issue),
    let hdr := i.rd i.first w.a.toNat
    let n := (i.srcB w i.first).toNat
    let x := s.engSpRead (i.op s 1 none false .running (.mfact hdr n false)) (ownMark i.c.uid hdr) 0 64
    let status := fieldAt x.2 8 1
    let st := if status = 0 then x.1.spWriteRange (ownMark i.c.uid hdr) 0 (coldHeader n i.c.snap.round i.c.snap.pivm i.c.snap.pivt i.c.snap.pivd) else x.1
    InHand (.mfactChol w) (fun _ x => decide (1 ≤ x.toNat) && decide (x.toNat ≤ 32)) asIs s i → 1 ≤ n → n ≤ 32 → hdr.extractLsb' 30 2 = 0 →
      hdr.extractLsb' 0 6 = 0 → (s.spMarks i.t hdr (factBytes n)).isSome →
      (s.factBusy i.c.uid hdr.toNat (factBytes n) = true ∨ s.acquiring i = true → Retries (.mfactChol w) s i s) ∧
      (s.factBusy i.c.uid hdr.toNat (factBytes n) = false → s.acquiring i = false → status < 4 →
        (status = 1 ∨ status = 3 → warmOk n x.2 = true) →
        (255 ≤ s.counter i.c.uid i.c.gid 1 → Retries (.mfactChol w) s i s) ∧
        (s.counter i.c.uid i.c.gid 1 < 255 → st.counter i.c.uid i.c.gid 1 < 255 → st.acquiring i = false →
          Ends (.mfactChol w) asIs s i
            (st.addOp (i.op st 1 none false (if status = 2 then .finished else .running) (.mfact hdr n (status == 3)))) {}))

/-- MDRAIN_R run by the whole group, MDRAIN_SP, MDRAIN_GL, MDRAIN_PEER and MDRAIN_Q with legal operands put one drain of
their slot on counter 1 with its destination; the registers of an MDRAIN_R are EMPTY until their part of it
completes; each stalls while the counter is at 255 or an earlier acquire or handle read is outstanding (MDRAIN_GL
also while an earlier access is); nothing else changes. That MDRAIN_PEER of a slot into itself is admitted is log
64, since R179 speaks of another slot; that MDRAIN_GL reads its handle at issue when it can is log 38; the parts in
which a drain writes are log 45: the model's readings. (R177 to R179, R336.) -/
def Obligations.DrainWords : Prop :=
  ∀ (w : RM) (s : State) (i : Issue),
    let full := 255 ≤ s.counter i.c.uid i.c.gid 1 ∨ s.acquiring i = true
    let drains := fun (word : Instr) (slot : Nat) (dest : DrainTo) (left : List Nat) (e : Effect) =>
      (¬full → Ends word asIs s i
        { s with ops := s.ops ++ [i.op s 1 none false .running (.mdrain slot dest [] left)], nextId := s.nextId + 1 } e) ∧
      (full → Retries word s i s)
    let r := fun k => i.rd i.first (w.a.toNat + k)
    (InHand (.mdrainR w) anyLit asIs s i → i.whole = true →
      drains (.mdrainR w) w.a.toNat (.regs w.d.toNat) (List.range i.g.threads.length)
        { pend := fun _ => (List.range (fragRegs i.t.hdr.groupWidth)).map fun k => (w.d.toNat + k, s.nextId) }) ∧
    (InHand (.mdrainSp w) anyLit asIs s i → 64 ≤ (r 1).toNat → 16 ∣ (r 1).toNat → (r 0).extractLsb' 0 4 = 0 →
      ∀ m, s.spMarks i.t (r 0) (15 * (r 1).toNat + 64) = some m → drains (.mdrainSp w) w.d.toNat (.scratch m (r 1).toNat) (List.range 64) {}) ∧
    (InHand (.mdrainGl w) anyLit asIs s i → r 6 = 0 → r 7 = 0 → (i.rd2 i.first w.a.toNat).extractLsb' 48 16 = 0 →
      (i.rd2 i.first w.a.toNat).extractLsb' 0 6 = 0 →
      let body := fun raw => OpBody.mdrain w.d.toNat
        (.global (i.rd2 i.first w.a.toNat) [(r 2).toInt, (r 3).toInt, (r 4).toInt, (r 5).toInt] raw none 0) [] (List.range (16 * drainRowParts))
      let x := s.readHandle (i.op s 1 none false .running (body none)) (i.rd2 i.first w.a.toNat).toNat
      (full ∨ s.accessing i = true → Retries (.mdrainGl w) s i s) ∧
      (¬full → s.accessing i = false → x.1.counter i.c.uid i.c.gid 1 < 255 → x.1.acquiring i = false →
        Ends (.mdrainGl w) asIs s i { x.1 with ops := x.1.ops ++ [i.op x.1 1 none false .running (body x.2)], nextId := x.1.nextId + 1 } {})) ∧
    (let ref := i.srcA w i.first
     let slot := (ref.extractLsb' 0 2).toNat
     let far := ref.extractLsb' 30 2 != 0
     let core := if far then (ref.extractLsb' 22 8).toNat else i.t.coreOf i.c.gid
     InHand (.mdrainPeer w) (fun _ x => !slotRefIllegal x) asIs s i → slotRefIllegal ref = false → ∀ x, s.refTeam i.t ref = some x → slot < x.record.slots →
       drains (.mdrainPeer w) w.d.toNat
         (.peer x.uid (x.tileIdx core slot) (if ref.getLsbD 9 then some { uid := x.uid, lk := (ref.extractLsb' 4 4).toNat, far := true } else none) none
           (if core = i.t.coreOf i.c.gid then s.nextId else 0)) [0] {}) ∧
    (InHand (.mdrainQ w) anyLit asIs s i → (i.g.boundTo 2).isSome → drains (.mdrainQ w) w.d.toNat .queue [0] {})

/-- CSR_RD writes the value of its csr for the thread (csr 17: the meeting register as a pair); CSR_WR of an allowed
value writes it: meet, fst, trapc, trapa and trapd in each running thread, the others once in the group or team, ffl
taking the time and lnkc clearing; nothing else changes. (R233, R341, R342, R344.) -/
def Obligations.CsrWords : Prop :=
  ∀ (w : RN) (s : State) (i : Issue),
    (InHand (.csrRd w) anyLit asIs s i →
      Ends (.csrRd w) asIs s i s
        { out := fun k =>
            if w.m = 17 then pairOf w.d.toNat (((i.c.snap.threads[if i.v.u then i.first else k]?).map (·.meet)).getD 0)
            else [(w.d.toNat, i.csr s (if i.v.u then i.first else k) w.m.toNat)] }) ∧
    (InHand (.csrWr w) (fun _ x => w.m = 17 || csrOk w.m.toNat x) asIs s i →
      (w.m = 17 → (∀ k ∈ i.c.active, meetOk (if w.l then i.lit.setWidth 64 else i.rd2 k w.a.toNat) = true) →
        Ends (.csrWr w) asIs s i s
          { edit := fun k th => { th with meet := if w.l then i.lit.setWidth 64 else i.rd2 (if i.v.u then i.first else k) w.a.toNat } }) ∧
      (w.m ≠ 17 → csrPerThread w.m.toNat = true → (∀ k ∈ i.c.active, csrOk w.m.toNat (if w.l then i.lit else i.rd k w.a.toNat) = true) →
        Ends (.csrWr w) asIs s i s
          { edit := fun k th => th.setCsr w.m.toNat (if w.l then i.lit else i.rd (if i.v.u then i.first else k) w.a.toNat) }) ∧
      (csrPerThread w.m.toNat = false → csrOk w.m.toNat (if w.l then i.lit else i.rd i.first w.a.toNat) = true →
        Ends (.csrWr w) asIs s i (s.groupCsr i w.m.toNat (if w.l then i.lit else i.rd i.first w.a.toNat)) {}))

/-- SYS_ERET of threads in a handler with a legal trapa leaves the handler and goes to trapa; SYS_HALT begins the halt
of its core; SYS_L2FLUSH 0, and 1 or 2 once the last lease has run out, writes every ACC unit and every dirty sector
back; SYS_TLBINV starts an invalidation and completes with it; SYS_CTXSV of a team with a usable area stops it and,
once its image is written, gives status 0; SYS_CTXLD of a good image takes the saved team back to a free place and
gives 0, and one that reads a poisoned sector kills its own team (R439); nothing else changes. That 1 and 2 of
SYS_L2FLUSH stall until the last lease has run out is log 48; the conditions and statuses of a save and of a restore
beyond the words of R347 are log 47: the model's readings. (R42, R47, R48, R346 to R348, R421, R425.) -/
def Obligations.SystemWords : Prop :=
  ∀ (w : RM) (s : State) (i : Issue),
    (InHand (.sysEret w) anyLit asIs s i → (∀ k ∈ i.c.active, ∃ th, i.thread? k = some th ∧ th.inHandler = true) →
      (∀ k ∈ i.c.active, pcOk (i.returnPc k) = true) →
      Ends (.sysEret w) asIs s i s { goto := fun k => some (i.returnPc k), edit := fun _ th => { th with inHandler := false, atEret := th.dlPend.isSome } }) ∧
    (InHand (.sysHalt w) anyLit asIs s i →
      Ends (.sysHalt w) asIs s i (s.mapCore i.t.cl (i.t.coreOf i.c.gid) fun c => { c with halting := true }) {}) ∧
    (InHand (.sysL2flush w) (fun _ x => decide (x.toNat < 3)) asIs s i →
      let x := i.srcA w i.first
      (i.begun = none → x.toNat < 3 →
        (x = 0 → Ends (.sysL2flush w) asIs s i (s.flushAcc false) {}) ∧
        (x ≠ 0 → s.lastExpiry ≤ s.now → Ends (.sysL2flush w) asIs s i (s.flushAcc true) {}) ∧
        (x ≠ 0 → s.now < s.lastExpiry → Stalls (.sysL2flush w) s i (s.flushAcc true) 0 s.lastExpiry)) ∧
      ∀ y, i.begun = some y →
        (y.waitUntil ≤ s.now → Ends (.sysL2flush w) asIs s i (s.flushAcc true) {}) ∧
        (s.now < y.waitUntil → Stalls (.sysL2flush w) s i s 0 y.waitUntil)) ∧
    (InHand (.sysTlbinv w) (fun _ _ => false) asIs s i → w.l = false →
      let x := i.rd i.first w.a.toNat
      let va := i.rd2 i.first (w.a.toNat + 2)
      let kind := (x.extractLsb' 0 2).toNat
      (i.begun = none → x.extractLsb' 2 14 = 0 → kind ≠ 3 → i.rd i.first (w.a.toNat + 1) = 0 → (kind = 0 → va.extractLsb' 48 16 = 0) →
        Stalls (.sysTlbinv w) s i (s.addInval kind (x.extractLsb' 16 16).toNat va.toNat false) (BitVec.ofNat 32 s.nextId) (s.now + 1)) ∧
      ∀ y, i.begun = some y → (∀ b ∈ s.tlbBusy, BitVec.ofNat 32 b.id ≠ y.result) → Ends (.sysTlbinv w) asIs s i s {}) ∧
    (let va := (i.rd2 i.first w.a.toNat).toNat
     let x := i.rd i.first (w.a.toNat + 2)
     let legal := w.l = false ∧ x.extractLsb' 13 19 = 0 ∧ i.rd i.first (w.a.toNat + 3) = 0 ∧
       (i.rd2 i.first w.a.toNat).extractLsb' 48 16 = 0 ∧ (i.rd2 i.first w.a.toNat).extractLsb' 0 12 = 0
     (InHand (.sysCtxsv w) (fun _ _ => false) asIs s i →
       (i.begun = none → legal →
         (s.contextTarget i x = none → Ends (.sysCtxsv w) asIs s i s { out := fun _ => [(w.d.toNat, 1)] }) ∧
         ∀ t, s.contextTarget i x = some t →
           (s.areaCheck i va t.record.imageSize .write = .unresolvable → Ends (.sysCtxsv w) asIs s i s { out := fun _ => [(w.d.toNat, 2)] }) ∧
           (s.areaCheck i va t.record.imageSize .write = .usable → s.saverAlive t = false →
             Stalls (.sysCtxsv w) s i (s.mapTeam t.uid fun t => if s.saverAlive t then t else { t with saving := some (i.c.uid, i.c.gid) })
               (savePending t.uid) (s.now + 1))) ∧
       ∀ y, i.begun = some y →
         (y.result.getLsbD 31 = true → ∀ t, s.contextTarget i x = some t → savePending t.uid = y.result → t.saving = some (i.c.uid, i.c.gid) →
           s.areaCheck i va t.record.imageSize .write = .usable → (s.drainTeam t).canSave t = true →
           let put := (s.drainTeam t).putAway t
           ∀ kept since st waitUntil, put.saved.getLast? = some (kept, since) → put.writeArea i va (put.image kept) = (st, waitUntil) →
             Stalls (.sysCtxsv w) s i st.tookFree 0 waitUntil) ∧
         (y.result.getLsbD 31 = false → y.waitUntil ≤ s.now → Ends (.sysCtxsv w) asIs s i s { out := fun _ => [(w.d.toNat, y.result)] })) ∧
     (InHand (.sysCtxld w) (fun _ _ => false) asIs s i → legal → s.areaCheck i va 4096 .read = .usable →
       (s.areaPoisoned i va 4096 = true → Ends (.sysCtxld w) asIs s i (s.killTeam i.c.uid 0x13 0) {}) ∧
       let h := s.readArea i va 4096
       ∀ r, s.areaPoisoned i va 4096 = false →
         Record.parse (sliceOf h.2 16 32) = some r → h.1.imageRefused h.2 r.imageSize i.t.cl (x.extractLsb' 0 8).toNat = false →
         h.1.areaCheck i va r.imageSize .read = .usable → h.1.areaPoisoned i va r.imageSize = false →
         let b := h.1.readArea i va r.imageSize
         ∀ t since, b.1.savedTeam b.2 = some (t, since) → t.record = r →
           (b.1.canRestore t (x.extractLsb' 8 5).toNat = true →
             Ends (.sysCtxld w) asIs s i (b.1.takeBack ((t.restore b.2).mapThreads (b.1.slot t.slot).resumed) (x.extractLsb' 8 5).toNat) { out := fun _ => [(w.d.toNat, 0)] }) ∧
           (b.1.canRestore t (x.extractLsb' 8 5).toNat = false → Ends (.sysCtxld w) asIs s i b.1 { out := fun _ => [(w.d.toNat, 1)] })))

/-- Where the running threads can take a trap, TRAP takes cause 0x30 + M with its operand as the datum, BRK takes BREAK:
trapc, trapd and trapa (the address of the first word of the set) are saved, the PC is the vector, the thread is in
its handler; the others and everything else are as before. (R42, R266, R238.) -/
def Obligations.SoftwareTraps : Prop :=
  ∀ (s : State) (i : Issue), CanTrap i →
    (∀ w : RN, InHand (.trap w) anyLit asIs s i →
      ∃ s', exec (.trap w) s = .next s' ∧ TrapLands s s' i (fun k => (0x30 + w.m.toNat, if w.l then i.lit else i.rd (if i.v.u then i.first else k) w.a.toNat))) ∧
    ∀ w : RM, InHand (.brk w) anyLit asIs s i → ∃ s', exec (.brk w) s = .next s' ∧ TrapLands s s' i (fun _ => (0x0E, 0))

/-- For every word of the machine: when its fields or registers are not legal in the kernel, or its literal fails the
check made of it at decode, the running threads take ILLEGAL with the word as the datum; a legal word of sys 1 to 5,
with a literal that passes or without one, takes PRIV in a process that is not privileged. (R42, R208, R209, R210,
R211, R212, R213, R216, R218, R232, R234, R235.) -/
def Obligations.IllegalTraps : Prop :=
  ∀ (word : Instr) (s : State) (i : Issue), word.view ≠ .event → Issuing s i → i.v = word.view → CanTrap i →
    (i.v.legal i.t = false ∨ i.v.lit = true ∧ literalOk word i i.c.lit = false →
      ∃ s', exec word s = .next s' ∧ TrapLands s s' i (fun _ => (0x01, i.c.word))) ∧
    (i.v.legal i.t = true → (i.v.lit = true → literalOk word i i.c.lit = true) → i.v.op = 0x7F → 1 ≤ i.v.minor →
      (s.slot i.t.slot).xctl.getLsbD 2 = false →
      ∃ s', exec word s = .next s' ∧ TrapLands s s' i (fun _ => (0x0D, i.c.word)))

/-- Every operation of the device, each named here, ends in a next state in every state and with every operand; no
instruction at all is refused in any state; a word, as distinct from an operation of the device, ends in a next
state exactly when a word is in hand for a resident group. No rule of the spec entails this: that an operation whose
occasion has not come changes nothing, and that a word of no resident group faults, are the model's choices (logs 15
and 16); R218 and R235 say what a word in hand does when it is not legal. -/
def Obligations.NeverRefused : Prop :=
  (∀ (s : State) (a b c : Nat) (va : BitVec 64) (acc : AccessKind) (req : RemoteRequest) (resp : XferReply) (data : List (BitVec 8)) (x y : Bool) (w : BitVec 32)
      (op : HostAtomic) (part : Option (List (BitVec 8)))
      (h : BitVec 16) (m : Master) (img : FlashImage) (loc : ErrorSite),
      ∀ i ∈ (([.teamPlacement a b, .carveReservation a, .steal a, .priorityRaise a b, .teamExit a, .joinRecordPush a,
        .groupExchange a b, .groupTimesliceExchange a b, .meetingRelease a b, .producerCompletion a,
        .instructionLineFill a b va, .deadlineExpiry a, .deadlineTrap a b c, .orphanTrap a b c, .storeBufferEntryDrain
        a b c, .homeSliceWrite a, .writeAcknowledge a, .acqrTargetDrain a, .acqrReport a, .directorySnoop a,
        .writebackAcknowledge a, .pageWalk a va acc, .latchRemoteArrival a, .copyCommandStart a, .copyPart a b]
        ++ [.commandRetire a, .pfrLineResident a b, .skeinRequestArrival a, .gatherTimeout a b c, .skeinFillLand a,
        .peerWordArrival a b c, .matrixStep a, .mloopOperandFetch a, .mdrainWrite a b, .peerDrainMerge a, .mfactColumn
        a, .mtrsmRow a, .amsgArrival a, .xferArmedFire a, .xferRemoteRequest req, .xferResponse a resp, .xferTimeout
        a, .apertureDownMessage a b data, .hypIdFree a b, .slotEnable a, .slotHold a x, .slotTeardown a,
        .launchDoorbell a w, .launchEntryTake a, .launchCompletion a]
        ++ [.completionConsumed a w, .hostWindow1Write a data, .hostWindow1Read a b, .hostAtomicop a op, .hostCxlMemAccess
        a b part, .hostLinkTraining x y, .resume w, .fbciWrite a w, .fackRetry a b, .fackFail a b, .dlnow a, .tlbiPage h,
        .tlbiAsid h, .tlbiAll, .tlbInvalidationComplete, .vscfgWrite w, .portEnable m a, .portDisable m a,
        .portTrained a h, .portTrainingTimeout a, .wavelengthLost w a, .linkRetryExhausted a, .porterrClear a, .boot,
        .bootctlCommit m]
        ++ [.firmwareUpdate img, .spdmMeasurements, .keyTake, .keyRelease, .keyRenew, .status, .resetWarm, .resetCold,
        .powerCap w, .write a w, .keyctlTake, .keyctlRelease, .keyctlRenew, .keyExpiry, .pldmSensorRead a,
        .correctedError w a, .uncorrectableError w loc, .readmit m w, .pcapWrite m w, .clockStep a b,
        .thermalThrottle, .thermalTrip a, .registerWrite m a va, .hostHomeAgentSnoop a, .powerLoss]) : List Instr),
        ∃ t, exec i s = .next t) ∧
  ∀ (word : Instr) (s : State),
    (∀ r, exec word s ≠ .refused r) ∧
    (word.view = .event → ∃ s', exec word s = .next s') ∧
    (word.view ≠ .event → ((∃ s', exec word s = .next s') ↔ ∃ c t g, s.cur = some c ∧ s.team? c.uid = some t ∧ t.groups[c.gid]? = some g))

/-- For every word, with a literal that passes its check or without one, and with the operands that its values name (the
latch reference of CP, CPO, CPT and SLD is read only with LAT = 1, and FREE reads nothing): when a source or
destination of a running thread is EMPTY and must be waited for, the whole subset waits for registers and nothing
else changes; when none waits and every running thread's first failing check is a trap, each takes that trap:
REG_EMPTY for an EMPTY source with E, REG_ABSENT for an ABSENT source under absm. That a thread that waits makes the
whole subset wait before another thread traps, and that of one thread the first unready source in the order D, A, B
decides, is the model's reading (log 11). (R39, R41, R234, R235.) -/
def Obligations.RegisterWaits : Prop :=
  ∀ (word : Instr) (s : State) (i : Issue), word.view ≠ .event →
    Issuing s i → i.v = word.view → i.v.legal i.t = true → (i.v.lit = true → literalOk word i i.c.lit = true) → s.forbidden i.v i.t = false →
    ((∃ k ∈ i.c.active, i.check (operandsOf word i i.ops) k = .waiting) → Waits word s i s .reg) ∧
    (CanTrap i → ∀ why : Nat → Nat × Word, (∀ k ∈ i.c.active, i.check (operandsOf word i i.ops) k = .trap (why k).1 (why k).2) →
      (i.v.u = true → ∀ j k, why j = why k) → ∃ s', exec word s = .next s' ∧ TrapLands s s' i why)

/-- TEAM_PLACEMENT reads a spilled record back first, and waits while that meets a fault; then it puts the next team of
the record its cluster serves on a core that takes it (every thread at the entry, with R29's first values) and takes
its index off the record, and a gang whole; a domain that holds no team of a placed launch is free;
CARVE_RESERVATION keeps a core for each head record that has waited 200 us for its carve and has none: the one with
the fewest resident teams (of those not kept for another record, the model's choice of log 51, as the order in which
records are stolen is); STEAL moves the upper half of the unplaced indices (or the one left) of another cluster's
first record that may be stolen; PRIORITY_RAISE marks the records of its number that have waited more than 1 ms;
TEAM_EXIT frees a team that is over, its stores acknowledged, decrements its join block when it names one, and kills
it when an engine event was not reported; JOIN_RECORD_PUSH reads the record of its block, pushes it when it passes
its checks and refuses it otherwise. (R17, R18, R19, R21, R22, R23, R25, R28, R29, R447.) -/
def Obligations.PlacementEvents : Prop :=
  (∀ (s : State) (cl core : Nat) (q : QRec), s.served cl = some q → s.fits cl core q.launch q.record q.hdr q.pin = true →
    (q.spillAt = none → s.readBack cl q = (s, true)) ∧
    (∀ st, s.readBack cl q = (st, false) → exec (.teamPlacement cl core) s = .next st) ∧
    (∀ st, s.readBack cl q = (st, true) → q.record.gang = false →
      exec (.teamPlacement cl core) s = .next (((st.placeTeam cl core q q.next).mapRec cl q.id fun q =>
        if q.next + 1 < q.stop then some { q with next := q.next + 1 } else none).releaseDomains)) ∧
    (∀ st st', s.readBack cl q = (st, true) → q.record.gang = true →
      (st.placeTeam cl core q q.next).placeAll cl q (q.stop - q.next - 1) (q.next + 1) = some st' →
      exec (.teamPlacement cl core) s = .next ((st'.mapRec cl q.id fun _ => none).releaseDomains)) ∧
    (s.team? s.nextId = none → ∃ t, (s.placeTeam cl core q q.next).team? s.nextId = some t ∧ t.cl = cl ∧ t.core = core ∧
      t.launch = q.launch ∧ t.record = q.record ∧ t.tmid = q.next ∧ t.groups.length = q.record.groups ∧
      ∀ g ∈ t.groups, g.threads = List.replicate q.hdr.groupWidth (Thread.placed q.hdr q.record.entry))) ∧
  (∀ (s : State) (cl : Nat),
    exec (.carveReservation cl) s = .next (((s.carveWaiters cl).filter fun q => s.carveDue cl q).foldl (fun s q => s.reserveCore cl q) s) ∧
    ∀ q : QRec,
      (s.carveDue cl q = true ↔ (∃ since, (q.id, since) ∈ (s.cluster cl).waits ∧ since + 200000 ≤ s.now) ∧
        ∀ r ∈ (s.cluster cl).reserved, r.record ≠ q.id) ∧
      ∀ n, leastBy (fun n => (s.teamsOn cl n).length) ((List.range 256).filter fun n =>
          !s.coreOut cl n && (q.pin.isNone || q.pin == some n) && !((s.cluster cl).reserved.any fun r => r.core == n)) = some n →
        s.reserveCore cl q = s.mapCluster cl fun c =>
          { c with reserved := c.reserved ++ [{ core := n, slots := q.record.slots, sp := q.record.sp, record := q.id }] }) ∧
  (∀ (s : State) (cl c : Nat) (q : QRec), (s.cluster cl).queue = [] → s.stealable cl = some (c, q) →
    ∀ k, k = (if q.stop - q.next = 1 then 1 else (q.stop - q.next) / 2) →
    (∀ st, s.readBack c q = (st, false) → exec (.steal cl) s = .next st) ∧
    ∀ st, s.readBack c q = (st, true) → exec (.steal cl) s = .next
      { (st.mapRec c q.id fun q' => if k = q.stop - q.next then none else some { q' with stop := q'.stop - k }).mapCluster cl fun x =>
          { x with queue := x.queue ++ [{ q with id := st.nextId, next := q.stop - k, spillAt := none }] } with
        nextId := st.nextId + 1 }) ∧
  (∀ (s : State) (cl rid : Nat), exec (.priorityRaise cl rid) s = .next (s.mapCluster cl fun c =>
    { c with queue := c.queue.map fun q =>
        if q.id = rid ∧ q.raised = false ∧ q.prio < 3 ∧ q.pushed + 1000000 < s.now then { q with raised := true } else q })) ∧
  (∀ (s : State) (t : Team), s.team? t.uid = some t → (∀ g ∈ t.groups, ∀ th ∈ g.threads, th.live = false) →
    (∀ o ∈ s.ops, o.uid = t.uid → o.cls = 2) → s.storesAcked t.uid = true →
    (t.oldestEvent = none → t.record.join = 0 → exec (.teamExit t.uid) s = .next (s.releaseTeam t false)) ∧
    (t.oldestEvent = none → t.record.join ≠ 0 → t.horizon + 2 ≤ s.now →
      exec (.teamExit t.uid) s = .next ((s.releaseTeam t false).joinExit t)) ∧
    ∀ e va, t.oldestEvent = some (e, va) → exec (.teamExit t.uid) s = .next (s.killTeam t.uid (if e.pivot then 0x11 else 0x0A) va)) ∧
  ∀ (s : State) (j : JoinPush) (pa bits : Nat) (e : TlbEntry), s.joins.find? (fun x => x.id == j.id) = some j →
    j.parked = false → j.owed = false → j.failed = false →
    s.translate (s.slot j.slot) (j.block.toNat + 32) .read = .ok pa bits e →
    let r := (s.tlbFill e).sliceRead pa 32
    let refuse := fun (s : State) (reason : Nat) =>
      if j.waiter.isSome then s.endJoin j 2 else (s.endJoin j 2).noteFault j.slot (j.block.toNat + 32) kRefused reason j.source
    (Record.parse r.2 = none → exec (.joinRecordPush j.id) s = .next (refuse r.1 1)) ∧
    ∀ rec', Record.parse r.2 = some rec' →
      exec (.joinRecordPush j.id) s = .next
        (match r.1.pushChecked j.cl j.slot .joined rec' false j.source (.join j.id) with
          | .done st => st.endJoin j 1
          | .refused st reason => refuse st reason
          | .held st => if st.faults.any fun f => f.who.contains (.join j.id) then st.parkJoin j else st)

/-- A waiting active group, or one that has held its lane for 4,096 clocks at a packet boundary, gives the lane to the
oldest ready pending group; threads held at a meeting that is due go on together; a completed producer's value
reaches its registers and the flight leaves; the line a subset needs, or one that its partition fetches ahead, is
filled from its home slices, and one ahead that does not translate stays absent; a deadline that is reached falls
due in every live thread, is cleared, and stops the team's engine work; a due DEADLINE and an orphan's ORPHAN are
taken as the traps they are. Which expiry a thread keeps when a second one falls due, and at which points the two
traps are delivered, are the model's readings (log 33), as is which line of a full buffer gives way (log 7). (R32,
R33, R35, R36, R39, R42, R44, R46, R160, R376.) -/
def Obligations.LaneEvents : Prop :=
  (∀ (s : State) (uid gid : Nat) (g : Group), s.group? uid gid = some g → g.active = true →
    (g.isWaiting = true → (g.stall = none ∨ ∃ x, g.stall = some x ∧ x.begun = false) →
      exec (.groupExchange uid gid) s = .next (s.exchange uid gid)) ∧
    (g.isWaiting = false → g.atBoundary = true → 4096 * 1000 ≤ (s.now - g.since) * s.power.clock →
      exec (.groupTimesliceExchange uid gid) s = .next (s.exchange uid gid))) ∧
  (∀ (s : State) (uid gid uid' gid' : Nat) (t : Team) (g g' : Group), s.team? uid = some t → t.groups[gid]? = some g →
    s.oldestReady t gid g = some (uid', gid', g') →
    s.exchange uid gid = (s.mapGroup uid gid fun g => { g with active := false }).mapGroup uid' gid' fun g =>
      { g with active := true, since := s.now }) ∧
  (∀ (s : State) (uid gid : Nat) (g : Group) (m : DWord), s.group? uid gid = some g → g.meetingDue = some m →
    exec (.meetingRelease uid gid) s = .next
      { s.mapGroup uid gid (fun g => { g with threads := g.threads.map fun th =>
          if th.live = true ∧ th.meet = m ∧ m ≠ 0 ∧ th.pc = m then { th with meet := 0, lastIssue := s.nextId } else th }) with
        nextId := s.nextId + 1 }) ∧
  (∀ (s : State) (f : Flight) (d : Nat) (vals : List Word), s.flights.find? (fun x => x.id == f.id) = some f → f.done = true →
    f.acked = true → f.bad = false → f.what = .regs d vals →
    exec (.producerCompletion f.id) s = .next
      { s.mapGroup f.uid f.gid (fun g => (g.completeRegs f.uni f.thread d f.id vals).wake Wait.isReg) with
        flights := s.flights.filter fun x => x.id != f.id }) ∧
  (∀ (s : State) (uid gid : Nat) (va : DWord) (t : Team) (g : Group), s.team? uid = some t → t.groups[gid]? = some g →
    s.codeLine t gid g va.toNat = none →
    let x : CodeAhead := { slot := t.slot, part := partOf g.lane, va := va.toNat / 256 }
    let ahead := (s.core t.cl (t.coreOf gid)).ahead.contains x
    (∀ pa bits e, s.translate (s.slot t.slot) (va.toNat / 256 * 256) .fetch = .ok pa bits e →
      (ahead = true ∨ s.mayIssue t gid g = true ∧ ∃ pc ts, g.issueSubset = some (pc, ts) ∧ g.trapDue ts = false ∧
        (g.parkPc ≠ pc ∨ ∀ y ∈ g.failed, y.1 ≠ pc.toNat / 4096) ∧ pc = va) →
      exec (.instructionLineFill uid gid va) s = .next
        (((s.tlbFill e).sliceRead pa 256).1.mapCore t.cl (t.coreOf gid) fun c =>
          c.putLine { slot := t.slot, part := partOf g.lane, va := va.toNat / 256, bytes := ((s.tlbFill e).sliceRead pa 256).2,
                      used := 0 })) ∧
    (ahead = true → (∀ pa bits e, s.translate (s.slot t.slot) (va.toNat / 256 * 256) .fetch ≠ .ok pa bits e) →
      exec (.instructionLineFill uid gid va) s = .next (s.mapCore t.cl (t.coreOf gid) fun c => { c with ahead := c.ahead.erase x }))) ∧
  (∀ (s : State) (t : Team), s.team? t.uid = some t → t.dlin ≠ 0 → t.dlin ≤ s.now →
    let st := (s.ops.filter fun o => o.uid == t.uid && !o.saved).foldl State.stopFactor s
    exec (.deadlineExpiry t.uid) s = .next
      { st.mapTeam t.uid (fun x => { x with
          dlin := 0,
          groups := x.groups.map fun g => { g with threads := g.threads.map fun th =>
            if th.live = true ∧ th.dlPend = none then { th with dlPend := some t.dlin } else th } }) with
        ops := st.ops.map fun o => if o.uid = t.uid ∧ o.dlStops = true then o.stopAt 1 else o }) ∧
  ∀ (s : State) (uid gid k : Nat) (t : Team) (g : Group) (th : Thread), s.team? uid = some t → t.groups[gid]? = some g →
    g.threads[k]? = some th → t.hdr.trapv ≠ 0 →
    (∀ d, th.dlPend = some d → g.deadlineDue k = true → exec (.deadlineTrap uid gid k) s = .next
      { s.mapGroup uid gid (fun g => (g.mapThread k fun th =>
          Traps t.hdr.trapv 0x0B (BitVec.ofNat 32 (s.now - d)) th.pc (s.nextId + 1)
            { th with dlPend := none, atEret := false }).afterPops g) with
        nextId := s.nextId + 1 }) ∧
    (g.orphanDue k = true → exec (.orphanTrap uid gid k) s = .next
      { s.mapGroup uid gid (fun g => ((g.mapThread k fun th =>
          { Traps t.hdr.trapv 0x09 th.hyp th.pc (s.nextId + 1) { th with orphan := false } with hyp := 0 }).unparkEmpty).afterPops g) with
        nextId := s.nextId + 1 })

/-- In every state that meets the conditions named, each of these operations ends in the next state given.
STORE_BUFFER_ENTRY_DRAIN of an entry that no older one precedes writes its bytes at its home slice, takes it out of
the buffer and leaves its acknowledgement on the way. HOME_SLICE_WRITE performs a store, an atomic or a merge that
nothing must precede, its completion time noted: at its home slice, or, for one of a hypothesis, in the version
store, where a write that finds no room refutes the hypothesis with CAPACITY. WRITE_ACKNOWLEDGE raises the group's
fence horizon, or those of its process's launches when the team has gone, and ends the flight or marks it.
ACQR_TARGET_DRAIN drains the target's buffer and takes the cut, then, once the stores of the cut are acknowledged,
empties the L1; ACQR_REPORT reports a drained one. DIRECTORY_SNOOP writes a dirty sector back, WRITEBACK_ACKNOWLEDGE
ends the write-back, HOST_HOME_AGENT_SNOOP ends ownership. PAGE_WALK keeps the translation of an address that
translates, and nothing otherwise. LATCH_REMOTE_ARRIVAL arrives on its latch, and waits while the latch's team is
saved (log 67) or the cluster network that leads there is DOWN (log 30). (R70, R74, R75, R81, R84, R89, R97, R125,
R150, R151, R161, R414.) -/
def Obligations.MemoryEvents : Prop :=
  (∀ (s : State) (cl core : Nat) (e : SbEntry), (s.core cl core).sb.find? (fun x => x.id == e.id) = some e →
    (∀ x ∈ (s.core cl core).sb.takeWhile (fun x => x.id != e.id), x.before e = false) →
    let own := s.gainSectors e.tracked (64 * e.sector) 64
    let r := own.commitCells e.sector e.bytes
    exec (.storeBufferEntryDrain cl core e.id) s = .next
      ((r.1.mapCore cl core fun k => { k with sb := k.sb.filter fun x => x.id != e.id }).ackFlight e.slot e.uid e.gid cl core e.sector r.2) ∧
    r.1.mem = Memory.writeCells (own.leaveAcc (64 * e.sector) 64).mem e.bytes) ∧
  (∀ (s : State) (f : Flight) (pa : Nat), s.flights.find? (fun x => x.id == f.id) = some f → f.tgt = .mem pa →
    f.hyp = 0 → f.done = false → mustPrecede (s.olderThan f) [f] = [f] →
    let own := (s.l1Drop f.cl f.core pa f.size).gainSectors f.tracked pa f.size
    (∀ b, f.what = .store b →
      let r := (s.gainSectors f.tracked pa b.length).commit pa b
      exec (.homeSliceWrite f.id) s = .next (r.1.mapFlight f.id fun x => { x with data := [], done := true, ctime := r.2 })) ∧
    (∀ img, f.what = .merge img →
      let r := own.sliceMerge pa img
      exec (.homeSliceWrite f.id) s = .next (r.1.mapFlight f.id fun x => { x with data := [], done := true, ctime := r.2 })) ∧
    ∀ (op : AtomOp) (size b c : Nat),
      ((∃ d, f.what = .atomic op b c d) ∧ size = f.size) ∨ ((∃ d, f.what = .cas16 c b d) ∧ op = .cas ∧ size = 16) →
      s.publishing pa f.size = false → s.isPoisoned pa f.size = false →
      let r := own.sliceAtomic op pa size b c
      exec (.homeSliceWrite f.id) s = .next
        ((r.1.acquireAt f (s.stampOf pa f.size)).mapFlight f.id fun x => { x with data := r.2.1, bad := false, done := true, ctime := r.2.2 })) ∧
  (∀ (s : State) (f : Flight) (pa : Nat), s.flights.find? (fun x => x.id == f.id) = some f → f.tgt = .mem pa →
    f.hyp ≠ 0 → f.done = false → mustPrecede (s.olderThan f) [f] = [f] →
    let old := s.viewOf f.slot f.hyp pa f.size
    let room := fun (ok : Bool) (st : State) => if ok then st else st.overflow f.slot f.hyp
    let written := fun (st : State) => st.mapFlight f.id fun x => { x with data := [], done := true, ctime := s.now }
    let answered := fun (st : State) => (st.acquireAt f (s.stampOf pa f.size)).mapFlight f.id fun x =>
      { x with data := old, bad := false, done := true, ctime := s.now }
    (∀ b, f.what = .store b →
      let r := s.tagWrite f.slot f.hyp pa b
      exec (.homeSliceWrite f.id) s = .next (room r.2 (written r.1))) ∧
    (∀ img, f.what = .merge img →
      exec (.homeSliceWrite f.id) s = .next
        (match s.liveHyp f.slot f.hyp with
          | none => written s
          | some h => match s.tagMerge f.slot h pa img with
            | some st => written st
            | none => (written s).overflow f.slot f.hyp)) ∧
    (∀ (op : AtomOp) (b c : Nat) (d : Option Nat), f.what = .atomic op b c d →
      let r := match op.apply f.size (leNat old) b c with
        | some n => s.tagWrite f.slot f.hyp pa (leBytes f.size n)
        | none => (s, true)
      r.1.isPoisoned pa f.size = false →
      exec (.homeSliceWrite f.id) s = .next (room r.2 (answered r.1))) ∧
    ∀ c b d : Nat, f.what = .cas16 c b d →
      let r := if leNat old = c then s.tagWrite f.slot f.hyp pa (leBytes 16 b) else (s, true)
      r.1.isPoisoned pa f.size = false →
      exec (.homeSliceWrite f.id) s = .next (room r.2 (answered r.1))) ∧
  (∀ (s : State) (f : Flight), s.flights.find? (fun x => x.id == f.id) = some f → f.done = true → f.acked = false →
    let st := if (s.team? f.uid).isSome then s.mapGroup f.uid f.gid fun g => { g with fhz := max g.fhz f.ctime }
      else { s with launches := s.launches.map fun l => if l.slot = f.slot then { l with fhz := max l.fhz f.ctime } else l }
    exec (.writeAcknowledge f.id) s = .next
      (if f.hasDest then st.mapFlight f.id fun x => { x with acked := true }
        else { st with flights := s.flights.filter fun x => x.id != f.id })) ∧
  (∀ (s : State) (a : Acqr), s.acqrs.find? (fun x => x.id == a.id) = some a →
    (a.arrived = true → a.drained = false → (∀ f ∈ s.flights, f.id ∈ a.cutFlights → f.acked = true) →
      exec (.acqrTargetDrain a.id) s = .next
        ((s.dropL1 a.cl a.core).mapAcqr a.id fun x => { x with drained := true })) ∧
    (a.arrived = false → a.drained = false →
      let st := (s.core a.cl a.core).sb.foldl (fun s e => s.drainOne a.cl a.core e) s
      let acks := (st.flights.filter fun f => f.cl == a.cl && f.core == a.core && decide (s.nextId ≤ f.id)).map (·.id)
      exec (.acqrTargetDrain a.id) s = .next (st.mapAcqr a.id fun x =>
        { x with arrived := true, cutFlights := (s.cutOf a.cl a.core).1 ++ acks, cutEntries := (s.cutOf a.cl a.core).2 })) ∧
    exec (.acqrReport a.id) s = .next
      { s with acqrs := s.acqrs.map fun x => if x.id = a.id then (if x.drained then { x with reported := true } else x) else x }) ∧
  (∀ (s : State) (pa : Nat),
    (pa < 824633720832 →
      exec (.directorySnoop pa) s = .next
        (if s.isDirty (pa / 64) then
          { s.normalise (64 * (pa / 64)) 64 with
            directory := clearDirty s.directory (pa / 64), writebacks := s.writebacks.erase (pa / 64) ++ [pa / 64] }
        else s.normalise (64 * (pa / 64)) 64)) ∧
    exec (.writebackAcknowledge pa) s = .next { s with writebacks := s.writebacks.erase (pa / 64) } ∧
    exec (.hostHomeAgentSnoop pa) s = .next { s with owned := s.owned.erase (pa / 64) }) ∧
  (∀ (s : State) (p : Nat) (va : DWord) (acc : AccessKind), (s.slot p).en = true → va.toNat < 2 ^ 48 →
    exec (.pageWalk p va acc) s = .next
      (match s.translate (s.slot p) va.toNat acc with
        | .ok _ _ e => s.tlbFill e
        | _ => s)) ∧
  ∀ (s : State) (m : LatchMsg), s.latchMsgs.find? (fun x => x.id == m.id) = some m →
    exec (.latchRemoteArrival m.id) s = .next
      (if (s.saved.any fun x => x.1.uid == m.uid) ∨ (s.team? m.uid).any fun t => !s.netUp t.cl then s
        else { s with latchMsgs := s.latchMsgs.filter fun x => x.id != m.id }.reachLatch { uid := m.uid, lk := m.lk, far := true }
          Latch.arrive)

/-- A queued copy command whose turn it is starts while fewer than 8 run; a copy part whose place is alive moves its 16
bytes and counts them, or takes its fault, and one whose place is gone is dropped; a finished command at the head of
its counter retires: it leaves, raises the fence horizon, gives its event, and a counted one that has not arrived
arrives; a prefetched line counts its bytes; a skein request first drains the group's stores to its range and waits
for their acknowledgement, then joins the open gather of its skein, sequence number and range, opens one where the
anchor has room, or is served alone; a gather that is full, or whose deadline has come, fires, and one that is
closed or held does not; a fill lands in its team's scratchpad, counted part by part, and ends its command, or is
discarded and counted when the team has gone; the first word of a peer channel in push order moves to the bound in
queue with room, and is dropped when its target has exited. Parts, fills and words that would cross a cluster
network that is DOWN wait (log 30); what a copy keeps of a unit in the ACC state, and that a word waits while its
target is saved, are the model's readings (logs 49 and 67). (R53, R65, R92, R132, R137, R138, R143, R314, R316.) -/
def Obligations.CopyAndSkeinEvents : Prop :=
  (∀ (s : State) (o : EngOp), s.op? o.id = some o → o.cls = 0 → o.stage = .queued → o.parked = false → o.saved = false →
    ((s.copyQueue o.cl o.core).filter fun x => x.stage == .running).length < 8 →
    (s.copyQueue o.cl o.core).find? (fun x => x.stage == .queued && !x.parked) = some o →
    (∀ out va sp left, o.body = .copy out va sp left →
      exec (.copyCommandStart o.id) s = .next (s.mapOp o.id fun o => { o with stage := .running })) ∧
    ∀ b left, o.body = .tile b left →
      exec (.copyCommandStart o.id) s = .next
        (if b.handle.isSome then s.mapOp o.id fun o => { o with stage := .running } else s.startTile o b)) ∧
  (∀ (s : State) (o : EngOp) (out : Bool) (va : DWord) (sp : List Mark) (left : List Nat) (p : Nat), s.op? o.id = some o →
    o.stage = .running → o.parked = false → o.saved = false → o.body = .copy out va sp left → p ∈ left →
    let a := va.toNat + 16 * p
    let moved := fun (s : State) => s.partDone o.id 16 (left.erase p) (.copy out va sp (left.erase p))
    (s.cutOff o sp = true → exec (.copyPart o.id p) s = .next s) ∧
    (s.cutOff o sp = false → s.spAlive sp (16 * p) = false →
      exec (.copyPart o.id p) s = .next (s.partLost o.id (left.erase p) (.copy out va sp (left.erase p)))) ∧
    (s.cutOff o sp = false → s.spAlive sp (16 * p) = true → out = false →
      exec (.copyPart o.id p) s = .next
        (match s.engLoad o a 16 with
          | .ok r => moved ((r.1.engSpWrite o sp (16 * p) r.2).dropShot o.id (a / 128) ((left.erase p).map fun q => va.toNat + 16 * q))
          | .error st => st)) ∧
    (s.cutOff o sp = false → s.spAlive sp (16 * p) = true → out = true →
      let st := s.engDrain o .write 16 [a]
      exec (.copyPart o.id p) s = .next
        (if st.engHeld o .write 16 [a] then st
        else match st.engXlate o a .write with
          | .ok pa bits e =>
            let r := (st.tlbFill e).engSpRead o sp (16 * p) 16
            moved (r.1.engWrite o pa bits r.2)
          | x => st.blockOp o a .write x))) ∧
  (∀ (s : State) (o : EngOp), s.op? o.id = some o → o.stage = .finished → o.saved = false →
    (s.classOps o.uid o.gid o.cls).head? = some o →
    let st := match o.lat with
      | some x => if o.cnt = true ∧ o.arrived = false ∧ o.stop = 0 then s.reachLatch x Latch.arrive else s
      | none => s
    exec (.commandRetire o.id) s = .next
      { st.mapGroup o.uid o.gid (fun g => g.retired o) with ops := st.ops.filter fun x => x.id != o.id } ∧
    ∀ g : Group, (g.retired o).fhz = max g.fhz o.wrote ∧ (g.retired o).events = g.events ++ o.event) ∧
  (∀ (s : State) (o : EngOp) (va : DWord) (len line : Nat) (left : List Nat), s.op? o.id = some o →
    o.body = .prefetch va len left → o.stage = .running → o.parked = false → o.saved = false → line ∈ left →
    exec (.pfrLineResident o.id line) s = .next
      (s.partDone o.id (lineBytes va.toNat len line) (left.erase line) (.prefetch va len (left.erase line)))) ∧
  (∀ (s : State) (o : EngOp) (r : SkeinReq) (t : Team), s.op? o.id = some o → o.body = .skein r → s.team? o.uid = some t →
    o.stage = .queued → o.parked = false → o.saved = false → r.sent = false → r.fill = none →
    let st := s.drainRequest o r
    (st.requestHeld o r = true → exec (.skeinRequestArrival o.id) s = .next st) ∧
    (st.requestHeld o r = false →
      (r.solo = true → exec (.skeinRequestArrival o.id) s = .next (st.serveAlone o r)) ∧
      (r.solo = false → o.hyp ≠ 0 → exec (.skeinRequestArrival o.id) s = .next (st.late t.launch o r)) ∧
      (r.solo = false → o.hyp = 0 →
        (∀ g, st.gather? t.launch r.sk r.k = some g → g.closed = false → g.va = r.va → g.len = r.len →
          exec (.skeinRequestArrival o.id) s = .next
            (((st.mapGather g fun _ => { g with members := g.members ++ [o.id] }).mapRequest o.id fun r => { r with sent := true }).fireIfDue
              { g with members := g.members ++ [o.id] })) ∧
        (∀ g, st.gather? t.launch r.sk r.k = some g → (g.closed = true ∨ g.va ≠ r.va ∨ g.len ≠ r.len) →
          exec (.skeinRequestArrival o.id) s = .next (st.late t.launch o r)) ∧
        (st.gather? t.launch r.sk r.k = none →
          (st.gathers.filter fun g => !g.closed && g.anchor == st.anchorOf o r).length < 64 →
          let g : Gather := { launch := t.launch, sk := r.sk, k := r.k, va := r.va, len := r.len,
                              deadline := st.now + ((st.skein? t.launch r.sk).map (·.tmo)).getD 0, members := [o.id],
                              anchor := st.anchorOf o r, closed := false, held := false, full := false }
          exec (.skeinRequestArrival o.id) s = .next
            (({ st with gathers := st.gathers ++ [g] }.mapRequest o.id fun r => { r with sent := true }).fireIfDue g))))) ∧
  (∀ (s : State) (g : Gather), s.gather? g.launch g.sk g.k = some g →
    ((g.closed = true ∨ g.held = true) → exec (.gatherTimeout g.launch g.sk g.k) s = .next s) ∧
    (g.closed = false → g.held = false →
      (∀ k, s.skein? g.launch g.sk = some k →
        ((g.full = true ∨ k.n ≤ g.members.length) → exec (.gatherTimeout g.launch g.sk g.k) s = .next
          ((s.mapGather g fun x => { x with full := true }).fire { g with full := true })) ∧
        (g.full = false → g.members.length < k.n → exec (.gatherTimeout g.launch g.sk g.k) s = .next
          (if g.deadline ≤ s.now then s.fire g else s))))) ∧
  (∀ (s : State) (o : EngOp) (r : SkeinReq) (data : List Byte), s.op? o.id = some o → o.body = .skein r → r.fill = some data →
    o.stage ≠ .finished → o.saved = false →
    (s.netUp o.cl = false → exec (.skeinFillLand o.id) s = .next s) ∧
    (s.netUp o.cl = true → (s.team? o.uid).isSome = true → exec (.skeinFillLand o.id) s = .next
      (((s.engSpWrite o [{ start := 0, uid := o.uid, off := r.off }] 0 data).countParts o data.length).endOp o.id)) ∧
    (s.netUp o.cl = true → s.team? o.uid = none → exec (.skeinFillLand o.id) s = .next
      { s.mapSkein r.launch r.sk (fun k => { k with discarded := k.discarded + 1 }) with ops := s.ops.filter fun x => x.id != o.id })) ∧
  ∀ (s : State) (uid gid q : Nat) (t : Team) (g : Group) (w : Word) (far : Bool) (rest : List (Word × Bool)),
    s.team? uid = some t → t.groups[gid]? = some g → (g.queue q).kind = 5 → (g.queue q).words = (w, far) :: rest →
    s.peerFirst (g.queue q) = true → (∀ x ∈ s.saved, x.1.uid ≠ (g.queue q).target) →
    let taken := s.setQueue uid gid q { g.queue q with words := rest, stamps := (g.queue q).stamps.tail }
    (s.team? (g.queue q).target = none → exec (.peerWordArrival uid gid q) s = .next taken) ∧
    ∀ (k n : Nat) (d : Team) (h : Group), s.team? (g.queue q).target = some d → d.inPort (g.queue q).channel = some (k, n) →
      taken.group? d.uid k = some h → (h.queue n).words.length < 64 → (d.coreOf k = t.coreOf gid ∨ s.netUp t.cl = true) →
      exec (.peerWordArrival uid gid q) s = .next
        (taken.setQueue d.uid k n { h.queue n with words := (h.queue n).words ++ [(w, d.coreOf k != t.coreOf gid)] })

/-- When its turn at its tiles has come, an MMA step, a fetched loop step, an MSCALE or an MZERO is applied to the tile
and its flags are kept for the retirement; a loop fetches the next step's two blocks while fewer than four are
ahead, and a fault of a step takes effect only when no step is ahead of it; a drain to registers, scratchpad or a
queue reads its tile, rounding each element once, a global one after its handle and addresses pass, a peer one
exactly, and a read drain then writes one part; a peer drain is merged into the target tile when its turn has come
and its release, if it arrives, allows, and then arrives; MFACT writes its next column, unflagged, or regularised
after its report, or holds there, and ends when no column is left; MTRSM writes its next row. The turn of a command
at its tiles and the parts of a drain (log 45), the moment a fault of a step ahead takes effect (log 49), and the
saturation and NaN of pivots (logs 58 and 64) are the model's readings; what would cross a cluster network that is
DOWN waits (log 30). (R164, R171, R173, R174, R176, R177, R179, R182, R183, R186.) -/
def Obligations.MatrixEvents : Prop :=
  ∀ (s : State) (o : EngOp), s.op? o.id = some o → o.stage = .running → o.parked = false → o.saved = false →
    (∀ slot cfg a b, o.body = .mma slot cfg a b → s.ownTurn o slot = true →
      let r := applyStep cfg a b (s.tile o.uid (s.ownTile o slot))
      exec (.matrixStep o.id) s = .next (((s.setTile o.uid (s.ownTile o slot) r.1).opFlags o.id r.2).endOp o.id)) ∧
    (∀ l a b rest, o.body = .mloop l → l.fetched = (a, b) :: rest → s.ownTurn o l.slot = true →
      let r := applyStep l.cfg a b (s.tile o.uid (s.ownTile o l.slot))
      let st := ((s.setTile o.uid (s.ownTile o l.slot) r.1).opFlags o.id r.2).setBody o.id
        (.mloop { l with applied := l.applied + 1, fetched := rest })
      exec (.matrixStep o.id) s = .next (if l.steps ≤ l.applied + 1 then st.endOp o.id else st)) ∧
    (∀ dst src sa sb, o.body = .mscale dst src sa sb → s.ownTurn o dst = true → s.ownTurn o src = true →
      exec (.matrixStep o.id) s = .next ((s.scaleTile o dst src sa sb).endOp o.id)) ∧
    (∀ slot, o.body = .mzero slot → s.ownTurn o slot = true →
      exec (.matrixStep o.id) s = .next ((s.setTile o.uid (s.ownTile o slot) (List.replicate 256 LongAcc.zero)).endOp o.id)) ∧
    (∀ l, o.body = .mloop l → l.fetched.length < 4 → l.applied + l.fetched.length < l.steps →
      let q := ((l.applied + l.fetched.length : Nat) : Int)
      let stopped := fun (st : State) => if l.fetched = [] then st else s
      exec (.mloopOperandFetch o.id) s = .next
        (match s.loopHandles o l with
          | .error st => stopped st
          | .ok (st, l', ha, hb) =>
            match st.loopBlock o ha l'.aOrg (q * l'.aInc) with
            | .error st => stopped st
            | .ok (st, a) =>
              match st.loopBlock o hb l'.bOrg (q * l'.bInc) with
              | .error st => stopped st
              | .ok (st, b) => st.setBody o.id (.mloop { l' with fetched := l'.fetched ++ [(a, b)] }))) ∧
    (∀ slot dest left part, o.body = .mdrain slot dest [] left → s.ownTurn o slot = true →
      let read := fun (s : State) (dest : DrainTo) =>
        let r := (s.tile o.uid (s.ownTile o slot)).map fun c => c.round fp32 (modeOf o.round) (satOf o.round)
        (s.setBody o.id (.mdrain slot dest (r.map fun x => BitVec.ofNat 32 x.1) left)).opFlags o.id (r.foldl (fun w x => w ||| x.2) 0)
      (((∃ d, dest = .regs d) ∨ (∃ m p, dest = .scratch m p) ∨ dest = .queue) →
        exec (.mdrainWrite o.id part) s = .next (read s dest)) ∧
      (∀ hva origin raw blk, dest = .global hva origin (some raw) none blk →
        exec (.mdrainWrite o.id part) s = .next
          (match s.drainStart o hva origin (some raw) with
            | .error st => st
            | .ok (st, dest) => read st dest)) ∧
      ∀ uid tile arr pos, dest = .peer uid tile arr none pos →
        exec (.mdrainWrite o.id part) s = .next
          (s.setBody o.id (.mdrain slot (.peer uid tile arr (some (s.tile o.uid (s.ownTile o slot))) pos) [] left))) ∧
    (∀ slot hva origin h blk left part, o.body = .mdrain slot (.global hva origin none h blk) [] left →
      exec (.mdrainWrite o.id part) s = .next
        (match s.handleBytes o hva.toNat none with
          | .error st => st
          | .ok (st, raw) => st.setBody o.id (.mdrain slot (.global hva origin (some raw) h blk) [] left))) ∧
    (∀ slot dest vals left part, o.body = .mdrain slot dest vals left → vals ≠ [] →
      exec (.mdrainWrite o.id part) s = .next
        (if s.cutOff o dest.marks then s else s.drainPart o slot dest vals left part)) ∧
    (∀ slot marks pitch vals left part, part ∈ left →
      s.drainPart o slot (.scratch marks pitch) vals left part =
        (s.engSpWrite o marks (pitch * (part / 4) + 16 * (part % 4)) (wordsBytes ((vals.drop (16 * (part / 4) + 4 * (part % 4))).take 4))).drainDone
          o slot (.scratch marks pitch) vals (left.erase part)) ∧
    (∀ slot uid tile arr vals pos left, o.body = .mdrain slot (.peer uid tile arr (some vals) pos) [] left →
      let here := if pos = 0 then s.nextId else pos
      let s1 := if pos = 0 then
        { s.setBody o.id (.mdrain slot (.peer uid tile arr (some vals) here) [] left) with nextId := s.nextId + 1 } else s
      let s2 := if arr = none then s1 else s1.drainBefore o
      let merged := s2.setTile uid tile (List.zipWith LongAcc.merge (s2.tile uid tile) vals)
      exec (.peerDrainMerge o.id) s = .next
        (if s2.turn o uid tile here = true ∧ (arr = none ∨ s2.releasedBefore o = true) ∧ (uid = o.uid ∨ s2.netUp o.cl = true) then
          (match arr with
            | some x => merged.reachLatch x Latch.arrive
            | none => merged).endOp o.id
        else s2)) ∧
    (∀ hdr n again, o.body = .mfact hdr n again →
      let l := s.spReadRange (ownMark o.uid hdr) 0 (factBytes n)
      let j := regionWord l 4
      let x := minusDot (regionWord l (factAt n j j)) (rowBefore l n j j) (rowBefore l n j j)
      let put := fun (s : State) (d : FVal) (fl : Word) =>
        let col := factColumn (BitVec.ofNat 32 (fieldAt l 9 1)) l n j d
        (s.opFlags o.id (x.2 ||| fl ||| col.2)).putColumn o hdr n j col.1
      (n ≤ j → exec (.mfactColumn o.id) s = .next ((s.engSpWrite o (ownMark o.uid hdr) 8 [2]).endOp o.id)) ∧
      (j < n → pivotFlagged x.1.datum (fp32.read (regionWord l 16)) = false →
        exec (.mfactColumn o.id) s = .next (put s x.1.datum 0)) ∧
      (j < n → pivotFlagged x.1.datum (fp32.read (regionWord l 16)) = true →
        exec (.mfactColumn o.id) s = .next
          (match if again then some s else s.reportPivot o hdr l j x.1 with
            | none => s
            | some st =>
              if fieldAt l 10 1 % 4 = 0 then (st.opFlags o.id x.2).holdPivot o hdr j
              else
                let d := regularise (fieldAt l 10 1 % 4) x.1 (regionWord l 20)
                put st d.1 d.2))) ∧
    ∀ hdr src dst n r back row, o.body = .mtrsm hdr src dst n r back row →
      let i := if back then n - 1 - row else row
      let l := s.spReadRange (ownMark o.uid hdr) 0 (factBytes n)
      let b := s.spReadRange (ownMark o.uid src) 0 (4 * n * r)
      let y := s.spReadRange (ownMark o.uid dst) 0 (4 * n * r)
      let ks := if back then (List.range (n - 1 - i)).map (· + i + 1) else List.range i
      let cells := (List.range r).map fun c =>
        let x := minusDot (regionWord b (4 * (r * i + c))) (ks.map fun k => regionWord l (if back then factAt n k i else factAt n i k))
          (ks.map fun k => regionWord y (4 * (r * k + c)))
        let q := divOnce (BitVec.ofNat 32 (o.round.toNat % 8)) x.1.datum (regionWord l (factAt n i i))
        (q.1, x.2 ||| q.2)
      let st := ((s.engSpWrite o (ownMark o.uid dst) (4 * r * i) (cells.flatMap fun x => leBytes 4 x.1)).opFlags o.id
        (cells.foldl (fun w x => w ||| x.2) 0)).setBody o.id (.mtrsm hdr src dst n r back (row + 1))
      exec (.mtrsmRow o.id) s = .next (if row + 1 < n then st else st.endOp o.id)

/-- In every state that meets the conditions named, each of these operations ends in the next state given. AMSG_ARRIVAL
of a message that is first of its sender and target reads its entry header and makes the message a handler record of
a new launch, refuses it, holds it on a fault, or leaves it while the queues have no room. XFER_ARMED_FIRE fires an
armed transfer when its latch's bytes have fallen to N, whatever came after, or its phase has turned, and discards
it when the latch has faulted first. XFER_REMOTE_REQUEST is refused without a pod job, and otherwise handled in the
job's slot. XFER_RESPONSE to a put counts its bytes and ends it, one to a get lands its data, an error ends it with
its code (a lost link only when no port is usable). XFER_TIMEOUT ends a transfer that has no answer in 10 ms.
APERTURE_DOWN_MESSAGE that fits lands, and one that does not is ignored with every later one, as is every later
answer. A request whose one part translates is performed, or read, and answered; one whose part has no permission is
refused; any other fault of it is reported, and it is held. HYP_ID_FREE returns an idle resolved ID to free. The
order of messages before their priority (log 43), REMOTE_FAULT without a pod job and the source word of a held
request's fault (log 44), and LINK_DOWN only when no port is usable and the down messages ignored (log 66) are the
model's readings. (R146, R192, R193, R194, R196, R197, R198, R200.) -/
def Obligations.PodEvents : Prop :=
  (∀ (s : State) (m : Message), s.messages.find? (fun x => x.id == m.id) = some m → m.parked = false →
    s.messages.find? (fun x => x.cl == m.cl && x.core == m.core && x.slot == m.slot && x.cluster == m.cluster && x.pin == m.pin &&
      (!x.parked || x.id == m.id)) = some m →
    64 ∣ m.entry.toNat → 64 ≤ m.entry.toNat → m.entry.toNat < 2 ^ 48 →
    let gone := fun (s : State) => { s with messages := s.messages.filter fun x => x.id != m.id }
    let refuse := fun (s : State) (reason : Nat) =>
      (gone s).noteFault m.slot (m.table.toNat + 8 + 16 * m.idx) kRefused reason m.source
    exec (.amsgArrival m.id) s = .next
      (match s.headerRead m.slot m.entry m.failed m.source (.message m.id) with
        | .error st =>
          { st with messages := st.messages.map fun x => if x.id = m.id then { x with parked := true, failed := false } else x }
        | .ok (st, none) => refuse st 4
        | .ok (st, some l) =>
          match Header.parse l with
          | none => refuse st 2
          | some h =>
            if sramFits (m.record h).slots (m.record h).sp = false then refuse st 1
            else if (m.record h).against h ≠ 0 then refuse st ((m.record h).against h)
            else if (st.spill m.slot 320).2 = true then
              (gone (st.spill m.slot 320).1).push m.cluster m.slot .message (m.record h) h m.pin (some (m.src, m.words)) m.id
            else (st.spill m.slot 320).1)) ∧
  (∀ (s : State) (o : EngOp) (x : Xfer) (t : Team) (lk n phases : Nat), s.op? o.id = some o → o.xfer? = some x →
    s.team? o.uid = some t → x.armed = some (lk, n, phases) → o.stage ≠ .finished → o.saved = false →
    let l := t.latch lk
    let came := l.low.any fun b : Int => decide (b ≤ n)
    exec (.xferArmedFire o.id) s = .next
      (if l.f = true ∧ came = false ∧ l.phases = phases then (s.mapXfer o.id fun x => { x with armed := none }).endTransfer o x 6
      else if (l.v = true ∧ l.b ≤ n) ∨ came = true ∨ l.phases ≠ phases then
        (s.mapXfer o.id fun x => { x with armed := none }).sendXfer o.id
      else s)) ∧
  (∀ (s : State) (req : RemoteRequest),
    (s.podSlot req.job = none → exec (.xferRemoteRequest req) s = .next { s with output := s.output ++ [.remote req false []] }) ∧
    ∀ sl, s.podSlot req.job = some sl →
      exec (.xferRemoteRequest req) s = .next ({ s with nextId := s.nextId + 1 }.serveRemote sl req s.nextId) ∧
      let st := { s with nextId := s.nextId + 1 }
      let acc : AccessKind := if req.minor = 2 then .read else .write
      req.len = 16 → req.minor ≠ 1 → req.va.toNat < 2 ^ 48 →
        (∀ pa bits e, st.translate sl req.va.toNat acc = .ok pa bits e →
          (req.minor = 2 →
            let r := (st.tlbFill e).sliceRead pa 16
            exec (.xferRemoteRequest req) s = .next { r.1 with output := r.1.output ++ [.remote req true r.2] }) ∧
          (req.minor = 0 →
            let b := req.data.take 16
            let r := ((st.tlbFill e).gainSectors (bits.testBit 4) pa b.length).commit pa b
            exec (.xferRemoteRequest req) s = .next
              { r.1 with remoteAcks := r.1.remoteAcks ++ [{ req := req, time := max s.now r.2 + 2 }] })) ∧
        ∀ kind level, st.translate sl req.va.toNat acc = .bad kind level →
          (kind = kPerm → exec (.xferRemoteRequest req) s = .next { st with output := s.output ++ [.remote req false []] }) ∧
          (kind ≠ kPerm → kind ≠ 0 → exec (.xferRemoteRequest req) s = .next
            { st.raiseFault sl.num req.va.toNat kind (accBits acc true false) level (0, 0, 0) (.remote s.nextId) with
              remotes := s.remotes ++ [{ id := s.nextId, slot := sl.num, req := req }] })) ∧
  (∀ (s : State) (o : EngOp) (x : Xfer), s.op? o.id = some o → o.xfer? = some x → x.sent = true → o.stage ≠ .finished →
    o.saved = false → x.data = none →
    (x.spoiled = true → ∀ reply, exec (.xferResponse o.id reply) s = .next s) ∧
    (x.sentAt + 10000000 ≤ s.now → exec (.xferTimeout o.id) s = .next (s.endTransfer o x 5)) ∧
    (x.spoiled = false →
    (x.aperture = false → x.minor ≠ 2 → ∀ data, exec (.xferResponse o.id (.done data)) s = .next ((s.countParts o x.len).endOp o.id)) ∧
    (∀ data, x.aperture = false → x.minor = 2 → data.length = x.len →
      exec (.xferResponse o.id (.done data)) s = .next (s.xferLand o x data)) ∧
    exec (.xferResponse o.id .noRoute) s = .next (s.endTransfer o x 1) ∧
    exec (.xferResponse o.id .linkDown) s = .next (if s.ports.any Port.usable then s else s.endTransfer o x 2) ∧
    exec (.xferResponse o.id .remoteFault) s = .next (s.endTransfer o x 3) ∧
    exec (.xferResponse o.id .apRefused) s = .next (s.endTransfer o x 4) ∧
    ∀ rtype data, x.aperture = true →
      exec (.apertureDownMessage o.id rtype data) s = .next
        (if rtype = x.rtype ∧ data.length = x.len then s.xferLand o x data
        else s.mapXfer o.id fun x => { x with spoiled := true }))) ∧
  ∀ (s : State) (p id : Nat), s.idIdle p id = true → exec (.hypIdFree p id) s = .next (s.freeId p id)

/-- While the host's link carries traffic: a slot with legal fields is enabled with its indices at zero and a hypothesis
domain of its own, one already enabled only loses its hold, and one with an illegal field reads EN = 0; a slot's
hold bit is written; a teardown clears EN, discards the queued records and aborts their launches, kills the teams
and refutes the hypotheses of the process, and leaves no queued record of it; a doorbell sets LQPI while EN is 1 and
is ignored otherwise; CQCI is written; DLNOW makes a deadline due in every resident team of the slot, and in a saved
one for its resume. The device takes a launch entry in index order: it checks the distance, waits for SER, pushes
the record and advances LQCI, and a refused entry becomes a launch that completes with REFUSED; an entry whose
header read waits for the driver is checked again once that is answered. A launch that is over, and before which no
completion is due, writes its 16 bytes at CQPI with the time it completed, advances it, leaves the device, and sends
the completion vector when IRQ is set; without CMPL it only leaves. What enabling clears and what it keeps for teams
that are there, that a held entry is tried again, and the order of completions and what becomes of one whose write
waits are the model's readings (log 50). (R14, R15, R399, R402, R403, R404, R405, R406, R415, R417.) -/
def Obligations.LaunchEvents : Prop :=
  (∀ (s : State) (p : Nat), s.hostLink = true →
    ((s.slot p).en = false → s.slotLegal (s.slot p) = true →
      let keep := (s.teams ++ s.saved.map (·.1)).any fun t => t.slot == p
      exec (.slotEnable p) s = .next (s.mapSlot p fun sl =>
        { sl with en := true, hold := false, err := 0, lqpi := 0, lqci := 0, cqci := 0, cqpi := 0, fbpi := 0, fbci := 0,
                  nextFault := if keep then (s.slot p).nextFault else 1, failPages := [],
                  hyps := if keep then (s.slot p).hyps else [] })) ∧
    ((s.slot p).en = true → s.slotLegal (s.slot p) = true →
      exec (.slotEnable p) s = .next (s.mapSlot p fun sl => { sl with hold := false })) ∧
    (s.slotLegal (s.slot p) = false →
      exec (.slotEnable p) s = .next (s.mapSlot p fun sl => { sl with en := false, hold := false })) ∧
    (∀ hold, exec (.slotHold p hold) s = .next (s.mapSlot p fun sl => { sl with hold := hold })) ∧
    (∀ idx, (s.slot p).en = true → exec (.launchDoorbell p idx) s = .next (s.mapSlot p fun sl => { sl with lqpi := idx.toNat })) ∧
    (∀ idx, (s.slot p).en = false → exec (.launchDoorbell p idx) s = .next s) ∧
    (∀ idx, exec (.completionConsumed p idx) s = .next (s.mapSlot p fun sl => { sl with cqci := idx.toNat })) ∧
    (let st := ((s.teams.filter fun t => t.slot == p).map (·.uid)).foldl (fun s u => s.expire u s.now) s
      let mine := (st.saved.filter fun x => x.1.slot == p).map (·.1.uid)
      exec (.dlnow p) s = .next { st with
        saved := st.saved.map fun x => if x.1.slot = p then ({ x.1.mapThreads (Thread.due st.now) with dlin := 0 }, x.2) else x,
        ops := st.ops.map fun o => if mine.contains o.uid = true ∧ o.dlStops = true then o.stopAt 1 else o }) ∧
    ((s.slot p).en = false → exec (.slotTeardown p) s = .next s) ∧
    ((s.slot p).en = true →
      let st := ((((s.mapSlot p fun sl => { sl with en := false }).discardRecords p).killAll p).refuteAll p).dropRemotes p
      exec (.slotTeardown p) s = .next
        ({ st with joins := st.joins.filter fun j => j.slot != p,
                   messages := st.messages.filter fun m => m.slot != p,
                   faults := st.faults.filter fun f => f.slot != p }.mapSlot p fun sl =>
          { sl with teardown := !(st.launchesOf p).isEmpty }))) ∧
  (∀ (s : State) (p : Nat), (∀ t ∈ (s.killAll p).teams, t.slot ≠ p) ∧ ∀ x ∈ (s.killAll p).saved, x.1.slot ≠ p) ∧
  (∀ (s : State) (p : Nat), s.heldEntries = [] → ∀ t, t = s.discardRecords p →
    (∀ c ∈ t.clusters, ∀ q ∈ c.queue, q.slot ≠ p) ∧
    ∀ l ∈ t.launches, (∃ c ∈ s.clusters, ∃ q ∈ c.queue, q.slot = p ∧ q.launch = l.id) → l.unplaced = 0 ∧ l.status = 3) ∧
  (∀ (s : State) (p : Nat) (l : List Byte),
    s.refuseEntry p l = (State.mapLaunch { s with
      launches := s.launches ++ [{ id := s.nextId, slot := p, origin := entryOrigin p l, unplaced := 0, resident := 0,
                                   status := 0, skeins := [], fhz := 0, done := none }],
      nextId := s.nextId + 1 } s.nextId fun l => { l with status := 1 }) ∧
    s.taken p = s.mapSlot p fun x => { x with lqci := (x.lqci + 1) % 2 ^ 32, failPages := [] }) ∧
  (∀ (s : State) (p : Nat) (sl : Slot), sl = s.slot p →
    (∀ e, s.heldEntries.find? (fun e => e.slot == p && !s.entryFaulted e.id) = some e →
      let drop := fun (s : State) => { s with heldEntries := s.heldEntries.filter fun x => x.id != e.id }
      exec (.launchEntryTake p) s = .next
        (match s.pushEntry e.slot e.id e.bytes e.failed with
          | .done t => drop t
          | .refused t _ => drop (t.refuseEntry e.slot e.bytes)
          | .held t => t)) ∧
    (s.heldEntries.find? (fun e => e.slot == p && !s.entryFaulted e.id) = none →
      (sl.en = false ∨ sl.hold = true ∨ sl.lqci = sl.lqpi ∨ s.ringHeld p = true → exec (.launchEntryTake p) s = .next s) ∧
      (sl.en = true → sl.hold = false → sl.lqci ≠ sl.lqpi → s.ringHeld p = false →
        (sl.lqsize < (sl.lqpi + 2 ^ 32 - sl.lqci) % 2 ^ 32 → exec (.launchEntryTake p) s = .next
          ((s.mapSlot p fun x => { x with err := 1, hold := true }).sendSlotVector sl.faultVector)) ∧
        ((sl.lqpi + 2 ^ 32 - sl.lqci) % 2 ^ 32 ≤ sl.lqsize →
          exec (.launchEntryTake p) s = .next
            (match s.ring p (sl.lqbase.toNat + 64 * (sl.lqci % sl.lqsize)) .read with
              | .bad => s.ringError p
              | .wait t => t
              | .ok s1 pa =>
                let s2 := (s1.sliceRead pa 64).1
                let l := (s1.sliceRead pa 64).2
                let id := s2.nextId
                if fieldAt l 33 1 / 4 % 2 = 1 ∧ s2.ringBusy p = true then s2
                else match State.pushEntry { s2 with nextId := id + 1 } p id l false with
                  | .done t => t.taken p
                  | .refused t _ => (t.refuseEntry p l).taken p
                  | .held t =>
                    if t.entryFaulted id = true then
                      State.taken { t with heldEntries := t.heldEntries ++ [{ id := id, slot := p, bytes := l, failed := false }] } p
                    else if (t.slot p).hold = true ∨ t.faults ≠ s2.faults then t
                    else s2))))) ∧
  ∀ (s : State) (l : Launch), s.launch? l.id = some l → s.launchOver l = true →
    (∀ p tag flags, l.origin = .host p tag flags → flags % 2 = 0 → l.status ≠ 1 →
      exec (.launchCompletion l.id) s = .next (s.dropLaunch l)) ∧
    ((∀ p tag flags, l.origin ≠ .host p tag flags) → exec (.launchCompletion l.id) s = .next (s.dropLaunch l)) ∧
    ∀ p tag flags, l.origin = .host p tag flags → flags % 2 = 1 ∨ l.status = 1 →
      let sl := s.slot p
      ((sl.cqpi + 2 ^ 32 - sl.cqci) % 2 ^ 32 = sl.cqsize ∨ s.ringHeld p = true ∨ s.dueBefore l p = true →
        exec (.launchCompletion l.id) s = .next s) ∧
      ((sl.cqpi + 2 ^ 32 - sl.cqci) % 2 ^ 32 ≠ sl.cqsize → s.ringHeld p = false → s.dueBefore l p = false →
        exec (.launchCompletion l.id) s = .next
          (match s.ring p (sl.cqbase.toNat + 16 * (sl.cqpi % sl.cqsize)) .write with
            | .wait t => t
            | .bad => if sl.en = false then (s.ringError p).dropLaunch l else if sl.hold = true ∧ sl.err = 2 then s else s.ringError p
            | .ok s1 pa =>
              let t := ((s1.commit pa (leBytes 4 tag.toNat ++ leBytes 4 l.status ++ leBytes 8 (s1.doneTime l))).1.mapSlot p fun x =>
                { x with cqpi := (x.cqpi + 1) % 2 ^ 32 }).dropLaunch l
              if flags % 4 = 3 then t.sendSlotVector sl.completionVector else t))

/-- While the host's link carries traffic: a write inside Window 1 to device memory is committed at its address and one
beyond the end is dropped; a read returns the bytes, all ones beyond the end; an AtomicOp of 4, 8 or 16 bytes is
performed in place and returns the old bytes; an access outside Window 1 changes nothing; CXL.mem does the same at a
physical address while the link is CXL; training sets the link's kind, and brings a link that was DOWN up, while the
device can have one; RESUME lets a halted core issue again and any other write of it changes nothing; FBCI is
written and waiting fault entries follow; an answer to a pending fault removes it and goes to each of its accessors,
and an id that names none changes nothing; TLBICTL of kinds 0, 1 and 2 drops the translations it names, or waits
behind a running one; an invalidation whose earlier accesses are performed is done, and the next waiting one begins;
VSCFG takes a size up to 32 when no hypothesis lives and sets REFUSED otherwise. All ones beyond the end, no effect
of an AtomicOp of another size, when the host link carries traffic and how VSCFG's bits are read are log 52; when an
invalidation is done is log 48; that an answer FAIL makes the page unresolvable to each accessor is log 50; that
training brings a link up again is log 30. (R74, R81, R394, R395, R398, R408, R415, R416, R417, R418, R419.) -/
def Obligations.HostEvents : Prop :=
  (∀ (s : State) (off : Nat) (data : List Byte), s.hostLink = true →
    (off + data.length ≤ s.w1size → exec (.hostWindow1Write off data) s = .next
      (s.commit (s.w1base + off) (data.take (min data.length (Config.deviceBytes - (s.w1base + off))))).1) ∧
    (s.w1size < off + data.length → exec (.hostWindow1Write off data) s = .next s)) ∧
  (∀ (s : State) (off n : Nat), s.hostLink = true →
    let pa := s.w1base + off
    (s.w1size < off + n → exec (.hostWindow1Read off n) s = .next s) ∧
    (off + n ≤ s.w1size →
      (pa + n ≤ Config.deviceBytes → n ≠ 0 →
        exec (.hostWindow1Read off n) s = .next { (s.sliceRead pa n).1 with
          output := (s.sliceRead pa n).1.output ++ [.hostData (s.sliceRead pa n).2 (s.isPoisoned pa n)] }) ∧
      (Config.deviceBytes ≤ pa → exec (.hostWindow1Read off n) s = .next
        { s with output := s.output ++ [.hostData (List.replicate n 0xFF) false] }) ∧
      (pa < Config.deviceBytes → Config.deviceBytes < pa + n →
        let k := Config.deviceBytes - pa
        exec (.hostWindow1Read off n) s = .next { (s.sliceRead pa k).1 with
          output := (s.sliceRead pa k).1.output ++
            [.hostData ((s.sliceRead pa k).2 ++ List.replicate (n - k) 0xFF) (s.isPoisoned pa k)] })) ∧
    (s.linkCxl = true → off < Config.deviceBytes → ∀ data, exec (.hostCxlMemAccess off n (some data)) s = .next
      (s.commit off (data.take (min data.length (Config.deviceBytes - off)))).1) ∧
    (s.linkCxl = true → off + n ≤ Config.deviceBytes → n ≠ 0 →
      exec (.hostCxlMemAccess off n none) s = .next { (s.sliceRead off n).1 with
        output := (s.sliceRead off n).1.output ++ [.hostData (s.sliceRead off n).2 (s.isPoisoned off n)] }) ∧
    (s.linkCxl = false ∨ Config.deviceBytes ≤ off → ∀ data, exec (.hostCxlMemAccess off n data) s = .next s)) ∧
  (∀ (s : State) (off n : Nat) (op : AtomOp) (x y : Nat) (a : HostAtomic), s.hostLink = true →
    ((a = .fetchAdd n x ∧ op = .add ∧ y = 0) ∨ (a = .swap n x ∧ op = .swap ∧ y = 0) ∨ (a = .cas n y x ∧ op = .cas)) →
    (n ∈ [4, 8, 16] → n ∣ s.w1base + off → off + n ≤ s.w1size → s.w1base + off + n ≤ Config.deviceBytes →
      let r := s.sliceAtomic op (s.w1base + off) n (x % 2 ^ (8 * n)) (y % 2 ^ (8 * n))
      exec (.hostAtomicop off a) s = .next
        { r.1 with output := r.1.output ++ [.hostData r.2.1 (s.isPoisoned (s.w1base + off) n)] }) ∧
    (n ∉ [4, 8, 16] ∨ ¬n ∣ s.w1base + off ∨ s.w1size < off + n → exec (.hostAtomicop off a) s = .next s)) ∧
  (∀ (s : State) (cxl cache : Bool),
    (s.boot.powered = true → s.boot.recovery = false → exec (.hostLinkTraining cxl cache) s = .next
      { s with linkCxl := cxl, linkCache := cxl && cache, linksDown := s.linksDown.filter (· != unitHost) }) ∧
    (s.boot.powered = false ∨ s.boot.recovery = true → exec (.hostLinkTraining cxl cache) s = .next s)) ∧
  (∀ (s : State), s.hostLink = true →
    (∀ w : Word,
      let cl := (w.extractLsb' 8 3).toNat
      let core := (w.extractLsb' 0 8).toNat
      (w.extractLsb' 11 21 = 0 → (s.core cl core).halted = true → s.power.tripped = false →
        exec (.resume w) s = .next (s.mapCore cl core fun c => { c with halted := false, halting := false })) ∧
      ((w.extractLsb' 11 21 ≠ 0 ∨ (s.core cl core).halted = false) → exec (.resume w) s = .next s)) ∧
    (∀ p idx, exec (.fbciWrite p idx) s = .next ((s.mapSlot p fun sl => { sl with fbci := idx.toNat }).flushFaults p)) ∧
    (∀ p id f, s.faults.find? (fun f => f.slot == p && f.id == id && f.written && id != 0) = some f →
      let st := { s with faults := s.faults.filter fun g => !(g.slot == p && g.id == id) }
      exec (.fackRetry p id) s = .next (f.who.foldl (fun s w => s.answerWho id f.page f.kind false w) st) ∧
      exec (.fackFail p id) s = .next (f.who.foldl (fun s w => s.answerWho id f.page f.kind true w) st)) ∧
    (∀ p id, s.faults.find? (fun f => f.slot == p && f.id == id && f.written && id != 0) = none →
      exec (.fackRetry p id) s = .next s ∧ exec (.fackFail p id) s = .next s) ∧
    (∀ kind asid va i, ((i = Instr.tlbiPage asid ∧ kind = 0 ∧ va = s.tlbiVa.toNat) ∨ (i = Instr.tlbiAsid asid ∧ kind = 1 ∧ va = 0) ∨
        (i = Instr.tlbiAll ∧ kind = 2 ∧ va = 0 ∧ asid = 0)) →
      let x : Inval := { id := s.nextId, kind := kind, asid := asid.toNat, va := va, bound := 0, host := true }
      let st := { s with tlbBusy := s.tlbBusy ++ [x], nextId := s.nextId + 1 }
      exec i s = .next (if s.tlbBusy.any (·.host) = true then st else
        { st with tlb := s.tlb.filter fun e => !e.dropped kind asid.toNat va,
                  tlbBusy := st.tlbBusy.map fun y => if y.id = x.id then { y with bound := s.nextId + 1 } else y,
                  nextId := s.nextId + 2 })) ∧
    (∀ w : Word, (w.extractLsb' 0 31).toNat ≤ 32 →
      ((∀ sl ∈ s.slots, ∀ h ∈ sl.hyps, h.st ≠ .live) →
        exec (.vscfgWrite w) s = .next { s with vscfg := (w.extractLsb' 0 31).toNat, vsRefused := false }) ∧
      (∀ sl ∈ s.slots, ∀ h ∈ sl.hyps, h.st = .live → exec (.vscfgWrite w) s = .next { s with vsRefused := true })) ∧
    ∀ w : Word, 32 < (w.extractLsb' 0 31).toNat → exec (.vscfgWrite w) s = .next s) ∧
  (∀ (a : Group) (id : Nat) (x : Nat × Nat), a.answered id none = { a with parked := a.parked.erase id } ∧
    a.answered id (some x) = { a with parked := a.parked.erase id, failed := x :: a.failed }) ∧
  (∀ (s : State) (id uid gid page kind : Nat) (failed : Bool),
    let f := fun (g : Group) => g.answered id (if failed then some (page, kind) else none)
    s.answerWho id page kind failed (.group uid gid) = { s.mapGroup uid gid f with
      saved := s.saved.map fun x => if x.1.uid = uid then (x.1.mapGroup gid f, x.2) else x }) ∧
  ∀ (s : State), (s.tlbBusy.find? s.invalDone = none → exec .tlbInvalidationComplete s = .next s) ∧
    ∀ (x : Inval), s.tlbBusy.find? s.invalDone = some x →
      let st := { s with tlbBusy := s.tlbBusy.filter fun y => y.id != x.id }
      (x.host = false → exec .tlbInvalidationComplete s = .next st) ∧
      (x.host = true → exec .tlbInvalidationComplete s = .next
        (match st.tlbBusy.find? fun y => y.host && y.bound == 0 with
          | some y => st.beginInval y
          | none => st))

/-- In every state: a port that the key's holder enables goes to TRAINING, and one it disables goes OFF, and neither
changes anything by another master; trained within 50 ms a training port is UP with 16 wavelengths, DEGRADED with
15, DOWN with fewer, and not trained in time it is DOWN; the loss of a wavelength that is up degrades an UP port and
takes a DEGRADED one DOWN, or is noted for a crossbar channel, which has 8, and exhausted retry takes a usable port
DOWN, each logged as an uncorrectable event of its unit; a change of STATE sends vector 3; PORTERR is cleared by any
write. A master that finds the key free takes it for 30 s, its holder renews it for 30 s or frees it, and it is free
when they run out; the port commands answer 0, 1 HELD or 2 NOKEY; an attempt at the key by one that may not have it
changes nothing else. (R63, R407, R427, R428, R435, R436, R437, R440.) -/
def Obligations.PortAndKeyEvents : Prop :=
  (∀ (s : State) (n : Nat) (f : Port → Port),
    let t := { s with ports := s.ports.map fun p => if p.num = n then f p else p }
    ((t.port n).st = (s.port n).st → s.mapPort n f = t) ∧
    ((t.port n).st ≠ (s.port n).st → s.mapPort n f = { t with output := s.output ++ [.msix 3] })) ∧
  (∀ (s : State) (m : Master) (n : Nat),
    (s.reaches m = true → s.keyHolder = masterCode m →
      exec (.portEnable m n) s = .next
        (s.mapPort n fun p => if p.en then p else { p with en := true, st := .training, waves := 0, since := s.now }) ∧
      exec (.portDisable m n) s = .next (s.mapPort n fun p => { p with en := false, st := .off, waves := 0 })) ∧
    (s.reaches m = false ∨ s.keyHolder ≠ masterCode m →
      exec (.portEnable m n) s = .next s ∧ exec (.portDisable m n) s = .next s)) ∧
  (∀ (s : State) (n : Nat) (w : BitVec 16),
    exec (.portTrained n w) s = .next (s.mapPort n fun p =>
      if p.st = .training ∧ s.now ≤ p.since + 50000000 then
        { p with waves := w, st := if wavesUp w = 16 then .up else if wavesUp w = 15 then .degraded else .down }
      else p) ∧
    exec (.portTrainingTimeout n) s = .next (s.mapPort n fun p =>
      if p.st = .training ∧ p.since + 50000000 ≤ s.now then { p with st := .down } else p) ∧
    (s.hostLink = true → exec (.porterrClear n) s = .next (s.mapPort n fun p => { p with replays := 0, crc := 0 })) ∧
    (s.hostLink = false → exec (.porterrClear n) s = .next s) ∧
    (n < 16 → (s.port n).usable = true → exec (.linkRetryExhausted n) s = .next
      ((s.mapPort n fun p => if p.usable = true then { p with st := .down } else p).noteHard (portWord n) 0)) ∧
    ((s.port n).usable = false → exec (.linkRetryExhausted n) s = .next s)) ∧
  (∀ (s : State) (u : Word) (wave : Nat),
    (unitNamed u = none → exec (.wavelengthLost u wave) s = .next s) ∧
    ∀ v, unitNamed u = some v →
      (unitClass v ≠ 6 → unitClass v ≠ 7 → exec (.wavelengthLost u wave) s = .next s) ∧
      (unitClass v = 6 → (8 ≤ wave ∨ (v.toNat, wave) ∈ s.lostWaves) → exec (.wavelengthLost u wave) s = .next s) ∧
      (unitClass v = 6 → wave < 8 → (v.toNat, wave) ∉ s.lostWaves → exec (.wavelengthLost u wave) s = .next
        (State.noteHard { s with lostWaves := (v.toNat, wave) :: s.lostWaves } v 0)) ∧
      (unitClass v = 7 → (s.port (unitPort v)).waves.getLsbD wave = false → exec (.wavelengthLost u wave) s = .next s) ∧
      (unitClass v = 7 → (s.port (unitPort v)).waves.getLsbD wave = true → exec (.wavelengthLost u wave) s = .next
        ((s.mapPort (unitPort v) fun p =>
          if p.waves.getLsbD wave then
            { p with waves := p.waves &&& ~~~((1 : BitVec 16) <<< wave),
                     st := if p.st = .up then .degraded else if p.st = .degraded then .down else p.st }
          else p).noteHard v 0))) ∧
  (∀ (s : State), s.boot.powered = true →
    (s.keyHolder = 0 → exec .keyTake s = .next
      { s with key := { holder := 2, expires := s.now + 30000000000 }, output := s.output ++ [.arpex 0 []] }) ∧
    (s.keyHolder ≠ 0 → exec .keyTake s = .next { s with output := s.output ++ [.arpex 1 []] }) ∧
    (s.keyHolder = 2 → exec .keyRelease s = .next
      { s with key := { holder := 0, expires := 0 }, output := s.output ++ [.arpex 0 []] }) ∧
    (s.keyHolder = 2 → exec .keyRenew s = .next
      { s with key := { holder := 2, expires := s.now + 30000000000 }, output := s.output ++ [.arpex 0 []] }) ∧
    (s.keyHolder ≠ 2 → exec .keyRelease s = .next { s with output := s.output ++ [.arpex 2 []] } ∧
      exec .keyRenew s = .next { s with output := s.output ++ [.arpex 2 []] }) ∧
    exec .status s = .next { s with output := s.output ++ [.arpex 0 [s.keyHolder, s.secondsLeft, s.bootStat, s.gstat]] }) ∧
  (∀ (s : State), s.boot.powered = false → exec .keyTake s = .next s ∧ exec .keyRelease s = .next s ∧ exec .keyRenew s = .next s ∧
    exec .status s = .next s) ∧
  (∀ (s : State), s.hostLink = true →
    (s.keyHolder = 0 → exec .keyctlTake s = .next { s with key := { holder := 1, expires := s.now + 30000000000 } }) ∧
    (s.keyHolder ≠ 0 → exec .keyctlTake s = .next s) ∧
    (s.keyHolder = 1 → exec .keyctlRelease s = .next { s with key := { holder := 0, expires := 0 } } ∧
      exec .keyctlRenew s = .next { s with key := { holder := 1, expires := s.now + 30000000000 } }) ∧
    (s.keyHolder ≠ 1 → exec .keyctlRelease s = .next s ∧ exec .keyctlRenew s = .next s)) ∧
  (∀ (s : State), s.hostLink = false →
    exec .keyctlTake s = .next s ∧ exec .keyctlRelease s = .next s ∧ exec .keyctlRenew s = .next s) ∧
  ∀ (s : State),
    (s.boot.recovery = false → s.key.holder ≠ 0 → s.key.expires ≤ s.now →
      s.keyHolder = 0 ∧ exec .keyExpiry s = .next { s with key := { holder := 0, expires := 0 } }) ∧
    (s.boot.recovery = true ∨ s.key.holder = 0 ∨ s.now < s.key.expires → exec .keyExpiry s = .next s)

/-- The boot ROM, once after power comes, measures the flash image and runs it, or enters recovery with the number of
the first check of R432 that fails; MINSVN rises to the running SVN on COMMIT; an image that passes the checks goes
over the flash image, which fails step 6 until its write is complete; a measurement request answers with the seven
measurements in index order, signed by each certificate slot; a warm reset and a cold reset put the registers at
their reset values and free the key, the cold one with the boot checks; a loss of power leaves a device that is not
booted, an image in writing unfinished. The keys of the certificate slots and their signatures are free values (log
28); how the fields of an image enter the hashes and signature checks is log 13; the reason kept after a success,
SVN 0 in recovery and the flash write that ends when time next passes are log 53; and what a reset keeps beyond the
spec's words is log 31. (R431, R432, R433, R434, R435, R436.) -/
def Obligations.BootEvents : Prop :=
  (∀ (s : State),
    (s.boot.booted = true → exec .boot s = .next s) ∧
    (s.boot.booted = false →
      let b := { s.boot with booted := true, powered := true, sums := s.boot.measured }
      (∀ x, s.boot.image = some x → bootReason s.boot.image s.boot.torn s.boot.minSvn = 0 → exec .boot s = .next
        { s with boot := { b with recovery := false, runningSvn := imageSvn x } }) ∧
      (bootReason s.boot.image s.boot.torn s.boot.minSvn ≠ 0 → exec .boot s = .next
        { s with boot := { b with recovery := true, reason := bootReason s.boot.image s.boot.torn s.boot.minSvn, runningSvn := 0 },
                 linkCxl := false, linkCache := false }))) ∧
  (∀ (x : FlashImage) (torn : Bool) (minSvn : Nat),
    (imageFormOk x = true ↔ imageField x 0 4 = 0x57465856 ∧ imageField x 4 4 = 1 ∧ imageSvn x ≤ 63 ∧ 4096 ∣ imageField x 12 4 ∧
      imageField x 12 4 ≤ 64 * 1024 * 1024 ∧ imageField x 500 12 = 0 ∧ imageField x 17120 288 = 0) ∧
    bootReason none torn minSvn = 1 ∧
    (imageFormOk x = false → bootReason (some x) torn minSvn = 1) ∧
    (imageFormOk x = true →
      (imageKeysOk x = false → bootReason (some x) torn minSvn = 2) ∧
      (imageKeysOk x = true →
        (imageRsaOk x = false → bootReason (some x) torn minSvn = 3) ∧
        (imageRsaOk x = true →
          (imageSlhOk x = false → bootReason (some x) torn minSvn = 4) ∧
          (imageSlhOk x = true →
            (imageSvn x < minSvn → bootReason (some x) torn minSvn = 5) ∧
            (minSvn ≤ imageSvn x →
              (torn = true ∨ imageBodyOk x = false → bootReason (some x) torn minSvn = 6) ∧
              (torn = false → imageBodyOk x = true → bootReason (some x) torn minSvn = 0))))))) ∧
  (∀ (s : State) (m : Master),
    (s.reaches m = true → s.keyHolder = masterCode m →
      exec (.bootctlCommit m) s = .next { s with boot := { s.boot with minSvn := max s.boot.minSvn s.boot.runningSvn } }) ∧
    (s.reaches m = false ∨ s.keyHolder ≠ masterCode m → exec (.bootctlCommit m) s = .next s)) ∧
  (∀ (s : State) (img : FlashImage),
    (s.boot.powered = true → bootReason (some img) false s.boot.minSvn = 0 →
      exec (.firmwareUpdate img) s = .next { s with boot := { s.boot with image := some img, writing := some img, torn := true } } ∧
      bootReason (some img) true s.boot.minSvn = 6) ∧
    (s.boot.powered = false ∨ bootReason (some img) false s.boot.minSvn ≠ 0 → exec (.firmwareUpdate img) s = .next s)) ∧
  (∀ (s : State), s.boot.powered = true →
    let m := [s.boot.sums.1.toNat, s.boot.sums.2.toNat, Config.fusedRsa.toNat, Config.fusedSlh.toNat, s.boot.minSvn,
        s.register 0x2000000, s.register 0x1000010] ++ (List.range 4096).map fun g => s.register (0x2010000 + 4 * g)
    let answer := fun (k : Nat) => Output.signed .arpex k m (Config.spdmSign k (Config.spdmKey k s.boot.sums.1) m)
    exec .spdmMeasurements s = .next { s with output := s.output ++ [answer 0, answer 1] } ∧
    (s.keyHolder = 2 → ∃ t, exec .resetWarm s = .next t ∧ t.key = { holder := 0, expires := 0 } ∧ t.teams = [] ∧
      t.launches = [] ∧ t.slots = State.reset.slots ∧ t.ports = State.reset.ports ∧ t.mem = s.mem ∧
      t.output = s.output ++ [.arpex 0 []]) ∧
    (s.keyHolder = 2 → ∃ t, exec .resetCold s = .next t ∧ t.key = { holder := 0, expires := 0 } ∧ t.teams = [] ∧
      t.launches = [] ∧ t.slots = State.reset.slots ∧ t.ports = State.reset.ports ∧ t.mem = hostCells s.mem ∧
      t.boot.booted = true ∧ t.output = s.output ++ [.arpex 0 []]) ∧
    (s.keyHolder ≠ 2 → exec .resetWarm s = .next { s with output := s.output ++ [.arpex 2 []] } ∧
      exec .resetCold s = .next { s with output := s.output ++ [.arpex 2 []] })) ∧
  (∀ (s : State), s.boot.powered = false →
    exec .spdmMeasurements s = .next s ∧ exec .resetWarm s = .next s ∧ exec .resetCold s = .next s) ∧
  ∀ (s : State), ∃ t, exec .powerLoss s = .next t ∧ t.boot.powered = false ∧ t.boot.booted = false ∧ t.boot.writing = none ∧
    t.boot.image = s.boot.image ∧ t.boot.torn = s.boot.torn ∧ t.boot.minSvn = s.boot.minSvn ∧ t.teams = [] ∧
    t.launches = [] ∧ t.mem = hostCells s.mem

/-- In every state: a corrected event of a unit that R438 names is put before the unit's events of the last 24 h and
logged as kind 1, a port's counts its replay and its CRC error (log 30), and the third of them marks the unit and
logs kind 3; an uncorrectable event has its effect, is logged as kind 2 and marks the unit: an ECC kill takes the
team, a clean sector changes nothing else, a dirty sector is poisoned, a port, the host link or a cluster network
goes DOWN, a channel loses one of its 8 wavelengths; a word that names no unit changes nothing; READMIT clears
counts and mark, and the unit stays as it is until a reset. PCAP takes 1,000 to 3,200 W; the clock moves 25 MHz
toward the lowest demand between 425 and 1,700 MHz, where the inlet power above PCAP or above 3,520 W, a sensor at
its limit and a throttle that holds demand their part; a sensor at its limit lowers it a step and holds it; a die
sensor at 110 °C for 1 ms halts every core and sends vector 2; a monitor is read as it is, and an offset without one
reads nothing; a write of a register by its master takes the effect of that register, and one by another master
changes nothing. Of the log's counts and of the clock's demands, what the spec leaves open is the model's choice
(logs 21 and 30), as is how long a link stays DOWN (log 30). (R396, R397, R427, R435, R437, R438, R439, R440, R441,
R442, R444, R445.) -/
def Obligations.FleetEvents : Prop :=
  (∀ (s : State) (u : Word), unitNamed u = none →
    (∀ pa, exec (.correctedError u pa) s = .next s) ∧ ∀ loc, exec (.uncorrectableError u loc) s = .next s) ∧
  (∀ (s : State) (u v : Word) (pa : Nat), unitNamed u = some v →
    let times := s.now :: (s.unit v).times.filter (fun t => s.now < t + 86400000000000)
    let st := (s.noteUnit { s.unit v with times := times }).logError v 1 times.length pa
    let st := if unitClass v = 7 then st.mapPort (unitPort v) fun p =>
      { p with replays := min 65535 (p.replays + 1), crc := min 65535 (p.crc + 1) } else st
    exec (.correctedError u pa) s = .next (if 3 ≤ times.length then st.markLasting v times.length pa else st)) ∧
  (∀ (s : State) (u : Word) (n pa : Nat),
    ((s.unit u).lasting = true → s.markLasting u n pa = s) ∧
    ((s.unit u).lasting = false → s.markLasting u n pa = (s.noteUnit { s.unit u with lasting := true, out := true }).logError u 3 n pa)) ∧
  (∀ (s : State) (x : UnitLog),
    (unitClass x.word ≠ 5 → s.noteUnit x = { s with units := x :: s.units.filter fun y => y.word != x.word })) ∧
  (∀ (s : State) (u : Word) (kind n pa : Nat),
    let r := leBytes 8 s.now ++ leBytes 4 u.toNat ++ leBytes 1 kind ++ leBytes 1 (min n 255) ++ leBytes 2 0 ++ leBytes 8 pa ++ leBytes 8 0
    s.logError u kind n pa = { s with
      errlog := (s.errlog ++ [r]).drop (s.errlog.length + 1 - 1024), errpi := (s.errpi + 1) % 2 ^ 32,
      output := s.output ++ if kind = 2 ∨ kind = 3 then [.msix 0] else [] }) ∧
  (∀ (s : State) (u v : Word), unitNamed u = some v →
    let noted := fun (st : State) (pa : Nat) =>
      let n := ((st.unit v).times.filter fun t => st.now < t + 86400000000000).length
      (st.logError v 2 n pa).markLasting v n pa
    (∀ uid, exec (.uncorrectableError u (.team uid)) s = .next (noted (s.killTeam uid 0x13 0) 0)) ∧
    (∀ pa, exec (.uncorrectableError u (.cleanSector pa)) s = .next (noted s pa)) ∧
    (∀ pa, pa / 64 ∉ s.poisoned → exec (.uncorrectableError u (.dirtySector pa)) s = .next
      (noted { s with poisoned := (pa / 64) :: s.poisoned } pa)) ∧
    (∀ pa, pa / 64 ∈ s.poisoned → exec (.uncorrectableError u (.dirtySector pa)) s = .next (noted s pa)) ∧
    (∀ wave, unitClass v = 7 → exec (.uncorrectableError u (.link wave)) s = .next
      (noted (s.mapPort (unitPort v) fun p => if p.usable = true then { p with st := .down } else p) 0)) ∧
    (∀ wave, unitClass v = 2 → exec (.uncorrectableError u (.link wave)) s = .next
      (noted { s with linksDown := v :: s.linksDown.filter (· != v) } 0)) ∧
    (∀ wave, unitClass v = 8 → exec (.uncorrectableError u (.link wave)) s = .next
      (noted { s with linksDown := v :: s.linksDown.filter (· != v), linkCxl := false, linkCache := false } 0)) ∧
    (∀ wave, unitClass v = 6 → wave < 8 → (v.toNat, wave) ∉ s.lostWaves → exec (.uncorrectableError u (.link wave)) s = .next
      (noted { s with lostWaves := (v.toNat, wave) :: s.lostWaves } 0)) ∧
    (∀ wave, (unitClass v = 6 → 8 ≤ wave ∨ (v.toNat, wave) ∈ s.lostWaves) → unitClass v ∉ [2, 7, 8] →
      exec (.uncorrectableError u (.link wave)) s = .next (noted s 0))) ∧
  (∀ (s : State) (m : Master),
    (s.reaches m = true → s.keyHolder = masterCode m →
      (∀ u, unitNamed u = none → exec (.readmit m u) s = .next s) ∧
      (∀ u v, unitNamed u = some v → exec (.readmit m u) s = .next
        { s with units := s.units.map fun x => if x.word = v then { x with times := [], lasting := false } else x }) ∧
      (∀ w, 1000 ≤ w.toNat → w.toNat ≤ 3200 → exec (.pcapWrite m w) s = .next { s with power := { s.power with pcap := w.toNat } }) ∧
      (∀ w, w.toNat < 1000 ∨ 3200 < w.toNat → exec (.pcapWrite m w) s = .next s) ∧
      (∀ off w, isKeyRegister off = true → exec (.registerWrite m off w) s = .next (s.keyWrite off (w.extractLsb' 0 32))) ∧
      (∀ w : Word, s.podcfg.getLsbD 31 = false → (∀ p ∈ s.ports, p.st = .off) →
        s.keyWrite 0x2000000 w = { s with podcfg := w &&& 0x800003FF }) ∧
      ∀ w : Word, (s.podcfg.getLsbD 31 = true ∨ ∃ p ∈ s.ports, p.st ≠ .off) → s.keyWrite 0x2000000 w = s) ∧
    (s.reaches m = false ∨ s.keyHolder ≠ masterCode m →
      (∀ u, exec (.readmit m u) s = .next s) ∧ (∀ w, exec (.pcapWrite m w) s = .next s) ∧
      ∀ off w, isKeyRegister off = true → exec (.registerWrite m off w) s = .next s)) ∧
  (∀ (s : State) (off : Nat) (w : DWord), isKeyRegister off = false →
    (exec (.registerWrite .arpex off w) s = .next s) ∧
    (s.hostLink = false → exec (.registerWrite .host off w) s = .next s) ∧
    (s.hostLink = true → exec (.registerWrite .host off w) s = .next (s.hostRegister off w))) ∧
  (∀ (s : State) (w : DWord),
    (w.extractLsb' 40 24 = 0 → w.extractLsb' 0 30 = 0 → s.hostRegister 0x8 w = { s with w1base := w.toNat }) ∧
    (w.extractLsb' 40 24 ≠ 0 ∨ w.extractLsb' 0 30 ≠ 0 → s.hostRegister 0x8 w = s) ∧
    s.hostRegister 0x0 w = s ∧ s.hostRegister 0x10 w = s ∧
    ∀ p, p < 64 → s.hostRegister (0x100130 + 4096 * p) w = s.mapSlot p fun sl => { sl with dldef := w.toNat }) ∧
  (∀ (s : State), s.boot.powered = true →
    (s.keyHolder = 2 →
      (∀ w, 1000 ≤ w.toNat → w.toNat ≤ 3200 → exec (.powerCap w) s = .next
        { s with power := { s.power with pcap := w.toNat }, output := s.output ++ [.arpex 0 []] }) ∧
      (∀ w, w.toNat < 1000 ∨ 3200 < w.toNat → exec (.powerCap w) s = .next { s with output := s.output ++ [.arpex 3 []] }) ∧
      (∀ off w, isKeyRegister off = false → exec (.write off w) s = .next { s with output := s.output ++ [.arpex 3 []] }) ∧
      (∀ off w, isKeyRegister off = true → exec (.write off w) s = .next
        { s.keyWrite off w with output := (s.keyWrite off w).output ++ [.arpex 0 []] })) ∧
    (s.keyHolder ≠ 2 → (∀ w, exec (.powerCap w) s = .next { s with output := s.output ++ [.arpex 2 []] }) ∧
      ∀ off w, exec (.write off w) s = .next { s with output := s.output ++ [.arpex 2 []] }) ∧
    ∀ off, let reading := ((s.power.sensors.find? fun x => x.1 == off).map (·.2)).getD 0
      (off % 4 = 0 → ((0x3800000 ≤ off ∧ off < 0x3800440) ∨ (0x3801000 ≤ off ∧ off < 0x3801060) ∨ (0x3802000 ≤ off ∧ off < 0x3802020)) →
        s.register off = reading % 2 ^ 16 ∧
        exec (.pldmSensorRead off) s = .next { s with output := s.output ++ [.reading (reading % 2 ^ 16)] }) ∧
      (off = 0x3803000 → s.register off = reading % 2 ^ 32 ∧
        exec (.pldmSensorRead off) s = .next { s with output := s.output ++ [.reading (reading % 2 ^ 32)] }) ∧
      (off = 0x3803004 → exec (.pldmSensorRead off) s = .next
        { s with output := s.output ++ [.reading (s.power.clock + 65536 * s.power.reasons)] })) ∧
  (∀ (s : State) (off : Nat),
    ((s.boot.powered = false ∨ (off ∉ [0x3803000, 0x3803004] ∧ (off % 4 ≠ 0 ∨ ¬((0x3800000 ≤ off ∧ off < 0x3800440) ∨
        (0x3801000 ≤ off ∧ off < 0x3801060) ∨ (0x3802000 ≤ off ∧ off < 0x3802020))))) →
      exec (.pldmSensorRead off) s = .next s) ∧
    (s.boot.powered = false → ∀ w, exec (.powerCap w) s = .next s ∧ exec (.write off w) s = .next s)) ∧
  (∀ (s : State) (clock reasons : Nat),
    s.setClock clock reasons = { s with
      power := { s.power with clock := clock, reasons := reasons },
      output := s.output ++ if reasons = s.power.reasons then [] else [.msix 2] }) ∧
  (∀ (s : State) (cap fast : Nat),
    let c := s.power.clock
    let watts := ((s.power.sensors.find? fun x => x.1 == 0x3803000).map (·.2)).getD 0
    let slow := if s.power.pcap < watts % 65536 then min cap (c - 25) else cap
    let quick := if 3520 < watts / 65536 then min fast (c - 25) else fast
    let heat := if s.power.hotNow then c - 25 else if s.power.throttled then c else 1700
    let want := min (min (min slow quick) heat) 1700 / 25 * 25
    let goal := max 425 want
    exec (.clockStep cap fast) s = .next (s.setClock
      (if goal < c then c - 25 else if c < goal then c + 25 else c)
      ((if slow < 1700 then 1 else 0) + (if quick < 1700 then 2 else 0) + (if s.power.throttled then 4 else 0) +
        if want < 425 then 16 else 0))) ∧
  (∀ (s : State),
    (s.power.hotNow = true → exec .thermalThrottle s = .next
      (State.setClock { s with power := { s.power with throttled := true } } (max 425 (s.power.clock - 25))
        (s.power.reasons % 4 + 4 + s.power.reasons / 8 * 8))) ∧
    (s.power.hotNow = false → exec .thermalThrottle s = .next s)) ∧
  ∀ (s : State) (k : Nat),
    ((s.power.tripped = true ∨ ∀ since, (0x3800000 + 4 * k, since) ∈ s.power.hot → s.now < since + 1000000) →
      exec (.thermalTrip k) s = .next s) ∧
    ∀ since, s.power.tripped = false → (0x3800000 + 4 * k, since) ∈ s.power.hot → since + 1000000 ≤ s.now →
      exec (.thermalTrip k) s = .next
        { s with power := { s.power with tripped := true },
                 cores := s.cores.map fun c => if c.halted then c else { c with halting := true },
                 output := s.output ++ [.msix 2] }

/-- Words that the spec assembles, of seven formats, and the all-zero word decode to the instruction and the fields
written beside them; an assigned word with a reserved bit set and a word of an unassigned minor do not decode.
(R204, R208, R209, R210, R213, R218.) -/
def Obligations.DecodeWords : Prop :=
  decodeWord 0xAE8C4220 = some (.ldg { c := true, u := false, d := 6, a := 8, sz := 2, o := 4, ka := false, ea := false, l := false }) ∧
  decodeWord 0x00986001 = some (.add { c := false, u := false, d := 12, a := 12, b := 0, ka := false, kb := false, ea := false, eb := false, l := true }) ∧
  decodeWord 0x1B9420B2 = some (.fmul { c := false, u := false, d := 10, a := 4, b := 5, ka := true, kb := false, ea := false, eb := true, l := false }) ∧
  decodeWord 0x140A20C1 = some (.xdown { c := false, u := false, d := 5, a := 4, b := 6, ka := false, kb := false, ea := false, eb := false, l := true }) ∧
  decodeWord 0x150E2100 = some (.sumAdd { c := false, u := false, d := 7, a := 4, ka := false, ea := false, l := false }) ∧
  decodeWord 0x288218B0 = some (.laddS32 { c := false, u := false, d := 1, a := 3, ka := true, ea := false, l := false }) ∧
  decodeWord 0x2E100140 = some (.lseg { c := false, u := false, d := 8, a := 0, m := 10, ka := false, ea := false, l := false }) ∧
  decodeWord 0x2D0240A1 = some (.lred { c := false, u := false, d := 1, a := 8, sz := 0, o := 20, ka := false, ea := false, l := true }) ∧
  decodeWord 0x72A02280 = some (.acas16 { c := false, u := true, d := 16, a := 4, b := 20, ka := false, kb := false, ea := false, eb := false, l := false }) ∧
  decodeWord 0x75102001 = some (.cp { c := false, u := true, d := 8, a := 4, b := 0, ka := false, kb := false, ea := false, eb := false, l := true }) ∧
  decodeWord 0x78000021 = some (.waitc { c := false, u := true, d := 0, a := 0, m := 1, ka := false, ea := false, l := true }) ∧
  decodeWord 0x7B946080 = some (.hypRefute { c := false, u := true, d := 10, a := 12, ka := false, ea := false, l := false }) ∧
  decodeWord 0x7C808000 = some (.mloop { c := false, u := true, d := 0, a := 16, b := 0, ka := false, kb := false, ea := false, eb := false, l := false }) ∧
  decodeWord 0x3F800000 = some (.sysEret { c := false, u := false, d := 0, a := 0, ka := false, ea := false, l := false }) ∧
  decodeWord 0 = some (.nop { c := false, u := false, d := 0, a := 0, ka := false, ea := false, l := false }) ∧
  decodeWord 0x00000002 = none ∧ decodeWord 0x000000A0 = none

/-- For every instruction that has a word, whatever its fields, if its reserved fields are zero and its U bit is
allowed, then its encoding decodes to it; every word that decodes is the encoding of what it decodes to, which has
its reserved fields zero and its U bit allowed; so two instructions never share a word, and the device's own
operations have none. (R208, R209, R210, R211, R212, R213, R215, R218, R227, R228, R229.) -/
def Obligations.DecodeEncode : Prop :=
  (∀ (i : Instr) (w : Word), i.view.ok = true → encode i = some w → decodeWord w = some i) ∧
  (∀ (i : Instr), i.view ≠ .event → ∃ w, encode i = some w) ∧
  (∀ (i : Instr), i.view = .event → encode i = none) ∧
  (∀ (i : Instr) (w : Word), decodeWord w = some i → i.view.ok = true ∧ encode i = some w) ∧
  ∀ (i j : Instr) (w : Word), i.view.ok = true → j.view.ok = true → encode i = some w → encode j = some w → i = j

/-- When the schedule names a group that may issue, whose subset has no trap due and whose packet is in the instruction
buffer, and the word at the subset's slot is alone in its set, and decodes to i, the step is exec of i with that
word in hand for the threads that go on with the same bytes of the packet, then what follows an attempt to issue,
then what is settled after every step; a word that decodes to nothing traps ILLEGAL in every thread of the subset;
in a set of several words each one is run in this way. When the schedule names an operation of the device, the step
is exec of it, then what is settled. (R31, R34, R202, R203, R206, R218, R376, R377.) -/
def Obligations.StepRunsDecoded : Prop :=
  (∀ (s : State) (uid gid : Nat) (rest : List Sched), s.schedule = .issue uid gid :: rest →
    ∀ (s0 : State) (t : Team) (g : Group) (pc : DWord) (ts : List Nat) (l : CodeLine) (s1 : State) (bytes : List Byte) (word : Word),
    s0 = { s with schedule := rest } → s0.team? uid = some t → t.groups[gid]? = some g → s0.mayIssue t gid g = true →
    g.issueSubset = some (pc, ts) → s0.dueTraps uid gid g ts = none → s0.codeLine t gid g pc.toNat = some l →
    ∀ ts', ts' = g.sameBytes (packetOf pc) ts → s0.packetBytes t g l pc ts' = (s1, bytes) → word = (leWords 4 bytes).getD (slotOf pc) 0 → word.getLsbD 31 = false →
    ∀ s2 st, s2 = s1.beginIssue t gid g pc ts' bytes →
    st = { s2 with
      cur := some { uid := uid, gid := gid, active := ts', pc := packetOf pc + BitVec.ofNat 64 (4 * slotOf pc), setPc := pc,
                    lit := (leWords 4 bytes).getD 3 0, word := word, snap := g.shown, start := s2.nextId, traps := [],
                    waiting := false } } →
    (∀ i, decodeWord word = some i → step s = settled (match exec i st with
      | .next r => .next (r.afterIssue t gid g l)
      | o => o)) ∧
    (decodeWord word = none → ∃ c, st.cur = some c ∧
      step s = .next ((st.deliver c (c.allTraps 0x01 word)).afterIssue t gid g l).settle)) ∧
  (∀ (s : State) (c : Cur), s.cur = some c →
    (∀ i, decodeWord c.word = some i → lookWord.runOne s = exec i s) ∧
    (decodeWord c.word = none → lookWord.runOne s = .next (s.deliver c (c.allTraps 0x01 c.word)))) ∧
  ∀ (s : State) (i : Instr) (rest : List Sched), s.schedule = .op i :: rest → i.view = .event →
    step s = settled (exec i { s with schedule := rest })

/-- For every state whose memory is in its canonical form: when a slice of device memory performs a store, an atomic or
an accumulator merge, every sector written has the later of now and its latest granted expiry as its write time
stamp, its completion time, and keeps its expiry, the other sectors keep theirs, and the latest of these times is
what is returned; the bytes are written, the atomic returns the old bytes, the unit merged into enters the ACC
state, memory is in its canonical form again, and every byte outside what is written, in no ACC unit, reads as
before. A store of the host to its own memory writes its bytes and no other. That a write of several sectors returns
the latest of their times is the model's reading (log 60), and that memory not written reads zero its choice (log
3). (R74, R90, R91.) -/
def Obligations.HomeSliceWrites : Prop :=
  (∀ (s t : State) (pa : Nat) (bytes : List Byte) (c : Nat), Memory.wf s.mem = true → bytes ≠ [] → pa + bytes.length ≤ 2 ^ 51 →
    s.commit pa bytes = (t, c) →
    Memory.wf t.mem = true ∧ Memory.readN t.mem pa bytes.length = bytes ∧ s.stampedAs t pa bytes.length c ∧
    ∀ a, (a < pa ∨ pa + bytes.length ≤ a) → a / 128 ∉ s.accUnits → Memory.read t.mem a = Memory.read s.mem a) ∧
  (∀ (s t : State) (op : AtomOp) (pa size b x : Nat) (old : List Byte) (c : Nat), Memory.wf s.mem = true → size ≠ 0 → pa + size ≤ 2 ^ 51 →
    s.sliceAtomic op pa size b x = (t, old, c) →
    Memory.wf t.mem = true ∧ s.stampedAs t pa size c ∧ old = Memory.readN (s.leaveAcc pa size).mem pa size ∧
    Memory.readN t.mem pa size = ((op.apply size (leNat old) b x).elim old fun n => leBytes size n) ∧
    ∀ a, (a < pa ∨ pa + size ≤ a) → a / 128 ∉ s.accUnits → Memory.read t.mem a = Memory.read s.mem a) ∧
  (∀ (s t : State) (pa : Nat) (img : LongAcc) (c : Nat), Memory.wf s.mem = true → img.seg.length = 20 → pa % 128 = 0 → pa + 128 ≤ 2 ^ 51 →
    s.sliceMerge pa img = (t, c) →
    Memory.wf t.mem = true ∧ s.stampedAs t pa 128 c ∧ pa / 128 ∈ t.accUnits ∧
    Memory.readN t.mem pa 128 = ((LongAcc.ofImageRaw (Memory.readN s.mem pa 128)).merge img).image ∧
    ∀ a, (a < pa ∨ pa + 128 ≤ a) → Memory.read t.mem a = Memory.read s.mem a) ∧
  ∀ (s : State) (hpa : Nat) (data : List Byte), Memory.wf s.mem = true →
    Memory.wf (s.hostStore hpa data).mem = true ∧ Memory.readN (s.hostStore hpa data).mem (2 ^ 51 + hpa) data.length = data ∧
    ∀ a, (a < 2 ^ 51 + hpa ∨ 2 ^ 51 + hpa + data.length ≤ a) → Memory.read (s.hostStore hpa data).mem a = Memory.read s.mem a

/-- Every next state of a step has no word in hand, and every core or cluster network that is marked lasting-faulted and
holds no team is retired in it. That no word is in hand between two steps is the model's choice (log 16), and that a
unit retires at the end of the step that frees it its reading of R442. (R442.) -/
def Obligations.SettledKept : Prop :=
  ∀ s t : State, s.Settled → step s = .next t → t.Settled

/-- Memory is in its canonical form and reads zero at every address after reset (a zero byte is the model's choice, log
3), no word is in hand (log 16), and no unit is marked. (R442.) -/
def Obligations.ResetMeetsInvariants : Prop :=
  Memory.wf State.reset.mem = true ∧ (∀ a, Memory.read State.reset.mem a = 0) ∧ State.reset.Settled ∧ State.reset.units = []

/-- No team is resident and no record queued; every process slot is disabled with HOLD 0, XCTL 0, PODJOB 0, VEC 0, DLDEF
0 and its indices 0; every port is OFF with EN 0; W1BASE and PODCFG are 0; VSCFG is 16 with REFUSED clear; no entry
of the reduce-group table is valid; the clock is 1,700 MHz with PCAP 3,200; the key is free; no error is logged.
(The clock, the empty log and the free key after power-on are the model's reading, logs 4 and 31.) (R397, R399,
R415, R416, R427, R430, R436, R445.) -/
def Obligations.ResetState : Prop :=
  State.reset.teams = [] ∧ State.reset.launches = [] ∧ (∀ c < 8, (State.reset.cluster c).queue = []) ∧
  (∀ p < 64, ∀ sl, sl = State.reset.slot p → sl.num = p ∧ sl.en = false ∧ sl.hold = false ∧ sl.err = 0 ∧ sl.xctl = 0 ∧ sl.podjob = 0 ∧
    sl.vec = 0 ∧ sl.dldef = 0 ∧ sl.lqpi = 0 ∧ sl.lqci = 0 ∧ sl.cqpi = 0 ∧ sl.cqci = 0 ∧ sl.fbpi = 0 ∧ sl.fbci = 0) ∧
  (∀ n < 16, (State.reset.port n).st = .off ∧ (State.reset.port n).en = false) ∧
  State.reset.w1base = 0 ∧ State.reset.podcfg = 0 ∧ State.reset.vscfg = 16 ∧ State.reset.vsRefused = false ∧
  (∀ n, State.reset.reduceEntry n = 0) ∧ State.reset.power.clock = 1700 ∧ State.reset.power.pcap = 3200 ∧
  State.reset.keyHolder = 0 ∧ State.reset.errlog = [] ∧ State.reset.register 0x0010 = 0 ∧
  ∀ cl core, (State.reset.core cl core).halted = false
end

