-- ==== Sys2Proof/Laws/Issue.lean ====
section
/-! SUPPORT. What the issue of a word can do, said once: when no register state holds a word back and its body neither
waits nor traps, the state lands as its effect says (R39, R40, R203, R235). -/

namespace Sys2Proof.Machine

open Sys2Proof

/-! ## Registers written one by one -/

theorem getElem?_foldl_modify {β : Type} (F : β → Reg → Reg) (n : Nat) (l : List (Nat × β)) (v : List Reg)
    (h : (l.map (·.1)).Nodup) :
    (l.foldl (fun v w => v.modify w.1 (F w.2)) v)[n]? =
      (v[n]?).map fun r => match l.find? fun x => x.1 == n with
        | some x => F x.2 r
        | none => r := by
  induction l generalizing v with
  | nil => simp
  | cons w l ih =>
    simp only [List.map_cons, List.nodup_cons, List.mem_map, not_exists, not_and] at h
    rw [List.foldl_cons, ih _ h.2]
    by_cases hw : w.1 = n
    · have hn : l.find? (fun x => x.1 == n) = none := by
        rw [List.find?_eq_none]
        intro x hx he
        exact h.1 x hx (by simpa [hw] using he)
      cases hv : v[n]? <;> simp [hn, hw, hv]
    · have hb : (w.1 == n) = false := by simpa using hw
      simp [hb, hw]

theorem getElem?_foldl_free (n : Nat) (l : List Nat) (v : List Reg) :
    (l.foldl (fun v m => v.modify m Reg.freed) v)[n]? =
      (v[n]?).map fun r => if l.contains n then { r with st := .absent, prod := 0 } else r := by
  induction l generalizing v with
  | nil => simp
  | cons m l ih =>
    rw [List.foldl_cons, ih]
    by_cases hm : m = n
    · subst hm; cases h : v[m]? <;> simp [h, Reg.freed]
    · have : ¬ n = m := fun h => hm h.symm
      cases h : v[n]? <;> simp [h, hm, this]

/-- Frees, writes and pending marks one after the other are `newReg`. -/
theorem writes_eq_newReg (frees : List Nat) (out : List (Nat × Word)) (pend : List (Nat × Nat)) (v : List Reg)
    (h : (out.map (·.1) ++ pend.map (·.1)).Nodup) :
    (pend.foldl (fun v w => v.modify w.1 fun r => { r with st := .empty, prod := w.2 })
      (out.foldl (fun v w => v.modify w.1 (fun _ => Reg.full w.2)) (frees.foldl (fun v m => v.modify m Reg.freed) v))) =
      v.mapIdx (newReg frees out pend) := by
  have ho := (List.nodup_append.1 h).1
  have hp := (List.nodup_append.1 h).2.1
  have hd := (List.nodup_append.1 h).2.2
  apply List.ext_getElem?
  intro n
  rw [getElem?_foldl_modify (fun p r => { r with st := .empty, prod := p }) n pend _ hp,
    getElem?_foldl_modify (fun x _ => Reg.full x) n out _ ho, getElem?_foldl_free, List.getElem?_mapIdx]
  cases hv : v[n]? with
  | none => simp
  | some r =>
    simp only [Option.map_some, newReg]
    cases hpf : pend.find? fun x => x.1 == n with
    | none => cases out.find? (fun x => x.1 == n) <;> simp [Reg.full]
    | some x =>
      have hx := List.find?_some hpf
      have hm := List.mem_of_find?_eq_some hpf
      have hof : out.find? (fun x => x.1 == n) = none := by
        rw [List.find?_eq_none]
        intro y hy he
        refine hd y.1 (List.mem_map_of_mem hy) x.1 (List.mem_map_of_mem hm) ?_
        simp at he hx
        omega
      simp only [hof]
      split <;> rfl

/-! ## Threads and groups -/

theorem foldl_setV {β : Type} (F : β → Nat) (G : β → Reg → Reg) (l : List β) (th : Thread) (v : List Reg) (h : List Word) :
    ∃ held, l.foldl (fun th w => th.setV (F w) (G w)) { th with v := v, held := h } =
      { th with v := l.foldl (fun v w => v.modify (F w) (G w)) v, held := held } := by
  induction l generalizing v h with
  | nil => exact ⟨h, rfl⟩
  | cons w l ih => exact ih (v.modify (F w) (G w)) (remember h (v.getD (F w) Reg.absent).val)

theorem foldl_setG {β : Type} (F : β → Nat) (G : β → Reg → Reg) (l : List β) (g : Group) (v : List Reg) (h : List Word) :
    ∃ held, l.foldl (fun g w => g.setG (F w) (G w)) { g with g := v, held := h } =
      { g with g := l.foldl (fun v w => v.modify (F w) (G w)) v, held := held } := by
  induction l generalizing v h with
  | nil => exact ⟨h, rfl⟩
  | cons w l ih => exact ih (v.modify (F w) (G w)) (remember h (v.getD (F w) Reg.absent).val)

theorem foldl_setAcc (l : List (Nat × AccCell)) (th : Thread) :
    l.foldl (fun th w => { th with acc := th.acc.set w.1 w.2 }) th =
      { th with acc := l.foldl (fun a w => a.set w.1 w.2) th.acc } := by
  induction l generalizing th with
  | nil => rfl
  | cons w l ih => rw [List.foldl_cons, ih]; rfl

theorem foldl_set_eq_newAcc (l : List (Nat × AccCell)) (a : List AccCell) (h : (l.map (·.1)).Nodup) :
    l.foldl (fun a w => a.set w.1 w.2) a = a.mapIdx (newAcc l) := by
  apply List.ext_getElem?
  intro n
  rw [List.getElem?_mapIdx]
  induction l generalizing a with
  | nil => cases h : a[n]? <;> simp [newAcc, h]
  | cons w l ih =>
    simp only [List.map_cons, List.nodup_cons, List.mem_map, not_exists, not_and] at h
    rw [List.foldl_cons, ih _ h.2]
    by_cases hw : w.1 = n
    · have hn : l.find? (fun x => x.1 == n) = none := by
        rw [List.find?_eq_none]
        intro x hx he
        exact h.1 x hx (by simpa [hw] using he)
      cases ha : a[n]? with
      | none =>
        have : a.length ≤ n := List.getElem?_eq_none_iff.1 ha
        simp [newAcc, hn, hw]
        omega
      | some c =>
        have : n < a.length := (List.getElem?_eq_some_iff.1 ha).1
        simp [newAcc, hn, hw, this]
    · have hb : (w.1 == n) = false := by simpa using hw
      have : newAcc (w :: l) n = newAcc l n := by funext c; simp [newAcc, hb]
      rw [this, List.getElem?_set_ne hw]

/-- The parts of an outcome name each register once. -/
structure Done.Apart (d : Done) (i : Issue) : Prop where
  thread : ∀ k ∈ i.c.active, ((d.res k).map (·.1) ++ (d.pend k).map (·.1)).Nodup
  accs : ∀ k, ((d.acc k).map (·.1)).Nodup
  group : ((if i.v.u then d.res i.first else []).map (·.1) ++ d.gres.map (·.1)
    ++ (if i.v.u then d.pend i.first else []).map (·.1)).Nodup

/-- The effect of an outcome. -/
def Done.effect (d : Done) : Effect :=
  { out := d.res, gout := d.gres, pend := d.pend, acc := d.acc, flags := d.flags, goto := d.jump, edit := d.edit, quiet := d.quiet }

theorem vRegs_eq (d : Done) (frees : List Nat) (k : Nat) (th : Thread)
    (h : ((d.res k).map (·.1) ++ (d.pend k).map (·.1)).Nodup) :
    ∃ held, d.vRegs frees k th = { th with v := th.v.mapIdx (newReg frees (d.res k) (d.pend k)), held := held } := by
  obtain ⟨h1, e1⟩ := foldl_setV (fun n : Nat => n) (fun _ => Reg.freed) frees th th.v th.held
  obtain ⟨h2, e2⟩ := foldl_setV (fun w : Nat × Word => w.1) (fun w _ => Reg.full w.2) (d.res k) th
    (frees.foldl (fun v m => v.modify m Reg.freed) th.v) h1
  obtain ⟨h3, e3⟩ := foldl_setV (fun w : Nat × Nat => w.1) (fun w r => { r with st := .empty, prod := w.2 }) (d.pend k) th
    ((d.res k).foldl (fun v w => v.modify w.1 (fun _ => Reg.full w.2)) (frees.foldl (fun v m => v.modify m Reg.freed) th.v)) h2
  refine ⟨h3, ?_⟩
  rw [Done.vRegs, ← writes_eq_newReg _ _ _ _ h, ← e3, ← e2, ← e1]

theorem common_eq (d : Done) (pc : DWord) (stamp k : Nat) (th : Thread) (h : ((d.acc k).map (·.1)).Nodup) :
    d.common pc stamp k th =
      d.edit k { th with acc := th.acc.mapIdx (newAcc (d.acc k)), fst := th.fst ||| d.flags k,
                         pc := (d.jump k).getD (nextPc pc), wait := .none, passed := none, popping := none,
                         lastIssue := if d.quiet then th.lastIssue else stamp } := by
  rw [Done.common, foldl_setAcc, foldl_set_eq_newAcc _ _ h]

theorem thread_eq (d : Done) (u : Bool) (frees : List Nat) (pc : DWord) (stamp k : Nat) (th : Thread)
    (h : ((d.res k).map (·.1) ++ (d.pend k).map (·.1)).Nodup) (ha : ((d.acc k).map (·.1)).Nodup) :
    ∃ held, d.common pc stamp k (if u then th else d.vRegs frees k th) = d.effect.thread u frees pc stamp k held th := by
  cases u with
  | true => exact ⟨th.held, by rw [common_eq d pc stamp k _ ha]; rfl⟩
  | false =>
    obtain ⟨held, e⟩ := vRegs_eq d frees k th h
    exact ⟨held, by rw [common_eq d pc stamp k _ ha]; simp only [Bool.false_eq_true, ↓reduceIte, e]; rfl⟩

theorem gRegs_eq (d : Done) (u : Bool) (frees gFrees : List Nat) (t0 : Nat) (g : Group)
    (h : ((if u then d.res t0 else []).map (·.1) ++ d.gres.map (·.1) ++ (if u then d.pend t0 else []).map (·.1)).Nodup) :
    ∃ held, d.gRegs u frees gFrees t0 g =
      { g with g := g.g.mapIdx (newReg (gFrees ++ if u then frees else []) ((if u then d.res t0 else []) ++ d.gres)
          (if u then d.pend t0 else [])), held := held } := by
  have hr : d.gRegs u frees gFrees t0 g =
      (if u then d.pend t0 else []).foldl (fun g w => g.setG w.1 fun r => { r with st := .empty, prod := w.2 })
        (((if u then d.res t0 else []) ++ d.gres).foldl (fun g w => g.setG w.1 fun _ => Reg.full w.2)
          ((gFrees ++ if u then frees else []).foldl (fun g n => g.setG n Reg.freed) g)) := by
    cases u <;> simp [Done.gRegs, List.foldl_append]
  obtain ⟨h1, e1⟩ := foldl_setG (fun n : Nat => n) (fun _ => Reg.freed) (gFrees ++ if u then frees else []) g g.g g.held
  obtain ⟨h2, e2⟩ := foldl_setG (fun w : Nat × Word => w.1) (fun w _ => Reg.full w.2)
    ((if u then d.res t0 else []) ++ d.gres) g
    ((gFrees ++ if u then frees else []).foldl (fun v m => v.modify m Reg.freed) g.g) h1
  obtain ⟨h3, e3⟩ := foldl_setG (fun w : Nat × Nat => w.1) (fun w r => { r with st := .empty, prod := w.2 })
    (if u then d.pend t0 else []) g
    (((if u then d.res t0 else []) ++ d.gres).foldl (fun v w => v.modify w.1 (fun _ => Reg.full w.2))
      ((gFrees ++ if u then frees else []).foldl (fun v m => v.modify m Reg.freed) g.g)) h2
  refine ⟨h3, ?_⟩
  rw [hr, ← writes_eq_newReg _ _ _ _ (by simpa using h), ← e3, ← e2, ← e1]

theorem group_eq (d : Done) (i : Issue) (ops : List Opd) (stamp : Nat) (g : Group) (hn : i.c.active ≠ [])
    (hf : i.first = i.c.active.headD 0) (h : d.Apart i) :
    ∃ held helds, d.group i.v.u ops i.c.pc i.c.setPc stamp i.c.active g = d.effect.group i ops stamp held helds g := by
  obtain ⟨held, e⟩ := gRegs_eq d i.v.u (freesOf ops) (gFreesOf ops) i.first g h.group
  have ht : ∀ k, ∃ held, ∀ th, g.threads[k]? = some th → i.c.active.contains k = true →
      d.common i.c.pc stamp k (if i.v.u then th else d.vRegs (freesOf ops) k th)
        = d.effect.thread i.v.u (freesOf ops) i.c.pc stamp k held th := by
    intro k
    cases hk : g.threads[k]? with
    | none => exact ⟨[], by simp⟩
    | some th =>
      by_cases hc : i.c.active.contains k = true
      · obtain ⟨held, e⟩ := thread_eq d i.v.u (freesOf ops) i.c.pc stamp k th (h.thread k (by simpa using hc)) (h.accs k)
        exact ⟨held, by rintro _ ⟨⟩ -; exact e⟩
      · exact ⟨[], fun _ _ h => absurd h hc⟩
  obtain ⟨hs, ht⟩ := Classical.skolem.1 ht
  refine ⟨held, hs, ?_⟩
  simp only [Done.group, if_neg hn, ← hf, e, Effect.group, Group.mapThreads, Done.effect]
  congr 1
  apply List.ext_getElem?
  intro k
  rw [List.getElem?_mapIdx, List.getElem?_mapIdx]
  cases hk : g.threads[k]? with
  | none => rfl
  | some th =>
    simp only [Option.map_some]
    by_cases hc : i.c.active.contains k = true
    · rw [if_pos hc, if_pos hc, ht k th hk hc]; rfl
    · rw [if_neg hc, if_neg hc]

/-! ## The issue of a word -/

/-- Nothing but the model's counters differ. -/
theorem useFree_eq (s : State) (i : Issue) (ops : List Opd) : ∃ free, s.useFree i ops = { s with free := free } := by
  simp only [State.useFree]
  split
  · exact ⟨_, rfl⟩
  · exact ⟨s.free, rfl⟩

theorem finish_lands (d : Done) (i : Issue) (ops : List Opd) (ht : i.ts = i.c.active) (hn : i.c.active ≠ [])
    (hold : d.hold = none) (trap : ∀ k ∈ i.c.active, d.trap k = none) (h : d.Apart i) :
    Lands d.st (d.finish i ops []) i ops d.effect := by
  have hf : i.first = i.c.active.headD 0 := by rw [Issue.first, ht]
  have hfirst : i.first ∈ i.c.active := by
    rw [hf]; cases hc : i.c.active with
    | nil => exact absurd hc hn
    | cons x _ => simp
  have hlate : d.late i = [] := by
    rw [Done.late]
    split
    · rw [trap _ hfirst]
    · rw [ht, List.filterMap_eq_nil_iff]
      intro k hk
      rw [trap k hk]; rfl
  have hok : (i.ts.filter fun t => !((d.late i).any fun x => x.thread == t)) = i.c.active := by
    rw [hlate, ht]; simp
  obtain ⟨free, hu⟩ := useFree_eq d.st i ops
  have hg := fun g => group_eq d i ops d.st.nextId g hn hf h
  refine ⟨fun g => d.group i.v.u ops i.c.pc i.c.setPc d.st.nextId i.c.active g, fun g => (hg g).choose,
    fun g => (hg g).choose_spec.choose, fun g => (hg g).choose_spec.choose_spec, ?_⟩
  have he : d.finish i ops [] = d.complete i ops [] [] i.c.active := by
    simp only [Done.finish, hold]
    rw [hok, hlate]
  have hc : d.complete i ops [] [] i.c.active = ({ { d.st with free := free }.mapGroup i.c.uid i.c.gid
      (d.group i.v.u ops i.c.pc i.c.setPc d.st.nextId i.c.active) with nextId := d.st.nextId + 1 } : State).deliver i.c [] := by
    rw [Done.complete, if_neg hn, hu]; rfl
  rw [he, hc, State.deliver, List.append_nil]
  rfl

/-- A word that nothing holds back lands as its body says. -/
theorem issueWith_lands {s : State} {i : Issue} {litOk : Issue → Word → Bool} {pick : Issue → List Opd → List Opd}
    {body : State → Issue → Done} (h : Clear s i litOk (pick i i.ops)) (hold : (body s i).hold = none)
    (trap : ∀ k ∈ i.c.active, (body s i).trap k = none) (ha : (body s i).Apart i) :
    ∃ s', issueWith i.v litOk pick body s = .next s' ∧ Lands (body s i).st s' i (pick i i.ops) (body s i).effect := by
  have hi : ({ v := i.v, c := i.c, t := i.t, g := i.g, ts := i.c.active, base := s.free } : Issue) = i := by
    rw [← h.threads, ← h.base]
  have hlit : ¬ (!i.v.legal i.t ∨ (i.v.lit ∧ !litOk i i.c.lit)) := by
    rw [h.legal]; rintro (h' | ⟨h1, h2⟩)
    · cases h'
    · rw [h.literal h1] at h2; cases h2
  have hw : (i.c.active.map fun t => (t, i.check (pick i i.ops) t)).any (fun x => x.2 == .waiting) = false := by
    rw [List.any_eq_false]
    intro x hx
    obtain ⟨k, hk, rfl⟩ := List.mem_map.1 hx
    simp only [h.regs k hk]
    decide
  have he : (i.c.active.map fun t => (t, i.check (pick i i.ops) t)).filterMap (fun x =>
      x.2.trap?.map fun y => ({ thread := x.1, cause := y.1, datum := y.2 } : TrapRec)) = [] := by
    rw [List.filterMap_eq_nil_iff]
    intro x hx
    obtain ⟨k, hk, rfl⟩ := List.mem_map.1 hx
    simp only [h.regs k hk]
    rfl
  refine ⟨(body s i).finish i (pick i i.ops) [], ?_, finish_lands _ _ _ h.threads h.some hold trap ha⟩
  simp only [issueWith, h.cur, h.team, h.group, runWord]
  rw [hi, if_neg hlit, h.allowed]
  simp only [Bool.false_eq_true, ↓reduceIte]
  show Host.Outcome.next (runBody i (pick i i.ops) body s) = _
  rw [runBody]
  simp only [hw, he, Bool.false_eq_true, ↓reduceIte]

/-- A word that only computes completes, and its registers and flags are those of its function. -/
theorem computes_of {word : Instr} {f : Issue → Nat → List (Nat × Word) × Word} {e : State → Issue → Effect}
    (hx : ∀ s, exec word s = issueWord word.view (compute f) s) (hd : ∀ i k, ((f i k).1.map (·.1)).Nodup)
    (he : ∀ s i, i.v = word.view →
      e s i = { out := fun k => (f i k).1, flags := fun k => (f i (if i.v.u then i.first else k)).2 }) :
    Computes word e := by
  intro s i hv h
  obtain ⟨s', h1, h2⟩ := issueWith_lands (litOk := anyLit) (pick := fun _ l => l) (body := compute f) h rfl (fun _ _ => rfl)
    { thread := fun k _ => by simpa [compute] using hd i k
      accs := fun _ => by simp [compute]
      group := by cases i.v.u <;> simp [compute, hd] }
  refine ⟨s', ?_, ?_⟩
  · rw [hx, ← hv]; exact h1
  · rw [he s i hv]; exact h2

/-- A word of any body completes when its body neither waits nor traps. -/
theorem completes_of {word : Instr} {litOk : Issue → Word → Bool} {pick : Issue → List Opd → List Opd} {body : State → Issue → Done}
    {pre : State → Issue → Prop} {st : State → Issue → State} {e : State → Issue → Effect}
    (hx : ∀ s, exec word s = issueWith word.view litOk pick body s)
    (hb : ∀ s i, i.v = word.view → Clear s i litOk (pick i i.ops) → pre s i →
      (body s i).hold = none ∧ (∀ k ∈ i.c.active, (body s i).trap k = none) ∧ (body s i).Apart i ∧
        (body s i).st = st s i ∧ (body s i).effect = e s i) :
    Completes word litOk pick pre st e := by
  intro s i hv h hp
  obtain ⟨hold, trap, ha, hst, he⟩ := hb s i hv h hp
  obtain ⟨s', h1, h2⟩ := issueWith_lands h hold trap ha
  refine ⟨s', ?_, ?_⟩
  · rw [hx, ← hv]; exact h1
  · rw [← hst, ← he]; exact h2

theorem Computes.of_completes {word : Instr} {e : State → Issue → Effect}
    (h : Completes word anyLit (fun _ l => l) (fun _ _ => True) (fun s _ => s) e) : Computes word e :=
  fun s i hv hc => h s i hv hc trivial

end Sys2Proof.Machine
end

