-- ==== Sys2Proof/Laws/Words.lean ====
section
/-! SUPPORT. What a word in hand does when it stalls, waits or traps, said once for every word. -/

namespace Sys2Proof.Machine

open Sys2Proof

/-! ## Groups changed in place -/

theorem State.team?_mapTeam (s : State) (uid : Nat) (f : Team → Team) (hf : ∀ t, (f t).uid = t.uid) :
    (s.mapTeam uid f).team? uid = (s.team? uid).map f := by
  simp only [State.team?, State.mapTeam]
  induction s.teams with
  | nil => rfl
  | cons t l ih =>
    by_cases h : t.uid = uid
    · simp [h, hf]
    · simp [h, ih]

theorem State.team?_mapGroup (s : State) (uid gid : Nat) (f : Group → Group) :
    (s.mapGroup uid gid f).team? uid = (s.team? uid).map fun t => t.mapGroup gid f :=
  s.team?_mapTeam uid _ fun _ => rfl

theorem State.mapTeam_mapTeam (s : State) (uid : Nat) (f h : Team → Team) (hf : ∀ t, (f t).uid = t.uid) :
    (s.mapTeam uid f).mapTeam uid h = s.mapTeam uid fun t => h (f t) := by
  simp only [State.mapTeam, List.map_map]
  congr 1
  apply List.map_congr_left
  intro t _
  by_cases e : t.uid = uid
  · simp [e, hf]
  · simp [e]

theorem State.mapGroup_mapGroup (s : State) (uid gid : Nat) (f h : Group → Group) :
    (s.mapGroup uid gid f).mapGroup uid gid h = s.mapGroup uid gid fun g => h (f g) := by
  show (s.mapTeam uid fun t => t.mapGroup gid f).mapTeam uid (fun t => t.mapGroup gid h) = s.mapTeam uid fun t => t.mapGroup gid fun g => h (f g)
  rw [s.mapTeam_mapTeam uid (fun t => t.mapGroup gid f) _ (fun _ => rfl)]
  congr 1
  funext t
  simp only [Team.mapGroup, List.modify_modify_eq]
  rfl

theorem State.mapGroup_id (s : State) (uid gid : Nat) : s.mapGroup uid gid (fun g => g) = s := by
  have h : ∀ t : Team, (if t.uid = uid then t.mapGroup gid fun g => g else t) = t := by
    intro t
    split
    · show { t with groups := t.groups.modify gid id } = t
      rw [List.modify_id]
    · rfl
  simp only [State.mapGroup, State.mapTeam, h, List.map_id']

/-! ## Traps taken one after another -/

/-- The group after the threads of `ks` have taken their traps. -/
def Group.afterTraps (g : Group) (ks : List Nat) (trapv : DWord) (why : Nat → Nat × Word) (addr : Nat → DWord) (stamp : Nat) :
    Group :=
  { g with threads := g.threads.mapIdx fun k th => if k ∈ ks then Traps trapv (why k).1 (why k).2 (addr k) stamp th else th }

theorem takeTrap_eq {s : State} {uid gid k cause : Nat} {datum : Word} {addr : DWord} {t : Team} {g : Group} {th : Thread}
    (ht : s.team? uid = some t) (hg : t.groups[gid]? = some g) (hth : g.threads[k]? = some th) (hl : th.live = true)
    (hh : th.inHandler = false) (hv : t.hdr.trapv ≠ 0) :
    s.takeTrap uid gid k cause datum addr =
      s.mapGroup uid gid fun g => g.mapThread k (Traps t.hdr.trapv cause datum addr s.nextId) := by
  simp only [State.takeTrap, ht, hg, Option.bind_some, hth, hl, hh, hv, Bool.not_true, Bool.false_eq_true, ↓reduceIte, false_and]
  rfl

theorem foldl_takeTrap (ks : List Nat) (why : Nat → Nat × Word) (addr : Nat → DWord) {s : State} {uid gid : Nat} {t : Team}
    {g : Group} (hn : ks.Nodup) (ht : s.team? uid = some t) (hg : t.groups[gid]? = some g) (hv : t.hdr.trapv ≠ 0)
    (hk : ∀ k ∈ ks, ∃ th, g.threads[k]? = some th ∧ th.live = true ∧ th.inHandler = false) :
    ks.foldl (fun s k => s.takeTrap uid gid k (why k).1 (why k).2 (addr k)) s =
      s.mapGroup uid gid fun g => g.afterTraps ks t.hdr.trapv why addr s.nextId := by
  induction ks generalizing s t g with
  | nil =>
    have : (fun g : Group => g.afterTraps [] t.hdr.trapv why addr s.nextId) = fun g => g := by
      funext g
      have e : (fun (_ : Nat) (th : Thread) => th) = fun (_ : Nat) => id := rfl
      simp only [Group.afterTraps, List.not_mem_nil, ↓reduceIte, e]
      congr 1
      apply List.ext_getElem? ; simp
    rw [this, State.mapGroup_id]; rfl
  | cons k ks ih =>
    obtain ⟨th, h1, h2, h3⟩ := hk k (by simp)
    rw [List.foldl_cons, takeTrap_eq ht hg h1 h2 h3 hv]
    have hn' := List.nodup_cons.1 hn
    rw [ih (t := t.mapGroup gid fun g => g.mapThread k (Traps t.hdr.trapv (why k).1 (why k).2 (addr k) s.nextId))
      (g := g.mapThread k (Traps t.hdr.trapv (why k).1 (why k).2 (addr k) s.nextId)) hn'.2]
    · rw [State.mapGroup_mapGroup]
      congr 1
      funext g
      simp only [Group.afterTraps, Group.mapThread]
      congr 1
      apply List.ext_getElem?
      intro n
      simp only [List.getElem?_mapIdx, List.getElem?_modify]
      cases g.threads[n]? with
      | none => rfl
      | some x =>
        by_cases e : k = n
        · subst e; simp [hn'.1]
        · have : ¬ n = k := fun h => e h.symm
          simp [e, this]; rfl
    · rw [State.team?_mapGroup, ht]; rfl
    · simp [Team.mapGroup, List.getElem?_modify, hg]
    · exact hv
    · intro m hm
      obtain ⟨x, x1, x2, x3⟩ := hk m (by simp [hm])
      have : ¬ k = m := fun h => hn'.1 (h ▸ hm)
      exact ⟨x, by simp [Group.mapThread, List.getElem?_modify, this, x1], x2, x3⟩

/-! ## How a word in hand ends -/

section
variable {s : State} {i : Issue} {litOk : Issue → Word → Bool} {pick : Issue → List Opd → List Opd} {body : State → Issue → Done}

theorem Issuing.eq (h : Issuing s i) : ({ v := i.v, c := i.c, t := i.t, g := i.g, ts := i.c.active, base := s.free } : Issue) = i := by
  rw [← h.threads, ← h.base]

theorem Issuing.run (h : Issuing s i) (v : View) (litOk : Issue → Word → Bool) (pick : Issue → List Opd → List Opd)
    (body : State → Issue → Done) : issueWith v litOk pick body s = .next (runWord v litOk pick body s i.c i.t i.g) := by
  simp only [issueWith, h.cur, h.team, h.group]

theorem Clear.issuing {ops : List Opd} (h : Clear s i litOk ops) : Issuing s i :=
  { cur := h.cur, team := h.team, group := h.group, threads := h.threads, base := h.base, some := h.some, once := h.once }

theorem runWord_clear (h : Clear s i litOk (pick i i.ops)) :
    runWord i.v litOk pick body s i.c i.t i.g = (body s i).finish i (pick i i.ops) [] := by
  have hlit : ¬ (!i.v.legal i.t ∨ (i.v.lit ∧ !litOk i i.c.lit)) := by
    rw [h.legal]; rintro (h' | ⟨h1, h2⟩)
    · cases h'
    · rw [h.literal h1] at h2; cases h2
  have hw : (i.c.active.map fun t => (t, i.check (pick i i.ops) t)).any (fun x => x.2 == .waiting) = false := by
    rw [List.any_eq_false]
    intro x hx
    obtain ⟨k, hk, rfl⟩ := List.mem_map.1 hx
    simp only [h.regs k hk]
    decide
  have he : (i.c.active.map fun t => (t, i.check (pick i i.ops) t)).filterMap (fun x =>
      x.2.trap?.map fun y => ({ thread := x.1, cause := y.1, datum := y.2 } : TrapRec)) = [] := by
    rw [List.filterMap_eq_nil_iff]
    intro x hx
    obtain ⟨k, hk, rfl⟩ := List.mem_map.1 hx
    simp only [h.regs k hk]
    rfl
  simp only [runWord]
  rw [h.issuing.eq, if_neg hlit, h.allowed]
  simp only [Bool.false_eq_true, ↓reduceIte]
  show runBody i (pick i i.ops) body s = _
  rw [runBody]
  simp only [hw, he, Bool.false_eq_true, ↓reduceIte]

theorem exec_clear {word : Instr} (hx : ∀ s, exec word s = issueWith word.view litOk pick body s) (h : InHand word litOk pick s i) :
    exec word s = .next ((body s i).finish i (pick i i.ops) []) := by
  rw [hx, h.2.issuing.run, ← h.1, runWord_clear h.2]

/-- A word that neither waits nor traps ends with what its body says. -/
theorem ends_of {word : Instr} (hx : ∀ s, exec word s = issueWith word.view litOk pick body s) (h : InHand word litOk pick s i)
    {st : State} {e : Effect} (hold : (body s i).hold = none) (trap : ∀ k ∈ i.c.active, (body s i).trap k = none)
    (ha : (body s i).Apart i) (hst : (body s i).st = st) (he : (body s i).effect = e) : Ends word pick s i st e :=
  ⟨_, exec_clear hx h, hst ▸ he ▸ finish_lands _ _ _ h.2.threads h.2.some hold trap ha⟩

/-- A word whose body stalls has begun. -/
theorem stalls_of {word : Instr} (hx : ∀ s, exec word s = issueWith word.view litOk pick body s) (h : InHand word litOk pick s i)
    {st : State} {result : Word} {waitUntil : Nat} (hb : body s i = stallFor st i result waitUntil) :
    Stalls word s i st result waitUntil := by
  rw [Stalls, exec_clear hx h, hb]; rfl

/-- A word whose body is to be tried again stalls without having begun. -/
theorem retries_of {word : Instr} (hx : ∀ s, exec word s = issueWith word.view litOk pick body s) (h : InHand word litOk pick s i)
    {st : State} (hb : body s i = retry st i) : Retries word s i st := by
  rw [Retries, exec_clear hx h, hb]; rfl

/-- A word whose body waits makes its subset wait. -/
theorem waits_of {word : Instr} (hx : ∀ s, exec word s = issueWith word.view litOk pick body s) (h : InHand word litOk pick s i)
    {st : State} {w : Wait} (hb : body s i = waitFor st w) : Waits word s i st w := by
  rw [Waits, exec_clear hx h, hb]; rfl

/-- Traps delivered to the whole subset. -/
theorem deliver_lands {st : State} {t : Team} {g : Group} (why : Nat → Nat × Word) (ht : st.team? i.c.uid = some t)
    (hg : t.groups[i.c.gid]? = some g) (hd : t.hdr.trapv = i.t.hdr.trapv) (hn : i.c.active.Nodup) (hs : i.c.active ≠ [])
    (hv : i.t.hdr.trapv ≠ 0) (hk : ∀ k ∈ i.c.active, ∃ th, g.threads[k]? = some th ∧ th.live = true ∧ th.inHandler = false) :
    TrapLands st (st.deliver i.c (i.c.active.map fun k => { thread := k, cause := (why k).1, datum := (why k).2 })) i why := by
  have hne : (i.c.active.map fun k => ({ thread := k, cause := (why k).1, datum := (why k).2 } : TrapRec)) ≠ [] := by simpa using hs
  refine ⟨st.nextId, ?_⟩
  simp only [State.deliver, if_neg hne, List.foldl_map]
  have h1 : (st.servedFails i.c.uid i.c.gid i.c.setPc).team? i.c.uid =
      some (t.mapGroup i.c.gid fun g => if g.parkPc = i.c.setPc then { g with failed := [] } else g) := by
    rw [State.servedFails, State.team?_mapGroup, ht]; rfl
  have h2 : (t.mapGroup i.c.gid fun g => if g.parkPc = i.c.setPc then { g with failed := [] } else g).groups[i.c.gid]? =
      some (if g.parkPc = i.c.setPc then { g with failed := [] } else g) := by
    simp [Team.mapGroup, List.getElem?_modify, hg]
  have h3 := foldl_takeTrap i.c.active why (fun k => i.c.trapPc (why k).1) hn h1 h2 (by rw [← hd] at hv; exact hv)
    (by
      intro k hk'
      obtain ⟨th, x⟩ := hk k hk'
      refine ⟨th, ?_, x.2⟩
      split <;> exact x.1)
  rw [h3, State.servedFails, State.mapGroup_mapGroup]
  have e : (fun g : Group => (if g.parkPc = i.c.setPc then { g with failed := [] } else g).afterTraps i.c.active
      (t.mapGroup i.c.gid fun g => if g.parkPc = i.c.setPc then { g with failed := [] } else g).hdr.trapv why
      (fun k => i.c.trapPc (why k).1) (st.mapGroup i.c.uid i.c.gid fun g => if g.parkPc = i.c.setPc then { g with failed := [] } else g).nextId)
      = fun g => { g with
          threads := g.threads.mapIdx fun k th =>
            if i.c.active.contains k then
              Traps i.t.hdr.trapv (why k).1 (why k).2 (if reported (why k).1 then i.c.pc else i.c.setPc) st.nextId th
            else th,
          failed := if g.parkPc = i.c.setPc then [] else g.failed } := by
    funext g
    rw [← hd]
    simp only [Group.afterTraps, List.contains_iff_mem]
    split <;> rfl
  rw [e]

theorem complete_nil (d : Done) (i : Issue) (ops : List Opd) (late : List TrapRec) :
    d.complete i ops [] late [] = ({ d.st with nextId := d.st.nextId + 1 } : State).deliver i.c late := by
  have hg : d.group i.v.u ops i.c.pc i.c.setPc d.st.nextId [] = fun g => g := by
    funext g; simp [Done.group]
  simp only [Done.complete, ↓reduceIte, List.nil_append, hg, State.mapGroup_id]

/-- A word whose body traps every running thread. -/
theorem finish_traps (d : Done) (ops : List Opd) (why : Nat → Nat × Word) {t : Team} {g : Group} (h : i.ts = i.c.active)
    (hold : d.hold = none)
    (trap : ∀ k ∈ i.c.active, (i.v.u = true → d.each = false → k = i.first) → d.trap k = some (why k)) (hu : i.v.u = true → d.each = false → ∀ j k, why j = why k)
    (ht : d.st.team? i.c.uid = some t) (hg : t.groups[i.c.gid]? = some g) (hd : t.hdr.trapv = i.t.hdr.trapv)
    (hn : i.c.active.Nodup) (hs : i.c.active ≠ []) (hv : i.t.hdr.trapv ≠ 0)
    (hk : ∀ k ∈ i.c.active, ∃ th, g.threads[k]? = some th ∧ th.live = true ∧ th.inHandler = false) :
    TrapLands d.st (d.finish i ops []) i why := by
  have hfirst : i.first ∈ i.c.active := by
    rw [Issue.first, h]; cases hc : i.c.active with
    | nil => exact absurd hc hs
    | cons x _ => simp
  have hlate : d.late i = i.c.active.map fun k => { thread := k, cause := (why k).1, datum := (why k).2 } := by
    rw [Done.late]
    split
    · rename_i hx
      rw [trap _ hfirst fun _ _ => rfl]
      simp only [Cur.allTraps]
      apply List.map_congr_left
      intro k _
      rw [hu hx.1 (by simpa using hx.2) i.first k]
    · rename_i hx
      rw [h]
      have e : ∀ l : List Nat, (∀ k ∈ l, d.trap k = some (why k)) →
          (l.filterMap fun t => (d.trap t).map fun x => ({ thread := t, cause := x.1, datum := x.2 } : TrapRec)) =
            l.map fun k => { thread := k, cause := (why k).1, datum := (why k).2 } := by
        intro l hl
        induction l with
        | nil => rfl
        | cons k l ih =>
          rw [List.filterMap_cons, hl k (by simp), List.map_cons, ← ih fun m hm => hl m (by simp [hm])]
          rfl
      exact e _ fun k hk => trap k hk fun h1 h2 => absurd ⟨h1, by simp [h2]⟩ hx
  have hok : (i.ts.filter fun t => !((d.late i).any fun x => x.thread == t)) = [] := by
    rw [hlate, h, List.filter_eq_nil_iff]
    intro k hk
    simp only [Bool.not_eq_true, Bool.not_eq_false', List.any_map, List.any_eq_true]
    exact ⟨k, hk, by simp⟩
  have he : d.finish i ops [] = d.complete i ops [] (d.late i) [] := by
    simp only [Done.finish, hold]; rw [hok]
  rw [he, complete_nil, hlate]
  obtain ⟨stamp, h1⟩ := deliver_lands (i := i) (st := { d.st with nextId := d.st.nextId + 1 }) why (t := t) (g := g) ht hg hd hn hs hv hk
  exact ⟨stamp, h1⟩

/-- The same for a word in hand. -/
theorem traps_of {word : Instr} (hx : ∀ s, exec word s = issueWith word.view litOk pick body s) (h : InHand word litOk pick s i)
    (hc : CanTrap i) (why : Nat → Nat × Word) (hold : (body s i).hold = none)
    (trap : ∀ k ∈ i.c.active, (i.v.u = true → (body s i).each = false → k = i.first) → (body s i).trap k = some (why k))
    (hu : i.v.u = true → (body s i).each = false → ∀ j k, why j = why k) {t : Team} {g : Group}
    (ht : (body s i).st.team? i.c.uid = some t) (hg : t.groups[i.c.gid]? = some g) (hd : t.hdr.trapv = i.t.hdr.trapv)
    (hk : ∀ k : Nat, g.threads[k]? = i.g.threads[k]?) : ∃ s', exec word s = .next s' ∧ TrapLands (body s i).st s' i why :=
  ⟨_, exec_clear hx h, finish_traps _ _ why h.2.threads hold trap hu ht hg hd h.2.once h.2.some hc.1
    fun k hk' => by rw [hk k]; exact hc.2 k hk'⟩

/-! ## The plainest ends -/

theorem apart_nothing (st : State) (i : Issue) : (nothing st).Apart i :=
  { thread := by simp [nothing], accs := by simp [nothing], group := by cases i.v.u <;> simp [nothing] }

/-- A word that changes nothing in its group but the PC. -/
theorem ends_nothing {word : Instr} (hx : ∀ s, exec word s = issueWith word.view litOk pick body s) (h : InHand word litOk pick s i)
    {st : State} (hb : body s i = nothing st) : Ends word pick s i st {} :=
  ends_of hx h (by rw [hb]; rfl) (by rw [hb]; intro _ _; rfl) (by rw [hb]; exact apart_nothing st i) (by rw [hb]; rfl) (by rw [hb]; rfl)

/-- A word that writes registers. -/
theorem ends_out {word : Instr} (hx : ∀ s, exec word s = issueWith word.view litOk pick body s) (h : InHand word litOk pick s i)
    {st : State} {out : Nat → List (Nat × Word)} (hb : body s i = { nothing st with res := out })
    (hn : ∀ k, ((out k).map (·.1)).Nodup) : Ends word pick s i st { out := out } :=
  ends_of hx h (by rw [hb]; rfl) (by rw [hb]; intro _ _; rfl)
    (by rw [hb]; exact { thread := by simp [nothing, hn], accs := by simp [nothing], group := by cases i.v.u <;> simp [nothing, hn] })
    (by rw [hb]; rfl) (by rw [hb]; rfl)

/-- A word that leaves registers EMPTY for its flights. -/
theorem ends_pend {word : Instr} (hx : ∀ s, exec word s = issueWith word.view litOk pick body s) (h : InHand word litOk pick s i)
    {st : State} {pend : Nat → List (Nat × Nat)} (hb : body s i = { nothing st with pend := pend, trap := (body s i).trap })
    (trap : ∀ k ∈ i.c.active, (body s i).trap k = none) (hn : ∀ k ∈ i.c.active, ((pend k).map (·.1)).Nodup) :
    Ends word pick s i st { pend := pend } := by
  have hf : i.first ∈ i.c.active := by
    rw [Issue.first, h.2.threads]
    cases hc : i.c.active with
    | nil => exact absurd hc h.2.some
    | cons x _ => simp
  refine ends_of hx h (by rw [hb]; rfl) trap ?_ (by rw [hb]; rfl) (by rw [hb]; rfl)
  rw [hb]
  exact { thread := fun k hk => by simp [nothing, hn k hk], accs := by simp [nothing],
          group := by cases i.v.u <;> simp [nothing, hn _ hf] }

/-- A command is queued, or tried again, as its counter and the acquires before it say. -/
theorem queues_of {word : Instr} {cls : Nat} {pre : State → Issue → Prop} {op : State → Issue → EngOp}
    (hx : ∀ s, exec word s = issueWith word.view litOk pick body s)
    (hb : ∀ s i, i.v = word.view → pre s i →
      body s i = if 255 ≤ s.counter i.c.uid i.c.gid cls ∨ s.acquiring i = true then retry s i else nothing (s.addOp (op s i))) :
    Queues word litOk pick cls pre op :=
  fun s i h hp => ⟨fun hc ha => ends_nothing hx h (by rw [hb s i h.1 hp, if_neg (by simp [Nat.not_le.2 hc, ha])]; rfl),
    fun hf => retries_of hx h (by rw [hb s i h.1 hp, if_pos hf])⟩

/-- Every word but an operation of the device is issued in the same way. -/
theorem exec_word (word : Instr) (h : word.view ≠ .event) :
    ∃ body, ∀ s, exec word s = issueWith word.view (literalOk word) (operandsOf word) body s := by
  cases word
  all_goals first
    | exact ⟨_, fun _ => rfl⟩
    | exact absurd rfl h

end

end Sys2Proof.Machine
end

