-- ==== Sys2Proof/Laws/Access.lean ====
section
/-! SUPPORT. Checks that pass, accesses on their way, and the ends of the words that make them. -/

namespace Sys2Proof.Machine

open Sys2Proof

/-! ## Checks -/

/-- A release that need not wait goes on. -/
theorem releaseWord_eq {s : State} {i : Issue} {cls : ScopeClass} (h : MayRelease s i cls) (k : Done) : releaseWord i s cls k = k := by
  simp only [MayRelease] at h
  simp only [releaseWord, h, ↓reduceIte]

theorem single_nodup (d : Nat) (x : Word) : ∀ k : Nat, (((fun _ : Nat => [(d, x)]) k).map (·.1)).Nodup := by intro k; simp

theorem isNone_of_isSome {α} {x : Option α} (h : x.isSome = true) : x.isNone = false := by cases x <;> simp_all

theorem refTarget_eq (s : State) (i : Issue) (u : Bool) (w : Word) : s.refLatch i.t (refOf u w) = refTarget s i u w := by
  cases u <;> rfl

theorem refOk_legal {s : State} {i : Issue} {u : Bool} {w : Word} (h : RefOk s i u w) : ((refOf u w).map refIllegal).getD false = false := by
  cases u
  · rfl
  · exact (h rfl).1

theorem refOk_refBad {s : State} {i : Issue} {u : Bool} {w : Word} (h : RefOk s i u w) : s.refBad i.t (refOf u w) = false := by
  cases u
  · rfl
  · exact isNone_of_isSome (h rfl).2

/-- Checks that all pass. -/
theorem checked_eq {s : State} {l : List (Bool × Nat × Word)} {k : Done} (h : ∀ x ∈ l, x.1 = false) : checked s l k = k := by
  have : firstTrap l = none := by
    simp only [firstTrap, List.findSome?_eq_none_iff]
    intro x hx; simp [h x hx]
  simp only [checked, this]

/-- A command its counter has room for. -/
theorem command_eq {i : Issue} {s : State} {cls : Nat} {lat : Option LatchTarget} {cnt : Bool} {stage : Stage} {body : OpBody}
    (h : s.counter i.c.uid i.c.gid cls < 255) (ha : s.acquiring i = false) :
    command i s cls lat cnt stage body = nothing (s.addOp (i.op s cls lat cnt stage body)) := by
  simp only [command, Nat.not_le.2 h, ha, Bool.false_eq_true, or_self, ↓reduceIte]

/-- A command that has no room, or an acquire before it, is tried again. -/
theorem command_full {i : Issue} {s : State} {cls : Nat} {lat : Option LatchTarget} {cnt : Bool} {stage : Stage} {body : OpBody}
    (h : 255 ≤ s.counter i.c.uid i.c.gid cls ∨ s.acquiring i = true) : command i s cls lat cnt stage body = retry s i := by
  rw [command, if_pos h]

theorem Issuing.first_mem {s : State} {i : Issue} (h : Issuing s i) : i.first ∈ i.c.active := by
  rw [Issue.first, h.threads]
  cases hc : i.c.active with
  | nil => exact absurd hc h.some
  | cons x _ => simp

theorem bne_zero {n : Nat} {x : BitVec n} (h : x = 0) : (x != 0) = false := by subst h; simp

theorem range_add_nodup (d n : Nat) : ((List.range n).map fun k => d + k).Nodup := by
  rw [List.Nodup, List.pairwise_map]
  exact List.Pairwise.imp (fun h h' => h (by simpa using h')) List.nodup_range

theorem flatMap_nodup (l : List Flight) (d n : Nat) (h : l.length ≤ 1) :
    ((l.flatMap fun f => (List.range n).map fun k => (d + k, f.id)).map (·.1)).Nodup := by
  cases l with
  | nil => simp
  | cons f l =>
    cases l with
    | cons _ _ => simp only [List.length_cons] at h; omega
    | nil =>
      simp only [List.flatMap_cons, List.flatMap_nil, List.append_nil, List.map_map]
      exact range_add_nodup d n

theorem map_mapIdx {α β γ} (l : List α) (f : Nat → α → β) (g : β → γ) (h : α → γ) (e : ∀ n x, g (f n x) = h x) :
    (l.mapIdx f).map g = l.map h := by
  apply List.ext_getElem?
  intro n
  simp only [List.getElem?_map, List.getElem?_mapIdx, Option.map_map]
  congr 1
  funext x; exact e n x

theorem filter_short (l : List Flight) (k : Nat) (h : (l.map (·.thread)).Nodup) : (l.filter fun f => f.thread == k).length ≤ 1 := by
  induction l with
  | nil => simp
  | cons f l ih =>
    simp only [List.map_cons, List.nodup_cons] at h
    rw [List.filter_cons]
    split
    · rename_i e
      have : l.filter (fun f => f.thread == k) = [] := by
        rw [List.filter_eq_nil_iff]
        intro g hg hh
        apply h.1
        rw [List.mem_map]
        exact ⟨g, hg, by simp at hh e; rw [hh, e]⟩
      rw [this]; simp
    · exact ih h.2

theorem pendRegs_nodup_of (fl : List Flight) (u : Bool) (d n k : Nat) (hu : u = true → fl.length ≤ 1) (h : (fl.map (·.thread)).Nodup) :
    ((pendRegs fl u d n k).map (·.1)).Nodup := by
  rw [pendRegs]
  apply flatMap_nodup
  cases u
  · simpa using filter_short fl k h
  · exact Nat.le_trans (List.length_filter_le _ _) (hu rfl)

theorem Issuing.runners_nodup {s : State} {i : Issue} (h : Issuing s i) : i.runners.Nodup := by
  rw [Issue.runners]; split
  · simp
  · rw [h.threads]; exact h.once

theorem runners_uniform {i : Issue} (h : i.v.u = true) : i.runners.length = 1 := by rw [Issue.runners, if_pos h]; rfl

/-! ## Cores -/

/-- A core after one core of its cluster has changed. -/
theorem State.core_mapCore (s : State) (cl n m : Nat) (f : Core → Core) (hf : ∀ c, (f c).cl = c.cl ∧ (f c).num = c.num) :
    (s.mapCore cl n f).core cl m = if m = n then f (s.core cl m) else s.core cl m := by
  have key : ∀ l : List Core, (l.map fun c => if c.cl = cl ∧ c.num = n then f c else c).find? (fun c => c.cl == cl && c.num == m) =
      (l.find? fun c => c.cl == cl && c.num == m).map fun c => if m = n then f c else c := by
    intro l
    induction l with
    | nil => rfl
    | cons c l ih =>
      simp only [List.map_cons]
      by_cases h1 : c.cl = cl ∧ c.num = n
      · obtain ⟨rfl, rfl⟩ := h1
        by_cases h2 : m = c.num
        · subst h2; simp [hf]
        · have : ¬ c.num = m := fun h => h2 h.symm
          simp only [and_self, ↓reduceIte]
          rw [List.find?_cons_of_neg (by simp [hf, this]), List.find?_cons_of_neg (by simp [this]), ih]
      · rw [if_neg h1]
        by_cases h2 : c.cl = cl ∧ c.num = m
        · obtain ⟨rfl, rfl⟩ := h2
          have : ¬ c.num = n := fun h => h1 ⟨rfl, h⟩
          have h3 : ¬ n = c.num := fun h => this h.symm
          simp [this]
        · rw [List.find?_cons_of_neg (by simpa using h2), List.find?_cons_of_neg (by simpa using h2), ih]
  simp only [State.core, State.mapCore]
  split
  · rename_i ha
    rw [key]
    cases hc : s.cores.find? (fun c => c.cl == cl && c.num == m) with
    | some c => rfl
    | none =>
      simp only [Option.map_none, Option.getD_none]
      split
      · rename_i e; subst e
        rw [List.find?_eq_none] at hc
        rw [List.any_eq_true] at ha
        obtain ⟨c, h1, h2⟩ := ha
        exact absurd h2 (hc c h1)
      · rfl
  · rename_i ha
    rw [List.find?_append]
    cases hc : s.cores.find? (fun c => c.cl == cl && c.num == m) with
    | some c =>
      simp only [Option.some_or, Option.getD_some]
      split
      · rename_i e; subst e
        exact absurd (List.any_eq_true.2 ⟨c, List.mem_of_find?_eq_some hc, by have := List.find?_some hc; exact this⟩) ha
      · rfl
    | none =>
      by_cases e : m = n
      · subst e
        simp only [Option.none_or, Option.getD_none, ↓reduceIte]
        rw [List.find?_cons_of_pos (by simp [hf, Core.idle])]; rfl
      · have : ¬ n = m := fun h => e h.symm
        simp only [Option.none_or, Option.getD_none, e, ↓reduceIte]
        rw [List.find?_cons_of_neg (by simp [hf, Core.idle, this])]; rfl

/-- One L1 emptied. -/
def State.emptyL1 (cl : Nat) (s : State) (c : Nat) : State := if (s.core cl c).l1 = [] then s else s.mapCore cl c fun c => { c with l1 := [] }

theorem State.emptyL1_l1 (cl : Nat) (s : State) (c m : Nat) : ((State.emptyL1 cl s c).core cl m).l1 = if m = c then [] else (s.core cl m).l1 := by
  rw [State.emptyL1]
  split
  · split
    · rename_i h e; rw [e, h]
    · rfl
  · rw [State.core_mapCore _ _ _ _ _ (by intro c; exact ⟨rfl, rfl⟩)]
    split
    · rfl
    · rfl

theorem State.emptyL1_cores (cl : Nat) (s : State) (c : Nat) : State.emptyL1 cl s c = { s with cores := (State.emptyL1 cl s c).cores } := by
  rw [State.emptyL1]; split
  · rfl
  · rw [State.mapCore]; split <;> rfl

/-- L1s emptied one after the other. -/
theorem State.foldl_emptyL1 (cl : Nat) (l : List Nat) (s : State) :
    (∀ m, (m ∈ l ∨ (s.core cl m).l1 = []) → ((l.foldl (State.emptyL1 cl) s).core cl m).l1 = []) ∧ l.foldl (State.emptyL1 cl) s = { s with cores := (l.foldl (State.emptyL1 cl) s).cores } := by
  induction l generalizing s with
  | nil => refine ⟨fun m h => ?_, rfl⟩; simpa using h
  | cons c l ih =>
    obtain ⟨h1, h2⟩ := ih (State.emptyL1 cl s c)
    refine ⟨fun m h => ?_, ?_⟩
    · apply h1
      by_cases e : m = c
      · right; rw [State.emptyL1_l1, if_pos e]
      · rw [List.mem_cons] at h
        rcases h with (h | h) | h
        · exact absurd h e
        · exact .inl h
        · right; rw [State.emptyL1_l1, if_neg e]; exact h
    · rw [List.foldl_cons, h2]
      have e := State.emptyL1_cores cl s c
      generalize State.emptyL1 cl s c = s1 at *
      rw [e]

/-- Only what the caches hold has changed, and which flights an L1 copy shows. -/
structure State.OnlyCached (s s' : State) : Prop where
  rest : s' = { s with cores := s'.cores, sectors := s'.sectors, tlb := s'.tlb, free := s'.free, flights := s'.flights }
  flights : s'.flights.map (fun f => { f with seen := true }) = s.flights.map fun f => { f with seen := true }

theorem State.OnlyCached.trans {a b c : State} (h1 : State.OnlyCached a b) (h2 : State.OnlyCached b c) : State.OnlyCached a c :=
  ⟨by rw [h2.rest, h1.rest], h2.flights.trans h1.flights⟩

theorem State.OnlyCached.refl (s : State) : State.OnlyCached s s := ⟨rfl, rfl⟩

theorem State.onlyCached_mapCore (s : State) (cl n : Nat) (f : Core → Core) : State.OnlyCached s (s.mapCore cl n f) := by
  rw [State.mapCore]; split <;> exact ⟨rfl, rfl⟩

theorem State.onlyCached_setTimes (s : State) (t : SectorTimes) : State.OnlyCached s (s.setTimes t) := ⟨rfl, rfl⟩

theorem State.onlyCached_free (s : State) (n : Nat) : State.OnlyCached s { s with free := n } := ⟨rfl, rfl⟩

theorem State.onlyCached_seen (s : State) (p : Flight → Bool) :
    State.OnlyCached s { s with flights := s.flights.map fun f => if p f then { f with seen := true } else f } := by
  refine ⟨rfl, ?_⟩
  simp only [List.map_map]
  refine List.map_congr_left fun f _ => ?_
  by_cases h : p f <;> simp [h]

theorem State.onlyCached_l1Put (s : State) (cl core : Nat) (x : L1Sector) : State.OnlyCached s (s.l1Put cl core x) := by
  rw [State.l1Put]; split
  · exact State.onlyCached_mapCore _ _ _ _
  · exact (State.onlyCached_mapCore _ _ _ _).trans (State.onlyCached_free _ _)

theorem State.onlyCached_l1Grant (s : State) (cl core lease sec : Nat) : State.OnlyCached s (s.l1Grant cl core lease sec) := by
  rw [State.l1Grant]; split
  · exact .refl _
  · exact ((State.onlyCached_l1Put _ _ _ _).trans (State.onlyCached_setTimes _ _)).trans (State.onlyCached_seen _ _)

theorem State.onlyCached_tlbFill (s : State) (e : TlbEntry) : State.OnlyCached s (s.tlbFill e) := by
  rw [State.tlbFill]; split <;> exact ⟨rfl, rfl⟩

theorem State.onlyCached_prefetchLine (s : State) (i : Issue) (t : Nat) (va : DWord) : State.OnlyCached s (s.prefetchLine i t va) := by
  simp only [State.prefetchLine]
  split
  · exact .refl _
  · split
    · split
      · exact (State.onlyCached_tlbFill _ _).trans (State.onlyCached_l1Grant _ _ _ _ _)
      · exact State.onlyCached_tlbFill _ _
    · exact .refl _

theorem State.onlyCached_prefetch (l : List Nat) (s : State) (i : Issue) (a : Nat) : State.OnlyCached s (l.foldl (fun s t => s.prefetchLine i t (i.rd2 t a)) s) := by
  induction l generalizing s with
  | nil => exact .refl _
  | cons c l ih => exact (State.onlyCached_prefetchLine s i c _).trans (ih _)

theorem and_not_of_imp {a b : Bool} (h : a = true → b = true) : (a && !b) = false := by cases a <;> simp_all

theorem copyCommand_eq {i : Issue} {s : State} {lat : Option LatchTarget} {cnt : Bool} {stage : Stage} {body : OpBody}
    (h : s.counter i.c.uid i.c.gid 0 < 255) (ha : s.acquiring i = false) (hq : (s.copyQueue i.t.cl (i.t.coreOf i.c.gid)).length < 64) :
    copyCommand i s lat cnt stage body = nothing (s.addOp (i.op s 0 lat cnt stage body)) := by
  simp only [copyCommand, if_neg (Nat.not_le.2 hq), command_eq h ha]


/-! ## Effects that agree -/

/-- Two effects agree on the running threads of a word. -/
def Effect.Agree (e e' : Effect) (i : Issue) : Prop :=
  (∀ k ∈ i.c.active, e.out k = e'.out k ∧ e.pend k = e'.pend k ∧ e.acc k = e'.acc k ∧ e.flags k = e'.flags k ∧
    e.goto k = e'.goto k ∧ e.edit k = e'.edit k) ∧ e.gout = e'.gout ∧ e.quiet = e'.quiet

theorem Effect.Agree.group {e e' : Effect} {i : Issue} (h : e.Agree e' i) (hf : i.first ∈ i.c.active) (ops : List Opd) (stamp : Nat)
    (held : List Word) (helds : Nat → List Word) (g : Group) :
    e.group i ops stamp held helds g = e'.group i ops stamp held helds g := by
  obtain ⟨h1, h2, h3⟩ := h
  obtain ⟨o, p, -⟩ := h1 _ hf
  have ht : (fun k th => if i.c.active.contains k then e.thread i.v.u (freesOf ops) i.c.pc stamp k (helds k) th else th) =
      fun k th => if i.c.active.contains k then e'.thread i.v.u (freesOf ops) i.c.pc stamp k (helds k) th else th := by
    funext k th
    split
    · rename_i hk
      obtain ⟨a1, a2, a3, a4, a5, a6⟩ := h1 k (by simpa using hk)
      simp only [Effect.thread, a1, a2, a3, a4, a5, a6, h3]
    · rfl
  simp only [Effect.group, o, p, h2, ht]

theorem Ends.agree {word : Instr} {pick : Issue → List Opd → List Opd} {s st : State} {i : Issue} {e e' : Effect}
    (h : Ends word pick s i st e) (ha : e.Agree e' i) (hf : i.first ∈ i.c.active) : Ends word pick s i st e' := by
  obtain ⟨s', h1, f, held, helds, h2, h3⟩ := h
  exact ⟨s', h1, f, held, helds, fun g => (h2 g).trans (ha.group hf _ _ _ _ _), h3⟩

/-! ## Words that compute -/

/-- A word whose threads compute. -/
theorem computes_of_compute {word : Instr} {f : Issue → Nat → List (Nat × Word) × Word} {e : State → Issue → Effect}
    (hx : ∀ s, exec word s = issueWord word.view (compute f) s) (hd : ∀ i k, ((f i k).1.map (·.1)).Nodup)
    (he : ∀ s i, i.v = word.view → i.ts = i.c.active → (compute f s i).effect = e s i) : Computes word e := by
  intro s i hv h
  have := ends_of (word := word) (litOk := anyLit) (pick := asIs) (body := compute f) (st := s) (e := e s i) hx ⟨hv, h⟩ rfl (fun _ _ => rfl)
    { thread := fun k _ => by simpa [compute, nothing] using hd i k
      accs := fun _ => by simp [compute, nothing]
      group := by cases i.v.u <;> simp [compute, nothing, hd] } rfl (he s i hv h.threads)
  exact this

/-- A word that does something outside its group too. -/
theorem completes_of_body {word : Instr} {litOk pick body pre st e} (hx : ∀ s, exec word s = issueWith word.view litOk pick body s)
  (h : ∀ s i, InHand word litOk pick s i → pre s i → (body s i).hold = none ∧ (∀ k ∈ i.c.active, (body s i).trap k = none) ∧ (body s i).Apart i ∧ (body s i).st = st s i ∧ (body s i).effect = e s i) :
   Completes word litOk pick pre st e := by
  intro s i hv hc hp
  obtain ⟨h1, h2, h3, h4, h5⟩ := h s i ⟨hv, hc⟩ hp
  exact ends_of hx ⟨hv, hc⟩ h1 h2 h3 h4 h5

/-- A word that acts in its group alone. -/
theorem computes_of_body {word : Instr} {body e} (hx : ∀ s, exec word s = issueWith word.view anyLit asIs body s)
  (h : ∀ s i, InHand word anyLit asIs s i → (body s i).hold = none ∧ (∀ k ∈ i.c.active, (body s i).trap k = none) ∧ (body s i).Apart i ∧ (body s i).st = s ∧ (body s i).effect = e s i) :
   Computes word e := by
  intro s i hv hc
  obtain ⟨h1, h2, h3, h4, h5⟩ := h s i ⟨hv, hc⟩
  exact ends_of hx ⟨hv, hc⟩ h1 h2 h3 h4 h5

theorem apart_res (st : State) (i : Issue) (r : Nat → List (Nat × Word)) (f g h q l m e) (hr : ∀ k, ((r k).map (·.1)).Nodup) : 
  ({ nothing st with res := r, flags := f, trap := g, jump := h, quiet := q, edit := l, each := e, hold := m } : Done).Apart i :=
    { thread := fun k _ => by simpa [nothing] using hr k
      accs := fun _ => by simp [nothing]
      group := by cases i.v.u <;> simp [nothing, hr] }

theorem apart_acc (st : State) (i : Issue) (f : BitVec 6) (a : Nat → LongAcc) (g) : 
  ({ nothing st with acc := fun t => accOf f (a t), flags := g } : Done).Apart i :=
    { thread := fun k _ => by simp [nothing]
      accs := fun _ => by simp [nothing, accOf]
      group := by cases i.v.u <;> simp [nothing] }

theorem pairOf_nodup (d : Nat) (x : DWord) : ((pairOf d x).map (·.1)).Nodup := by simp [pairOf]

theorem ends_gives {s : State} {i : Issue} {litOk} {pick : Issue → List Opd → List Opd} {body : State → Issue → Done} {word : Instr} (hx : ∀ s, exec word s = issueWith word.view litOk pick body s)
    (h : InHand word litOk pick s i) {st : State} {d : Nat} {x : Word} (hb : body s i = { nothing st with res := fun _ => [(d, x)] }) :
    Ends word pick s i st { out := fun _ => [(d, x)] } := ends_out hx h hb (single_nodup _ _)


/-! ## Accesses -/

section
variable {s : State} {i : Issue}

theorem memOffset_eq (w : MEM) (lit : Word) (size : Nat) :
    memOffset w lit size = if w.l then lit.signExtend 64 else w.o.signExtend 64 * BitVec.ofNat 64 size := rfl

/-- A global access whose checks pass goes on. -/
theorem globalWord_passes {va : Nat → DWord} {size : Nat} {acc : AccessKind} {atom : AtomKind} (h : Passes s i va size acc atom)
    (k : State → List Hit → Done) : ∃ f, (∀ t, f t = none) ∧ globalWord i s va size acc atom k =
      { k (s.translated atom (s.checks i va size acc atom)) (hitsOf (s.checks i va size acc atom)) with trap := f } := by
  refine ⟨fun t => ((s.checks i va size acc atom).find? fun x => x.1 == t).bind fun x =>
          match x.2 with
          | .trap c d => some (c, d)
          | _ => none, ?_, ?_⟩
  · intro t
    simp only []
    cases hf : (s.checks i va size acc atom).find? fun x => x.1 == t with
    | none => rfl
    | some x =>
      obtain ⟨pa, bits, e, hx⟩ := h.2 x (List.mem_of_find?_eq_some hf)
      simp only [Option.bind_some, hx]
  · have hp : (s.checks i va size acc atom).filterMap (fun x =>
      match x.2 with
      | .park a kind level => some ({ va := a, kind := kind, level := level, tagged := i.hypOf x.1 != 0 } : Blocked)
      | _ => none) = [] := by
      rw [List.filterMap_eq_nil_iff]
      intro x hx
      obtain ⟨pa, bits, e, hx⟩ := h.2 x hx
      rw [hx]
    rw [globalWord, h.1]
    rw [if_neg (by decide)]
    show (if _ then _ else _) = _
    rw [if_neg (fun h => h hp)]
    all_goals rfl

/-- A scratchpad access whose checks pass goes on. -/
theorem spWord_passes {va : Nat → Word} {size : Nat} (h : SpPasses s i va size)
    (k : State → List SpHit → Done) : ∃ f, (∀ t, f t = none) ∧ spWord i s va size k = { k s (spHits s i va size) with trap := f } := by
  refine ⟨fun t => ((s.spChecks i va size).find? fun x => x.1 == t).bind fun x => x.2.getRight?, ?_, ?_⟩
  · intro t
    simp only []
    cases hf : (s.spChecks i va size).find? fun x => x.1 == t with
    | none => rfl
    | some x =>
      obtain ⟨y, hx⟩ := h.2 x (List.mem_of_find?_eq_some hf)
      simp only [Option.bind_some, hx]; rfl
  · rw [spWord, h.1]; rfl

/-- Each running thread makes at most one access. -/
theorem hits_runners (va : Nat → DWord) (size : Nat) (acc : AccessKind) (atom : AtomKind) :
    ((hitsOf (s.checks i va size acc atom)).map (·.t)).Sublist i.runners := by
  rw [State.checks]
  generalize i.runners = l
  induction l with
  | nil => exact .slnil
  | cons x l ih =>
    rw [List.map_cons, hitsOf, List.filterMap_cons]
    simp only []
    split
    · rename_i h1
      exact .cons _ ih
    · rename_i b h1
      split at h1
      · cases h1
        exact ih.cons_cons x
      · cases h1

theorem checkSp_t {a : Word} {size t : Nat} {y : SpHit} (h : s.checkSp i a size t = .inl y) : y.t = t := by
  rw [State.checkSp] at h
  split at h
  · cases h
  · split at h
    · cases h
    · split at h
      · cases h
      · split at h
        · cases h
        · cases h; rfl

theorem sp_runners (va : Nat → Word) (size : Nat) : ((spHits s i va size).map (·.t)).Sublist i.runners := by
  rw [spHits, State.spChecks]
  generalize i.runners = l
  induction l with
  | nil => exact .slnil
  | cons x l ih =>
    rw [List.map_cons, List.filterMap_cons]
    simp only []
    split
    · exact .cons _ ih
    · rename_i b h1
      have : s.checkSp i (va x) size x = .inl b := by
        cases hc : s.checkSp i (va x) size x with
        | inl y => rw [hc] at h1; simpa using h1
        | inr y => rw [hc] at h1; cases h1
      rw [List.map_cons, checkSp_t this]
      exact ih.cons_cons x

theorem pendRegs_nodup (hi : Issuing s i) (fl : List Flight) (hs : (fl.map (·.thread)).Sublist i.runners) (d n k : Nat) :
    ((pendRegs fl i.v.u d n k).map (·.1)).Nodup := by
  apply pendRegs_nodup_of
  · intro hu
    have := hs.length_le
    rw [runners_uniform hu, List.length_map] at this; exact this
  · exact hs.nodup (Issuing.runners_nodup hi)

theorem pendAcc_nodup (fl : List Flight) (d k : Nat) : ((i.pendAcc fl d k).map (·.1)).Nodup := by
  rw [Issue.pendAcc]
  cases fl.find? fun f => f.thread == k <;> simp

variable {litOk : Issue → Word → Bool} {pick : Issue → List Opd → List Opd} {body : State → Issue → Done}

/-- Nothing, and a trap of no thread. -/
theorem ends_nothing_trap {word : Instr} (hx : ∀ s, exec word s = issueWith word.view litOk pick body s) (h : InHand word litOk pick s i)
    {st : State} {f : Nat → Option (Nat × Word)} (hf : ∀ t, f t = none) (hb : body s i = { nothing st with trap := f }) : Ends word pick s i st {} :=
  ends_nothing hx h (by rw [hb]; have : f = fun _ => none := funext hf; rw [this]; rfl)

theorem ends_pend_trap {word : Instr} (hx : ∀ s, exec word s = issueWith word.view litOk pick body s) (h : InHand word litOk pick s i)
    {st : State} {f : Nat → Option (Nat × Word)} (hf : ∀ t, f t = none) {pend : Nat → List (Nat × Nat)}
    (hb : body s i = { { nothing st with pend := pend } with trap := f }) (hn : ∀ k ∈ i.c.active, ((pend k).map (·.1)).Nodup) : Ends word pick s i st { pend := pend } :=
  ends_pend hx h (by rw [hb]) (by rw [hb]; intro k _; exact hf k) hn

theorem ends_acc_trap {word : Instr} (hx : ∀ s, exec word s = issueWith word.view litOk pick body s) (h : InHand word litOk pick s i)
    {st : State} {f : Nat → Option (Nat × Word)} (hf : ∀ t, f t = none) {acc : Nat → List (Nat × AccCell)}
    (hb : body s i = { { nothing st with acc := acc } with trap := f }) (hn : ∀ k, ((acc k).map (·.1)).Nodup) : Ends word pick s i st { acc := acc } :=
  ends_of hx h (by rw [hb]; rfl) (by rw [hb]; intro k _; exact hf k)
    (by rw [hb]; exact { thread := by simp [nothing], accs := hn, group := by cases i.v.u <;> simp [nothing] }) (by rw [hb]; rfl) (by rw [hb]; rfl)

theorem sendLoads_threads (st : State) (hits : List Hit) (size : Nat) (what : Nat → Nat → Access) (cls : ScopeClass) (acq : Bool) :
    (st.sendLoads i hits size what cls acq).2.map (·.thread) = hits.map (·.t) :=
  map_mapIdx _ (fun k x => i.access _ k x size (what _ k) cls acq) _ _ fun _ _ => rfl

theorem sendWrites_threads (st : State) (hits : List Hit) (size : Nat) (what : Hit → Access) (cls : ScopeClass) (acq : Bool) :
    (st.sendWrites i hits size what cls acq).2.map (·.thread) = hits.map (·.t) :=
  map_mapIdx _ (fun k x => { i.access _ k x size (what x) cls acq with acked := false }) _ _ fun _ _ => rfl

theorem spFlights_threads (hits : List SpHit) (size : Nat) (what : Nat → SpHit → Access) (cls : ScopeClass) (acq : Bool) :
    ((i.spFlights s hits size what cls acq).map (·.2)).map (·.thread) = hits.map (·.t) := by
  rw [List.map_map]
  exact map_mapIdx _ (fun k x => (x, i.spFlight s k x size (what k x) cls acq)) _ _ fun _ _ => rfl

/-- Loads that no buffered store holds up go on. -/
theorem loadWord_eq {st : State} {hits : List Hit} {size : Nat} {what : Nat → Nat → Access} {cls : ScopeClass} {acq : Bool}
    (h : Drained st i ((i.loads st hits size what cls acq).filter (·.direct))) (k : State × List Flight → Done) :
    loadWord i st hits size what cls acq k =
      k ((st.drainFor i ((i.loads st hits size what cls acq).filter (·.direct))).sendLoads i hits size what cls acq) := by
  simp only [Drained] at h
  simp only [loadWord, drainedFirst, h, Bool.false_eq_true, ↓reduceIte]

/-- Writes that no buffered store holds up go on. -/
theorem writeWord_eq {st : State} {hits : List Hit} {size : Nat} {what : Hit → Access} {cls : ScopeClass} {acq : Bool}
    (h : Drained st i (i.writes st hits size what cls acq)) (k : State × List Flight → Done) :
    writeWord i st hits size what cls acq k = k ((st.drainFor i (i.writes st hits size what cls acq)).sendWrites i hits size what cls acq) := by
  simp only [Drained] at h
  simp only [writeWord, drainedFirst, h, Bool.false_eq_true, ↓reduceIte]

/-- Which loads bypass the store buffer does not depend on the state. -/
theorem loads_direct (st st' : State) (hits : List Hit) (size : Nat) (what : Nat → Nat → Access) (cls : ScopeClass) (acq : Bool) :
    (i.loads st hits size what cls acq).map (·.direct) = (i.loads st' hits size what cls acq).map (·.direct) := by
  rw [Issue.loads, Issue.loads,
    map_mapIdx _ (fun k x => i.access st k x size (what st.nextId k) cls acq) _ (fun x => (acq && cls.wide) || i.hypOf x.t != 0) fun _ _ => rfl,
    map_mapIdx _ (fun k x => i.access st' k x size (what st'.nextId k) cls acq) _ (fun x => (acq && cls.wide) || i.hypOf x.t != 0) fun _ _ => rfl]

/-- Loads are on their way after they are sent. -/
theorem sendLoads_onTheirWay {st : State} {hits : List Hit} {size : Nat} {what : Nat → Nat → Access} {cls : ScopeClass} {acq : Bool}
    (hst : st = { s with tlb := st.tlb }) :
    OnTheirWay s i hits ((st.drainFor i ((i.loads st hits size what cls acq).filter (·.direct))).sendLoads i hits size what cls acq) size := by
  refine ⟨map_mapIdx _ (fun k x => i.access _ k x size (what _ k) cls acq) _ _ fun _ _ => rfl, ?_, ?_⟩
  · intro f hf
    refine ⟨List.mem_append.2 (.inr hf), ?_⟩
    simp only [State.sendLoads, Issue.loads, List.mem_mapIdx] at hf
    obtain ⟨n, h1, rfl⟩ := hf
    exact ⟨rfl, rfl, rfl, rfl⟩
  · intro h
    have hd : (i.loads st hits size what cls acq).filter (·.direct) = [] := by
      rw [List.filter_eq_nil_iff]
      intro f hf
      have h1 : f.direct ∈ (i.loads st hits size what cls acq).map (·.direct) := List.mem_map.2 ⟨f, hf, rfl⟩
      rw [loads_direct st (st.drainFor i ((i.loads st hits size what cls acq).filter (·.direct)))] at h1
      obtain ⟨g, hg, hg2⟩ := List.mem_map.1 h1
      rw [← hg2, h g hg]; simp
    rw [hd]
    simp only [State.sendLoads, State.drainFor, List.foldl_nil]
    rw [hst]
    rfl

/-- A plain access keeps translations and nothing else. -/
theorem translated_plain (l : List (Nat × Check)) : s.translated .plain l = { s with tlb := (s.translated .plain l).tlb } := by
  simp only [State.translated, true_or, ↓reduceIte]
  induction l generalizing s with
  | nil => rfl
  | cons x l ih =>
    simp only [List.foldl_cons]
    split
    · rename_i pa bits e _
      rw [ih]
      have : s.tlbFill e = { s with tlb := (s.tlbFill e).tlb } := by rw [State.tlbFill]; split <;> rfl
      generalize s.tlbFill e = s1 at *
      rw [this]
    · exact ih

/-- The address of a scratchpad word. -/
theorem spAddr_eq (w : MEM) (size k : Nat) :
    i.spAddr w size k = i.rd k w.a.toNat + if w.l then i.lit else w.o.signExtend 32 * BitVec.ofNat 32 size := by
  rw [Issue.spAddr, memOffset_eq]
  have ex : ∀ x : DWord, x.extractLsb' 0 32 = x.setWidth 32 := fun x => by
    apply BitVec.eq_of_toNat_eq; simp
  have es : ∀ (n : Nat) (x : BitVec n), n ≤ 32 → (x.signExtend 64).setWidth 32 = x.signExtend 32 := by
    intro n x h
    apply BitVec.eq_of_getElem_eq
    intro k hk
    simp only [BitVec.getElem_setWidth, BitVec.getElem_signExtend, BitVec.getLsbD_signExtend]
    have : k < 64 := by omega
    simp only [this, ↓reduceIte, decide_true, Bool.true_and]
    split
    · rename_i h'; rw [BitVec.getLsbD_eq_getElem h']
    · rfl
  cases w.l
  · simp only [Bool.false_eq_true, ↓reduceIte]
    congr 1
    rw [ex, BitVec.setWidth_mul _ _ (by decide), es _ _ (by decide)]
    congr 1
    apply BitVec.eq_of_toNat_eq; simp
  · simp only [↓reduceIte]
    congr 1
    rw [ex, es _ _ (by decide)]; simp

theorem mapIdx_map {α β γ} (l : List α) (f : α → β) (g : Nat → β → γ) : (l.map f).mapIdx g = l.mapIdx fun k x => g k (f x) := by
  apply List.ext_getElem?
  intro n
  simp only [List.getElem?_mapIdx, List.getElem?_map, Option.map_map]
  rfl

/-- No store is sent when the buffer takes all. -/
theorem issueStores_buffered (st : State) (cls : ScopeClass) (l : List (Hit × List Byte)) (h : (l.any fun x => !i.buffers cls x) = false) :
    (st.drainFor i (i.stores st cls l)).issueStores i cls l =
      { l.foldl (fun s x => s.bufferStore i x) st with nextId := (l.foldl (fun s x => s.bufferStore i x) st).nextId + 64 } := by
  have h1 : (l.filter fun x => !i.buffers cls x) = [] := by
    rw [List.filter_eq_nil_iff]; rw [List.any_eq_false] at h; exact h
  have h2 : (l.filter fun x => i.buffers cls x) = l := by
    rw [List.filter_eq_self]; intro x hx
    have := List.any_eq_false.1 h x hx
    simpa using this
  have h3 : ∀ s1 : State, i.stores s1 cls l = [] := by intro s1; rw [Issue.stores, h1]; rfl
  rw [h3]
  simp only [State.drainFor, List.foldl_nil, State.issueStores, h1, h2, h3, State.addFlights, List.append_nil, List.length_nil, Nat.add_zero]

/-- Stores that pass end their word. -/
theorem stores_end {word : Instr} (hx : ∀ s, exec word s = issueWith word.view litOk asIs body s) (h : InHand word litOk asIs s i)
    {st : State} {cls : ScopeClass} {rel : Bool} {l : List (Hit × List Byte)} {f : Nat → Option (Nat × Word)} (hf : ∀ t, f t = none)
    (hr : rel = true → MayRelease st i cls)
    (hb : body s i = { storeWord i st cls rel l with trap := f }) : StoresEnd word s i st cls l := by
  intro room hd hs
  rw [storeWord, if_neg (by rintro ⟨h1, h2⟩; have h3 : State.released _ _ _ _ _ _ = true := hr h1; rw [h3] at h2; cases h2),
    if_neg (by rintro ⟨h1, h2⟩; rcases room with e | e; exact h1 e; exact absurd e (Nat.not_le.2 h2))] at hb
  simp only [Drained] at hd
  simp only [drainedFirst, hd, hs, Bool.false_eq_true, ↓reduceIte] at hb
  have he := ends_nothing_trap hx h hf hb
  refine ⟨he, fun h1 => by rw [← issueStores_buffered st cls l h1]; exact he, ?_⟩
  let S := (l.filter fun x => !i.buffers cls x).foldl (fun s x => s.wideStore i cls x)
    ((l.filter fun x => i.buffers cls x).foldl (fun s x => s.bufferStore i x) (st.drainFor i (i.stores st cls l)))
  refine ⟨i.stores S cls l, ?_, ?_⟩
  · rw [Issue.stores]
    exact map_mapIdx _ _ _ _ fun _ _ => rfl
  · intro g hg
    refine ⟨List.mem_append.2 (.inr hg), ?_⟩
    rw [Issue.stores, List.mem_mapIdx] at hg
    obtain ⟨n, h1, rfl⟩ := hg
    exact ⟨rfl, rfl⟩

end

end Sys2Proof.Machine
end

