-- ==== Sys2Proof/Laws/State.lean ====
section
/-! SUPPORT. One lemma per field and per named update of the state: what the update leaves alone. -/

namespace Sys2Proof.Machine

open Sys2Proof

variable (s : State)

@[simp] theorem State.mapTeam_now (uid : Nat) (f : Team → Team) : (s.mapTeam uid f).now = s.now := rfl
@[simp] theorem State.mapTeam_schedule (uid : Nat) (f : Team → Team) : (s.mapTeam uid f).schedule = s.schedule := rfl
@[simp] theorem State.mapTeam_free (uid : Nat) (f : Team → Team) : (s.mapTeam uid f).free = s.free := rfl
@[simp] theorem State.mapTeam_nextId (uid : Nat) (f : Team → Team) : (s.mapTeam uid f).nextId = s.nextId := rfl
@[simp] theorem State.mapTeam_cur (uid : Nat) (f : Team → Team) : (s.mapTeam uid f).cur = s.cur := rfl
@[simp] theorem State.mapTeam_mem (uid : Nat) (f : Team → Team) : (s.mapTeam uid f).mem = s.mem := rfl
@[simp] theorem State.mapTeam_sectors (uid : Nat) (f : Team → Team) : (s.mapTeam uid f).sectors = s.sectors := rfl
@[simp] theorem State.mapTeam_accUnits (uid : Nat) (f : Team → Team) : (s.mapTeam uid f).accUnits = s.accUnits := rfl
@[simp] theorem State.mapTeam_poisoned (uid : Nat) (f : Team → Team) : (s.mapTeam uid f).poisoned = s.poisoned := rfl
@[simp] theorem State.mapTeam_owned (uid : Nat) (f : Team → Team) : (s.mapTeam uid f).owned = s.owned := rfl
@[simp] theorem State.mapTeam_directory (uid : Nat) (f : Team → Team) : (s.mapTeam uid f).directory = s.directory := rfl
@[simp] theorem State.mapTeam_writebacks (uid : Nat) (f : Team → Team) : (s.mapTeam uid f).writebacks = s.writebacks := rfl
@[simp] theorem State.mapTeam_flights (uid : Nat) (f : Team → Team) : (s.mapTeam uid f).flights = s.flights := rfl
@[simp] theorem State.mapTeam_versions (uid : Nat) (f : Team → Team) : (s.mapTeam uid f).versions = s.versions := rfl
@[simp] theorem State.mapTeam_tlb (uid : Nat) (f : Team → Team) : (s.mapTeam uid f).tlb = s.tlb := rfl
@[simp] theorem State.mapTeam_tlbBusy (uid : Nat) (f : Team → Team) : (s.mapTeam uid f).tlbBusy = s.tlbBusy := rfl
@[simp] theorem State.mapTeam_tlbiVa (uid : Nat) (f : Team → Team) : (s.mapTeam uid f).tlbiVa = s.tlbiVa := rfl
@[simp] theorem State.mapTeam_vscfg (uid : Nat) (f : Team → Team) : (s.mapTeam uid f).vscfg = s.vscfg := rfl
@[simp] theorem State.mapTeam_vsRefused (uid : Nat) (f : Team → Team) : (s.mapTeam uid f).vsRefused = s.vsRefused := rfl
@[simp] theorem State.mapTeam_cores (uid : Nat) (f : Team → Team) : (s.mapTeam uid f).cores = s.cores := rfl
@[simp] theorem State.mapTeam_clusters (uid : Nat) (f : Team → Team) : (s.mapTeam uid f).clusters = s.clusters := rfl
@[simp] theorem State.mapTeam_saved (uid : Nat) (f : Team → Team) : (s.mapTeam uid f).saved = s.saved := rfl
@[simp] theorem State.mapTeam_ops (uid : Nat) (f : Team → Team) : (s.mapTeam uid f).ops = s.ops := rfl
@[simp] theorem State.mapTeam_gathers (uid : Nat) (f : Team → Team) : (s.mapTeam uid f).gathers = s.gathers := rfl
@[simp] theorem State.mapTeam_launches (uid : Nat) (f : Team → Team) : (s.mapTeam uid f).launches = s.launches := rfl
@[simp] theorem State.mapTeam_joins (uid : Nat) (f : Team → Team) : (s.mapTeam uid f).joins = s.joins := rfl
@[simp] theorem State.mapTeam_heldEntries (uid : Nat) (f : Team → Team) : (s.mapTeam uid f).heldEntries = s.heldEntries := rfl
@[simp] theorem State.mapTeam_messages (uid : Nat) (f : Team → Team) : (s.mapTeam uid f).messages = s.messages := rfl
@[simp] theorem State.mapTeam_latchMsgs (uid : Nat) (f : Team → Team) : (s.mapTeam uid f).latchMsgs = s.latchMsgs := rfl
@[simp] theorem State.mapTeam_remotes (uid : Nat) (f : Team → Team) : (s.mapTeam uid f).remotes = s.remotes := rfl
@[simp] theorem State.mapTeam_remoteAcks (uid : Nat) (f : Team → Team) : (s.mapTeam uid f).remoteAcks = s.remoteAcks := rfl
@[simp] theorem State.mapTeam_acqrs (uid : Nat) (f : Team → Team) : (s.mapTeam uid f).acqrs = s.acqrs := rfl
@[simp] theorem State.mapTeam_slots (uid : Nat) (f : Team → Team) : (s.mapTeam uid f).slots = s.slots := rfl
@[simp] theorem State.mapTeam_faults (uid : Nat) (f : Team → Team) : (s.mapTeam uid f).faults = s.faults := rfl
@[simp] theorem State.mapTeam_w1base (uid : Nat) (f : Team → Team) : (s.mapTeam uid f).w1base = s.w1base := rfl
@[simp] theorem State.mapTeam_w1size (uid : Nat) (f : Team → Team) : (s.mapTeam uid f).w1size = s.w1size := rfl
@[simp] theorem State.mapTeam_linkCxl (uid : Nat) (f : Team → Team) : (s.mapTeam uid f).linkCxl = s.linkCxl := rfl
@[simp] theorem State.mapTeam_linkCache (uid : Nat) (f : Team → Team) : (s.mapTeam uid f).linkCache = s.linkCache := rfl
@[simp] theorem State.mapTeam_msix (uid : Nat) (f : Team → Team) : (s.mapTeam uid f).msix = s.msix := rfl
@[simp] theorem State.mapTeam_podcfg (uid : Nat) (f : Team → Team) : (s.mapTeam uid f).podcfg = s.podcfg := rfl
@[simp] theorem State.mapTeam_ports (uid : Nat) (f : Team → Team) : (s.mapTeam uid f).ports = s.ports := rfl
@[simp] theorem State.mapTeam_reduce (uid : Nat) (f : Team → Team) : (s.mapTeam uid f).reduce = s.reduce := rfl
@[simp] theorem State.mapTeam_boot (uid : Nat) (f : Team → Team) : (s.mapTeam uid f).boot = s.boot := rfl
@[simp] theorem State.mapTeam_key (uid : Nat) (f : Team → Team) : (s.mapTeam uid f).key = s.key := rfl
@[simp] theorem State.mapTeam_errlog (uid : Nat) (f : Team → Team) : (s.mapTeam uid f).errlog = s.errlog := rfl
@[simp] theorem State.mapTeam_errpi (uid : Nat) (f : Team → Team) : (s.mapTeam uid f).errpi = s.errpi := rfl
@[simp] theorem State.mapTeam_units (uid : Nat) (f : Team → Team) : (s.mapTeam uid f).units = s.units := rfl
@[simp] theorem State.mapTeam_retSlices (uid : Nat) (f : Team → Team) : (s.mapTeam uid f).retSlices = s.retSlices := rfl
@[simp] theorem State.mapTeam_lostWaves (uid : Nat) (f : Team → Team) : (s.mapTeam uid f).lostWaves = s.lostWaves := rfl
@[simp] theorem State.mapTeam_power (uid : Nat) (f : Team → Team) : (s.mapTeam uid f).power = s.power := rfl
@[simp] theorem State.mapTeam_output (uid : Nat) (f : Team → Team) : (s.mapTeam uid f).output = s.output := rfl

@[simp] theorem State.mapGroup_now (uid gid : Nat) (f : Group → Group) : (s.mapGroup uid gid f).now = s.now := rfl
@[simp] theorem State.mapGroup_schedule (uid gid : Nat) (f : Group → Group) : (s.mapGroup uid gid f).schedule = s.schedule := rfl
@[simp] theorem State.mapGroup_free (uid gid : Nat) (f : Group → Group) : (s.mapGroup uid gid f).free = s.free := rfl
@[simp] theorem State.mapGroup_nextId (uid gid : Nat) (f : Group → Group) : (s.mapGroup uid gid f).nextId = s.nextId := rfl
@[simp] theorem State.mapGroup_cur (uid gid : Nat) (f : Group → Group) : (s.mapGroup uid gid f).cur = s.cur := rfl
@[simp] theorem State.mapGroup_mem (uid gid : Nat) (f : Group → Group) : (s.mapGroup uid gid f).mem = s.mem := rfl
@[simp] theorem State.mapGroup_sectors (uid gid : Nat) (f : Group → Group) : (s.mapGroup uid gid f).sectors = s.sectors := rfl
@[simp] theorem State.mapGroup_accUnits (uid gid : Nat) (f : Group → Group) : (s.mapGroup uid gid f).accUnits = s.accUnits := rfl
@[simp] theorem State.mapGroup_poisoned (uid gid : Nat) (f : Group → Group) : (s.mapGroup uid gid f).poisoned = s.poisoned := rfl
@[simp] theorem State.mapGroup_owned (uid gid : Nat) (f : Group → Group) : (s.mapGroup uid gid f).owned = s.owned := rfl
@[simp] theorem State.mapGroup_directory (uid gid : Nat) (f : Group → Group) : (s.mapGroup uid gid f).directory = s.directory := rfl
@[simp] theorem State.mapGroup_writebacks (uid gid : Nat) (f : Group → Group) : (s.mapGroup uid gid f).writebacks = s.writebacks := rfl
@[simp] theorem State.mapGroup_flights (uid gid : Nat) (f : Group → Group) : (s.mapGroup uid gid f).flights = s.flights := rfl
@[simp] theorem State.mapGroup_versions (uid gid : Nat) (f : Group → Group) : (s.mapGroup uid gid f).versions = s.versions := rfl
@[simp] theorem State.mapGroup_tlb (uid gid : Nat) (f : Group → Group) : (s.mapGroup uid gid f).tlb = s.tlb := rfl
@[simp] theorem State.mapGroup_tlbBusy (uid gid : Nat) (f : Group → Group) : (s.mapGroup uid gid f).tlbBusy = s.tlbBusy := rfl
@[simp] theorem State.mapGroup_tlbiVa (uid gid : Nat) (f : Group → Group) : (s.mapGroup uid gid f).tlbiVa = s.tlbiVa := rfl
@[simp] theorem State.mapGroup_vscfg (uid gid : Nat) (f : Group → Group) : (s.mapGroup uid gid f).vscfg = s.vscfg := rfl
@[simp] theorem State.mapGroup_vsRefused (uid gid : Nat) (f : Group → Group) : (s.mapGroup uid gid f).vsRefused = s.vsRefused := rfl
@[simp] theorem State.mapGroup_cores (uid gid : Nat) (f : Group → Group) : (s.mapGroup uid gid f).cores = s.cores := rfl
@[simp] theorem State.mapGroup_clusters (uid gid : Nat) (f : Group → Group) : (s.mapGroup uid gid f).clusters = s.clusters := rfl
@[simp] theorem State.mapGroup_saved (uid gid : Nat) (f : Group → Group) : (s.mapGroup uid gid f).saved = s.saved := rfl
@[simp] theorem State.mapGroup_ops (uid gid : Nat) (f : Group → Group) : (s.mapGroup uid gid f).ops = s.ops := rfl
@[simp] theorem State.mapGroup_gathers (uid gid : Nat) (f : Group → Group) : (s.mapGroup uid gid f).gathers = s.gathers := rfl
@[simp] theorem State.mapGroup_launches (uid gid : Nat) (f : Group → Group) : (s.mapGroup uid gid f).launches = s.launches := rfl
@[simp] theorem State.mapGroup_joins (uid gid : Nat) (f : Group → Group) : (s.mapGroup uid gid f).joins = s.joins := rfl
@[simp] theorem State.mapGroup_heldEntries (uid gid : Nat) (f : Group → Group) : (s.mapGroup uid gid f).heldEntries = s.heldEntries := rfl
@[simp] theorem State.mapGroup_messages (uid gid : Nat) (f : Group → Group) : (s.mapGroup uid gid f).messages = s.messages := rfl
@[simp] theorem State.mapGroup_latchMsgs (uid gid : Nat) (f : Group → Group) : (s.mapGroup uid gid f).latchMsgs = s.latchMsgs := rfl
@[simp] theorem State.mapGroup_remotes (uid gid : Nat) (f : Group → Group) : (s.mapGroup uid gid f).remotes = s.remotes := rfl
@[simp] theorem State.mapGroup_remoteAcks (uid gid : Nat) (f : Group → Group) : (s.mapGroup uid gid f).remoteAcks = s.remoteAcks := rfl
@[simp] theorem State.mapGroup_acqrs (uid gid : Nat) (f : Group → Group) : (s.mapGroup uid gid f).acqrs = s.acqrs := rfl
@[simp] theorem State.mapGroup_slots (uid gid : Nat) (f : Group → Group) : (s.mapGroup uid gid f).slots = s.slots := rfl
@[simp] theorem State.mapGroup_faults (uid gid : Nat) (f : Group → Group) : (s.mapGroup uid gid f).faults = s.faults := rfl
@[simp] theorem State.mapGroup_w1base (uid gid : Nat) (f : Group → Group) : (s.mapGroup uid gid f).w1base = s.w1base := rfl
@[simp] theorem State.mapGroup_w1size (uid gid : Nat) (f : Group → Group) : (s.mapGroup uid gid f).w1size = s.w1size := rfl
@[simp] theorem State.mapGroup_linkCxl (uid gid : Nat) (f : Group → Group) : (s.mapGroup uid gid f).linkCxl = s.linkCxl := rfl
@[simp] theorem State.mapGroup_linkCache (uid gid : Nat) (f : Group → Group) : (s.mapGroup uid gid f).linkCache = s.linkCache := rfl
@[simp] theorem State.mapGroup_msix (uid gid : Nat) (f : Group → Group) : (s.mapGroup uid gid f).msix = s.msix := rfl
@[simp] theorem State.mapGroup_podcfg (uid gid : Nat) (f : Group → Group) : (s.mapGroup uid gid f).podcfg = s.podcfg := rfl
@[simp] theorem State.mapGroup_ports (uid gid : Nat) (f : Group → Group) : (s.mapGroup uid gid f).ports = s.ports := rfl
@[simp] theorem State.mapGroup_reduce (uid gid : Nat) (f : Group → Group) : (s.mapGroup uid gid f).reduce = s.reduce := rfl
@[simp] theorem State.mapGroup_boot (uid gid : Nat) (f : Group → Group) : (s.mapGroup uid gid f).boot = s.boot := rfl
@[simp] theorem State.mapGroup_key (uid gid : Nat) (f : Group → Group) : (s.mapGroup uid gid f).key = s.key := rfl
@[simp] theorem State.mapGroup_errlog (uid gid : Nat) (f : Group → Group) : (s.mapGroup uid gid f).errlog = s.errlog := rfl
@[simp] theorem State.mapGroup_errpi (uid gid : Nat) (f : Group → Group) : (s.mapGroup uid gid f).errpi = s.errpi := rfl
@[simp] theorem State.mapGroup_units (uid gid : Nat) (f : Group → Group) : (s.mapGroup uid gid f).units = s.units := rfl
@[simp] theorem State.mapGroup_retSlices (uid gid : Nat) (f : Group → Group) : (s.mapGroup uid gid f).retSlices = s.retSlices := rfl
@[simp] theorem State.mapGroup_lostWaves (uid gid : Nat) (f : Group → Group) : (s.mapGroup uid gid f).lostWaves = s.lostWaves := rfl
@[simp] theorem State.mapGroup_power (uid gid : Nat) (f : Group → Group) : (s.mapGroup uid gid f).power = s.power := rfl
@[simp] theorem State.mapGroup_output (uid gid : Nat) (f : Group → Group) : (s.mapGroup uid gid f).output = s.output := rfl

@[simp] theorem State.mapCore_now (cl n : Nat) (f : Core → Core) : (s.mapCore cl n f).now = s.now := by rw [State.mapCore]; split <;> rfl
@[simp] theorem State.mapCore_schedule (cl n : Nat) (f : Core → Core) : (s.mapCore cl n f).schedule = s.schedule := by rw [State.mapCore]; split <;> rfl
@[simp] theorem State.mapCore_free (cl n : Nat) (f : Core → Core) : (s.mapCore cl n f).free = s.free := by rw [State.mapCore]; split <;> rfl
@[simp] theorem State.mapCore_nextId (cl n : Nat) (f : Core → Core) : (s.mapCore cl n f).nextId = s.nextId := by rw [State.mapCore]; split <;> rfl
@[simp] theorem State.mapCore_cur (cl n : Nat) (f : Core → Core) : (s.mapCore cl n f).cur = s.cur := by rw [State.mapCore]; split <;> rfl
@[simp] theorem State.mapCore_mem (cl n : Nat) (f : Core → Core) : (s.mapCore cl n f).mem = s.mem := by rw [State.mapCore]; split <;> rfl
@[simp] theorem State.mapCore_sectors (cl n : Nat) (f : Core → Core) : (s.mapCore cl n f).sectors = s.sectors := by rw [State.mapCore]; split <;> rfl
@[simp] theorem State.mapCore_accUnits (cl n : Nat) (f : Core → Core) : (s.mapCore cl n f).accUnits = s.accUnits := by rw [State.mapCore]; split <;> rfl
@[simp] theorem State.mapCore_poisoned (cl n : Nat) (f : Core → Core) : (s.mapCore cl n f).poisoned = s.poisoned := by rw [State.mapCore]; split <;> rfl
@[simp] theorem State.mapCore_owned (cl n : Nat) (f : Core → Core) : (s.mapCore cl n f).owned = s.owned := by rw [State.mapCore]; split <;> rfl
@[simp] theorem State.mapCore_directory (cl n : Nat) (f : Core → Core) : (s.mapCore cl n f).directory = s.directory := by rw [State.mapCore]; split <;> rfl
@[simp] theorem State.mapCore_writebacks (cl n : Nat) (f : Core → Core) : (s.mapCore cl n f).writebacks = s.writebacks := by rw [State.mapCore]; split <;> rfl
@[simp] theorem State.mapCore_flights (cl n : Nat) (f : Core → Core) : (s.mapCore cl n f).flights = s.flights := by rw [State.mapCore]; split <;> rfl
@[simp] theorem State.mapCore_versions (cl n : Nat) (f : Core → Core) : (s.mapCore cl n f).versions = s.versions := by rw [State.mapCore]; split <;> rfl
@[simp] theorem State.mapCore_tlb (cl n : Nat) (f : Core → Core) : (s.mapCore cl n f).tlb = s.tlb := by rw [State.mapCore]; split <;> rfl
@[simp] theorem State.mapCore_tlbBusy (cl n : Nat) (f : Core → Core) : (s.mapCore cl n f).tlbBusy = s.tlbBusy := by rw [State.mapCore]; split <;> rfl
@[simp] theorem State.mapCore_tlbiVa (cl n : Nat) (f : Core → Core) : (s.mapCore cl n f).tlbiVa = s.tlbiVa := by rw [State.mapCore]; split <;> rfl
@[simp] theorem State.mapCore_vscfg (cl n : Nat) (f : Core → Core) : (s.mapCore cl n f).vscfg = s.vscfg := by rw [State.mapCore]; split <;> rfl
@[simp] theorem State.mapCore_vsRefused (cl n : Nat) (f : Core → Core) : (s.mapCore cl n f).vsRefused = s.vsRefused := by rw [State.mapCore]; split <;> rfl
@[simp] theorem State.mapCore_clusters (cl n : Nat) (f : Core → Core) : (s.mapCore cl n f).clusters = s.clusters := by rw [State.mapCore]; split <;> rfl
@[simp] theorem State.mapCore_teams (cl n : Nat) (f : Core → Core) : (s.mapCore cl n f).teams = s.teams := by rw [State.mapCore]; split <;> rfl
@[simp] theorem State.mapCore_saved (cl n : Nat) (f : Core → Core) : (s.mapCore cl n f).saved = s.saved := by rw [State.mapCore]; split <;> rfl
@[simp] theorem State.mapCore_ops (cl n : Nat) (f : Core → Core) : (s.mapCore cl n f).ops = s.ops := by rw [State.mapCore]; split <;> rfl
@[simp] theorem State.mapCore_gathers (cl n : Nat) (f : Core → Core) : (s.mapCore cl n f).gathers = s.gathers := by rw [State.mapCore]; split <;> rfl
@[simp] theorem State.mapCore_launches (cl n : Nat) (f : Core → Core) : (s.mapCore cl n f).launches = s.launches := by rw [State.mapCore]; split <;> rfl
@[simp] theorem State.mapCore_joins (cl n : Nat) (f : Core → Core) : (s.mapCore cl n f).joins = s.joins := by rw [State.mapCore]; split <;> rfl
@[simp] theorem State.mapCore_heldEntries (cl n : Nat) (f : Core → Core) : (s.mapCore cl n f).heldEntries = s.heldEntries := by rw [State.mapCore]; split <;> rfl
@[simp] theorem State.mapCore_messages (cl n : Nat) (f : Core → Core) : (s.mapCore cl n f).messages = s.messages := by rw [State.mapCore]; split <;> rfl
@[simp] theorem State.mapCore_latchMsgs (cl n : Nat) (f : Core → Core) : (s.mapCore cl n f).latchMsgs = s.latchMsgs := by rw [State.mapCore]; split <;> rfl
@[simp] theorem State.mapCore_remotes (cl n : Nat) (f : Core → Core) : (s.mapCore cl n f).remotes = s.remotes := by rw [State.mapCore]; split <;> rfl
@[simp] theorem State.mapCore_remoteAcks (cl n : Nat) (f : Core → Core) : (s.mapCore cl n f).remoteAcks = s.remoteAcks := by rw [State.mapCore]; split <;> rfl
@[simp] theorem State.mapCore_acqrs (cl n : Nat) (f : Core → Core) : (s.mapCore cl n f).acqrs = s.acqrs := by rw [State.mapCore]; split <;> rfl
@[simp] theorem State.mapCore_slots (cl n : Nat) (f : Core → Core) : (s.mapCore cl n f).slots = s.slots := by rw [State.mapCore]; split <;> rfl
@[simp] theorem State.mapCore_faults (cl n : Nat) (f : Core → Core) : (s.mapCore cl n f).faults = s.faults := by rw [State.mapCore]; split <;> rfl
@[simp] theorem State.mapCore_w1base (cl n : Nat) (f : Core → Core) : (s.mapCore cl n f).w1base = s.w1base := by rw [State.mapCore]; split <;> rfl
@[simp] theorem State.mapCore_w1size (cl n : Nat) (f : Core → Core) : (s.mapCore cl n f).w1size = s.w1size := by rw [State.mapCore]; split <;> rfl
@[simp] theorem State.mapCore_linkCxl (cl n : Nat) (f : Core → Core) : (s.mapCore cl n f).linkCxl = s.linkCxl := by rw [State.mapCore]; split <;> rfl
@[simp] theorem State.mapCore_linkCache (cl n : Nat) (f : Core → Core) : (s.mapCore cl n f).linkCache = s.linkCache := by rw [State.mapCore]; split <;> rfl
@[simp] theorem State.mapCore_msix (cl n : Nat) (f : Core → Core) : (s.mapCore cl n f).msix = s.msix := by rw [State.mapCore]; split <;> rfl
@[simp] theorem State.mapCore_podcfg (cl n : Nat) (f : Core → Core) : (s.mapCore cl n f).podcfg = s.podcfg := by rw [State.mapCore]; split <;> rfl
@[simp] theorem State.mapCore_ports (cl n : Nat) (f : Core → Core) : (s.mapCore cl n f).ports = s.ports := by rw [State.mapCore]; split <;> rfl
@[simp] theorem State.mapCore_reduce (cl n : Nat) (f : Core → Core) : (s.mapCore cl n f).reduce = s.reduce := by rw [State.mapCore]; split <;> rfl
@[simp] theorem State.mapCore_boot (cl n : Nat) (f : Core → Core) : (s.mapCore cl n f).boot = s.boot := by rw [State.mapCore]; split <;> rfl
@[simp] theorem State.mapCore_key (cl n : Nat) (f : Core → Core) : (s.mapCore cl n f).key = s.key := by rw [State.mapCore]; split <;> rfl
@[simp] theorem State.mapCore_errlog (cl n : Nat) (f : Core → Core) : (s.mapCore cl n f).errlog = s.errlog := by rw [State.mapCore]; split <;> rfl
@[simp] theorem State.mapCore_errpi (cl n : Nat) (f : Core → Core) : (s.mapCore cl n f).errpi = s.errpi := by rw [State.mapCore]; split <;> rfl
@[simp] theorem State.mapCore_units (cl n : Nat) (f : Core → Core) : (s.mapCore cl n f).units = s.units := by rw [State.mapCore]; split <;> rfl
@[simp] theorem State.mapCore_retSlices (cl n : Nat) (f : Core → Core) : (s.mapCore cl n f).retSlices = s.retSlices := by rw [State.mapCore]; split <;> rfl
@[simp] theorem State.mapCore_lostWaves (cl n : Nat) (f : Core → Core) : (s.mapCore cl n f).lostWaves = s.lostWaves := by rw [State.mapCore]; split <;> rfl
@[simp] theorem State.mapCore_power (cl n : Nat) (f : Core → Core) : (s.mapCore cl n f).power = s.power := by rw [State.mapCore]; split <;> rfl
@[simp] theorem State.mapCore_output (cl n : Nat) (f : Core → Core) : (s.mapCore cl n f).output = s.output := by rw [State.mapCore]; split <;> rfl

@[simp] theorem State.mapSlot_now (p : Nat) (f : Slot → Slot) : (s.mapSlot p f).now = s.now := rfl
@[simp] theorem State.mapSlot_schedule (p : Nat) (f : Slot → Slot) : (s.mapSlot p f).schedule = s.schedule := rfl
@[simp] theorem State.mapSlot_free (p : Nat) (f : Slot → Slot) : (s.mapSlot p f).free = s.free := rfl
@[simp] theorem State.mapSlot_nextId (p : Nat) (f : Slot → Slot) : (s.mapSlot p f).nextId = s.nextId := rfl
@[simp] theorem State.mapSlot_cur (p : Nat) (f : Slot → Slot) : (s.mapSlot p f).cur = s.cur := rfl
@[simp] theorem State.mapSlot_mem (p : Nat) (f : Slot → Slot) : (s.mapSlot p f).mem = s.mem := rfl
@[simp] theorem State.mapSlot_sectors (p : Nat) (f : Slot → Slot) : (s.mapSlot p f).sectors = s.sectors := rfl
@[simp] theorem State.mapSlot_accUnits (p : Nat) (f : Slot → Slot) : (s.mapSlot p f).accUnits = s.accUnits := rfl
@[simp] theorem State.mapSlot_poisoned (p : Nat) (f : Slot → Slot) : (s.mapSlot p f).poisoned = s.poisoned := rfl
@[simp] theorem State.mapSlot_owned (p : Nat) (f : Slot → Slot) : (s.mapSlot p f).owned = s.owned := rfl
@[simp] theorem State.mapSlot_directory (p : Nat) (f : Slot → Slot) : (s.mapSlot p f).directory = s.directory := rfl
@[simp] theorem State.mapSlot_writebacks (p : Nat) (f : Slot → Slot) : (s.mapSlot p f).writebacks = s.writebacks := rfl
@[simp] theorem State.mapSlot_flights (p : Nat) (f : Slot → Slot) : (s.mapSlot p f).flights = s.flights := rfl
@[simp] theorem State.mapSlot_versions (p : Nat) (f : Slot → Slot) : (s.mapSlot p f).versions = s.versions := rfl
@[simp] theorem State.mapSlot_tlb (p : Nat) (f : Slot → Slot) : (s.mapSlot p f).tlb = s.tlb := rfl
@[simp] theorem State.mapSlot_tlbBusy (p : Nat) (f : Slot → Slot) : (s.mapSlot p f).tlbBusy = s.tlbBusy := rfl
@[simp] theorem State.mapSlot_tlbiVa (p : Nat) (f : Slot → Slot) : (s.mapSlot p f).tlbiVa = s.tlbiVa := rfl
@[simp] theorem State.mapSlot_vscfg (p : Nat) (f : Slot → Slot) : (s.mapSlot p f).vscfg = s.vscfg := rfl
@[simp] theorem State.mapSlot_vsRefused (p : Nat) (f : Slot → Slot) : (s.mapSlot p f).vsRefused = s.vsRefused := rfl
@[simp] theorem State.mapSlot_cores (p : Nat) (f : Slot → Slot) : (s.mapSlot p f).cores = s.cores := rfl
@[simp] theorem State.mapSlot_clusters (p : Nat) (f : Slot → Slot) : (s.mapSlot p f).clusters = s.clusters := rfl
@[simp] theorem State.mapSlot_teams (p : Nat) (f : Slot → Slot) : (s.mapSlot p f).teams = s.teams := rfl
@[simp] theorem State.mapSlot_saved (p : Nat) (f : Slot → Slot) : (s.mapSlot p f).saved = s.saved := rfl
@[simp] theorem State.mapSlot_ops (p : Nat) (f : Slot → Slot) : (s.mapSlot p f).ops = s.ops := rfl
@[simp] theorem State.mapSlot_gathers (p : Nat) (f : Slot → Slot) : (s.mapSlot p f).gathers = s.gathers := rfl
@[simp] theorem State.mapSlot_launches (p : Nat) (f : Slot → Slot) : (s.mapSlot p f).launches = s.launches := rfl
@[simp] theorem State.mapSlot_joins (p : Nat) (f : Slot → Slot) : (s.mapSlot p f).joins = s.joins := rfl
@[simp] theorem State.mapSlot_heldEntries (p : Nat) (f : Slot → Slot) : (s.mapSlot p f).heldEntries = s.heldEntries := rfl
@[simp] theorem State.mapSlot_messages (p : Nat) (f : Slot → Slot) : (s.mapSlot p f).messages = s.messages := rfl
@[simp] theorem State.mapSlot_latchMsgs (p : Nat) (f : Slot → Slot) : (s.mapSlot p f).latchMsgs = s.latchMsgs := rfl
@[simp] theorem State.mapSlot_remotes (p : Nat) (f : Slot → Slot) : (s.mapSlot p f).remotes = s.remotes := rfl
@[simp] theorem State.mapSlot_remoteAcks (p : Nat) (f : Slot → Slot) : (s.mapSlot p f).remoteAcks = s.remoteAcks := rfl
@[simp] theorem State.mapSlot_acqrs (p : Nat) (f : Slot → Slot) : (s.mapSlot p f).acqrs = s.acqrs := rfl
@[simp] theorem State.mapSlot_faults (p : Nat) (f : Slot → Slot) : (s.mapSlot p f).faults = s.faults := rfl
@[simp] theorem State.mapSlot_w1base (p : Nat) (f : Slot → Slot) : (s.mapSlot p f).w1base = s.w1base := rfl
@[simp] theorem State.mapSlot_w1size (p : Nat) (f : Slot → Slot) : (s.mapSlot p f).w1size = s.w1size := rfl
@[simp] theorem State.mapSlot_linkCxl (p : Nat) (f : Slot → Slot) : (s.mapSlot p f).linkCxl = s.linkCxl := rfl
@[simp] theorem State.mapSlot_linkCache (p : Nat) (f : Slot → Slot) : (s.mapSlot p f).linkCache = s.linkCache := rfl
@[simp] theorem State.mapSlot_msix (p : Nat) (f : Slot → Slot) : (s.mapSlot p f).msix = s.msix := rfl
@[simp] theorem State.mapSlot_podcfg (p : Nat) (f : Slot → Slot) : (s.mapSlot p f).podcfg = s.podcfg := rfl
@[simp] theorem State.mapSlot_ports (p : Nat) (f : Slot → Slot) : (s.mapSlot p f).ports = s.ports := rfl
@[simp] theorem State.mapSlot_reduce (p : Nat) (f : Slot → Slot) : (s.mapSlot p f).reduce = s.reduce := rfl
@[simp] theorem State.mapSlot_boot (p : Nat) (f : Slot → Slot) : (s.mapSlot p f).boot = s.boot := rfl
@[simp] theorem State.mapSlot_key (p : Nat) (f : Slot → Slot) : (s.mapSlot p f).key = s.key := rfl
@[simp] theorem State.mapSlot_errlog (p : Nat) (f : Slot → Slot) : (s.mapSlot p f).errlog = s.errlog := rfl
@[simp] theorem State.mapSlot_errpi (p : Nat) (f : Slot → Slot) : (s.mapSlot p f).errpi = s.errpi := rfl
@[simp] theorem State.mapSlot_units (p : Nat) (f : Slot → Slot) : (s.mapSlot p f).units = s.units := rfl
@[simp] theorem State.mapSlot_retSlices (p : Nat) (f : Slot → Slot) : (s.mapSlot p f).retSlices = s.retSlices := rfl
@[simp] theorem State.mapSlot_lostWaves (p : Nat) (f : Slot → Slot) : (s.mapSlot p f).lostWaves = s.lostWaves := rfl
@[simp] theorem State.mapSlot_power (p : Nat) (f : Slot → Slot) : (s.mapSlot p f).power = s.power := rfl
@[simp] theorem State.mapSlot_output (p : Nat) (f : Slot → Slot) : (s.mapSlot p f).output = s.output := rfl

@[simp] theorem State.mapCluster_now (c : Nat) (f : Cluster → Cluster) : (s.mapCluster c f).now = s.now := rfl
@[simp] theorem State.mapCluster_schedule (c : Nat) (f : Cluster → Cluster) : (s.mapCluster c f).schedule = s.schedule := rfl
@[simp] theorem State.mapCluster_free (c : Nat) (f : Cluster → Cluster) : (s.mapCluster c f).free = s.free := rfl
@[simp] theorem State.mapCluster_nextId (c : Nat) (f : Cluster → Cluster) : (s.mapCluster c f).nextId = s.nextId := rfl
@[simp] theorem State.mapCluster_cur (c : Nat) (f : Cluster → Cluster) : (s.mapCluster c f).cur = s.cur := rfl
@[simp] theorem State.mapCluster_mem (c : Nat) (f : Cluster → Cluster) : (s.mapCluster c f).mem = s.mem := rfl
@[simp] theorem State.mapCluster_sectors (c : Nat) (f : Cluster → Cluster) : (s.mapCluster c f).sectors = s.sectors := rfl
@[simp] theorem State.mapCluster_accUnits (c : Nat) (f : Cluster → Cluster) : (s.mapCluster c f).accUnits = s.accUnits := rfl
@[simp] theorem State.mapCluster_poisoned (c : Nat) (f : Cluster → Cluster) : (s.mapCluster c f).poisoned = s.poisoned := rfl
@[simp] theorem State.mapCluster_owned (c : Nat) (f : Cluster → Cluster) : (s.mapCluster c f).owned = s.owned := rfl
@[simp] theorem State.mapCluster_directory (c : Nat) (f : Cluster → Cluster) : (s.mapCluster c f).directory = s.directory := rfl
@[simp] theorem State.mapCluster_writebacks (c : Nat) (f : Cluster → Cluster) : (s.mapCluster c f).writebacks = s.writebacks := rfl
@[simp] theorem State.mapCluster_flights (c : Nat) (f : Cluster → Cluster) : (s.mapCluster c f).flights = s.flights := rfl
@[simp] theorem State.mapCluster_versions (c : Nat) (f : Cluster → Cluster) : (s.mapCluster c f).versions = s.versions := rfl
@[simp] theorem State.mapCluster_tlb (c : Nat) (f : Cluster → Cluster) : (s.mapCluster c f).tlb = s.tlb := rfl
@[simp] theorem State.mapCluster_tlbBusy (c : Nat) (f : Cluster → Cluster) : (s.mapCluster c f).tlbBusy = s.tlbBusy := rfl
@[simp] theorem State.mapCluster_tlbiVa (c : Nat) (f : Cluster → Cluster) : (s.mapCluster c f).tlbiVa = s.tlbiVa := rfl
@[simp] theorem State.mapCluster_vscfg (c : Nat) (f : Cluster → Cluster) : (s.mapCluster c f).vscfg = s.vscfg := rfl
@[simp] theorem State.mapCluster_vsRefused (c : Nat) (f : Cluster → Cluster) : (s.mapCluster c f).vsRefused = s.vsRefused := rfl
@[simp] theorem State.mapCluster_cores (c : Nat) (f : Cluster → Cluster) : (s.mapCluster c f).cores = s.cores := rfl
@[simp] theorem State.mapCluster_teams (c : Nat) (f : Cluster → Cluster) : (s.mapCluster c f).teams = s.teams := rfl
@[simp] theorem State.mapCluster_saved (c : Nat) (f : Cluster → Cluster) : (s.mapCluster c f).saved = s.saved := rfl
@[simp] theorem State.mapCluster_ops (c : Nat) (f : Cluster → Cluster) : (s.mapCluster c f).ops = s.ops := rfl
@[simp] theorem State.mapCluster_gathers (c : Nat) (f : Cluster → Cluster) : (s.mapCluster c f).gathers = s.gathers := rfl
@[simp] theorem State.mapCluster_launches (c : Nat) (f : Cluster → Cluster) : (s.mapCluster c f).launches = s.launches := rfl
@[simp] theorem State.mapCluster_joins (c : Nat) (f : Cluster → Cluster) : (s.mapCluster c f).joins = s.joins := rfl
@[simp] theorem State.mapCluster_heldEntries (c : Nat) (f : Cluster → Cluster) : (s.mapCluster c f).heldEntries = s.heldEntries := rfl
@[simp] theorem State.mapCluster_messages (c : Nat) (f : Cluster → Cluster) : (s.mapCluster c f).messages = s.messages := rfl
@[simp] theorem State.mapCluster_latchMsgs (c : Nat) (f : Cluster → Cluster) : (s.mapCluster c f).latchMsgs = s.latchMsgs := rfl
@[simp] theorem State.mapCluster_remotes (c : Nat) (f : Cluster → Cluster) : (s.mapCluster c f).remotes = s.remotes := rfl
@[simp] theorem State.mapCluster_remoteAcks (c : Nat) (f : Cluster → Cluster) : (s.mapCluster c f).remoteAcks = s.remoteAcks := rfl
@[simp] theorem State.mapCluster_acqrs (c : Nat) (f : Cluster → Cluster) : (s.mapCluster c f).acqrs = s.acqrs := rfl
@[simp] theorem State.mapCluster_slots (c : Nat) (f : Cluster → Cluster) : (s.mapCluster c f).slots = s.slots := rfl
@[simp] theorem State.mapCluster_faults (c : Nat) (f : Cluster → Cluster) : (s.mapCluster c f).faults = s.faults := rfl
@[simp] theorem State.mapCluster_w1base (c : Nat) (f : Cluster → Cluster) : (s.mapCluster c f).w1base = s.w1base := rfl
@[simp] theorem State.mapCluster_w1size (c : Nat) (f : Cluster → Cluster) : (s.mapCluster c f).w1size = s.w1size := rfl
@[simp] theorem State.mapCluster_linkCxl (c : Nat) (f : Cluster → Cluster) : (s.mapCluster c f).linkCxl = s.linkCxl := rfl
@[simp] theorem State.mapCluster_linkCache (c : Nat) (f : Cluster → Cluster) : (s.mapCluster c f).linkCache = s.linkCache := rfl
@[simp] theorem State.mapCluster_msix (c : Nat) (f : Cluster → Cluster) : (s.mapCluster c f).msix = s.msix := rfl
@[simp] theorem State.mapCluster_podcfg (c : Nat) (f : Cluster → Cluster) : (s.mapCluster c f).podcfg = s.podcfg := rfl
@[simp] theorem State.mapCluster_ports (c : Nat) (f : Cluster → Cluster) : (s.mapCluster c f).ports = s.ports := rfl
@[simp] theorem State.mapCluster_reduce (c : Nat) (f : Cluster → Cluster) : (s.mapCluster c f).reduce = s.reduce := rfl
@[simp] theorem State.mapCluster_boot (c : Nat) (f : Cluster → Cluster) : (s.mapCluster c f).boot = s.boot := rfl
@[simp] theorem State.mapCluster_key (c : Nat) (f : Cluster → Cluster) : (s.mapCluster c f).key = s.key := rfl
@[simp] theorem State.mapCluster_errlog (c : Nat) (f : Cluster → Cluster) : (s.mapCluster c f).errlog = s.errlog := rfl
@[simp] theorem State.mapCluster_errpi (c : Nat) (f : Cluster → Cluster) : (s.mapCluster c f).errpi = s.errpi := rfl
@[simp] theorem State.mapCluster_units (c : Nat) (f : Cluster → Cluster) : (s.mapCluster c f).units = s.units := rfl
@[simp] theorem State.mapCluster_retSlices (c : Nat) (f : Cluster → Cluster) : (s.mapCluster c f).retSlices = s.retSlices := rfl
@[simp] theorem State.mapCluster_lostWaves (c : Nat) (f : Cluster → Cluster) : (s.mapCluster c f).lostWaves = s.lostWaves := rfl
@[simp] theorem State.mapCluster_power (c : Nat) (f : Cluster → Cluster) : (s.mapCluster c f).power = s.power := rfl
@[simp] theorem State.mapCluster_output (c : Nat) (f : Cluster → Cluster) : (s.mapCluster c f).output = s.output := rfl

@[simp] theorem State.mapLaunch_now (id : Nat) (f : Launch → Launch) : (s.mapLaunch id f).now = s.now := rfl
@[simp] theorem State.mapLaunch_schedule (id : Nat) (f : Launch → Launch) : (s.mapLaunch id f).schedule = s.schedule := rfl
@[simp] theorem State.mapLaunch_free (id : Nat) (f : Launch → Launch) : (s.mapLaunch id f).free = s.free := rfl
@[simp] theorem State.mapLaunch_nextId (id : Nat) (f : Launch → Launch) : (s.mapLaunch id f).nextId = s.nextId := rfl
@[simp] theorem State.mapLaunch_cur (id : Nat) (f : Launch → Launch) : (s.mapLaunch id f).cur = s.cur := rfl
@[simp] theorem State.mapLaunch_mem (id : Nat) (f : Launch → Launch) : (s.mapLaunch id f).mem = s.mem := rfl
@[simp] theorem State.mapLaunch_sectors (id : Nat) (f : Launch → Launch) : (s.mapLaunch id f).sectors = s.sectors := rfl
@[simp] theorem State.mapLaunch_accUnits (id : Nat) (f : Launch → Launch) : (s.mapLaunch id f).accUnits = s.accUnits := rfl
@[simp] theorem State.mapLaunch_poisoned (id : Nat) (f : Launch → Launch) : (s.mapLaunch id f).poisoned = s.poisoned := rfl
@[simp] theorem State.mapLaunch_owned (id : Nat) (f : Launch → Launch) : (s.mapLaunch id f).owned = s.owned := rfl
@[simp] theorem State.mapLaunch_directory (id : Nat) (f : Launch → Launch) : (s.mapLaunch id f).directory = s.directory := rfl
@[simp] theorem State.mapLaunch_writebacks (id : Nat) (f : Launch → Launch) : (s.mapLaunch id f).writebacks = s.writebacks := rfl
@[simp] theorem State.mapLaunch_flights (id : Nat) (f : Launch → Launch) : (s.mapLaunch id f).flights = s.flights := rfl
@[simp] theorem State.mapLaunch_versions (id : Nat) (f : Launch → Launch) : (s.mapLaunch id f).versions = s.versions := rfl
@[simp] theorem State.mapLaunch_tlb (id : Nat) (f : Launch → Launch) : (s.mapLaunch id f).tlb = s.tlb := rfl
@[simp] theorem State.mapLaunch_tlbBusy (id : Nat) (f : Launch → Launch) : (s.mapLaunch id f).tlbBusy = s.tlbBusy := rfl
@[simp] theorem State.mapLaunch_tlbiVa (id : Nat) (f : Launch → Launch) : (s.mapLaunch id f).tlbiVa = s.tlbiVa := rfl
@[simp] theorem State.mapLaunch_vscfg (id : Nat) (f : Launch → Launch) : (s.mapLaunch id f).vscfg = s.vscfg := rfl
@[simp] theorem State.mapLaunch_vsRefused (id : Nat) (f : Launch → Launch) : (s.mapLaunch id f).vsRefused = s.vsRefused := rfl
@[simp] theorem State.mapLaunch_cores (id : Nat) (f : Launch → Launch) : (s.mapLaunch id f).cores = s.cores := rfl
@[simp] theorem State.mapLaunch_clusters (id : Nat) (f : Launch → Launch) : (s.mapLaunch id f).clusters = s.clusters := rfl
@[simp] theorem State.mapLaunch_teams (id : Nat) (f : Launch → Launch) : (s.mapLaunch id f).teams = s.teams := rfl
@[simp] theorem State.mapLaunch_saved (id : Nat) (f : Launch → Launch) : (s.mapLaunch id f).saved = s.saved := rfl
@[simp] theorem State.mapLaunch_ops (id : Nat) (f : Launch → Launch) : (s.mapLaunch id f).ops = s.ops := rfl
@[simp] theorem State.mapLaunch_gathers (id : Nat) (f : Launch → Launch) : (s.mapLaunch id f).gathers = s.gathers := rfl
@[simp] theorem State.mapLaunch_joins (id : Nat) (f : Launch → Launch) : (s.mapLaunch id f).joins = s.joins := rfl
@[simp] theorem State.mapLaunch_heldEntries (id : Nat) (f : Launch → Launch) : (s.mapLaunch id f).heldEntries = s.heldEntries := rfl
@[simp] theorem State.mapLaunch_messages (id : Nat) (f : Launch → Launch) : (s.mapLaunch id f).messages = s.messages := rfl
@[simp] theorem State.mapLaunch_latchMsgs (id : Nat) (f : Launch → Launch) : (s.mapLaunch id f).latchMsgs = s.latchMsgs := rfl
@[simp] theorem State.mapLaunch_remotes (id : Nat) (f : Launch → Launch) : (s.mapLaunch id f).remotes = s.remotes := rfl
@[simp] theorem State.mapLaunch_remoteAcks (id : Nat) (f : Launch → Launch) : (s.mapLaunch id f).remoteAcks = s.remoteAcks := rfl
@[simp] theorem State.mapLaunch_acqrs (id : Nat) (f : Launch → Launch) : (s.mapLaunch id f).acqrs = s.acqrs := rfl
@[simp] theorem State.mapLaunch_slots (id : Nat) (f : Launch → Launch) : (s.mapLaunch id f).slots = s.slots := rfl
@[simp] theorem State.mapLaunch_faults (id : Nat) (f : Launch → Launch) : (s.mapLaunch id f).faults = s.faults := rfl
@[simp] theorem State.mapLaunch_w1base (id : Nat) (f : Launch → Launch) : (s.mapLaunch id f).w1base = s.w1base := rfl
@[simp] theorem State.mapLaunch_w1size (id : Nat) (f : Launch → Launch) : (s.mapLaunch id f).w1size = s.w1size := rfl
@[simp] theorem State.mapLaunch_linkCxl (id : Nat) (f : Launch → Launch) : (s.mapLaunch id f).linkCxl = s.linkCxl := rfl
@[simp] theorem State.mapLaunch_linkCache (id : Nat) (f : Launch → Launch) : (s.mapLaunch id f).linkCache = s.linkCache := rfl
@[simp] theorem State.mapLaunch_msix (id : Nat) (f : Launch → Launch) : (s.mapLaunch id f).msix = s.msix := rfl
@[simp] theorem State.mapLaunch_podcfg (id : Nat) (f : Launch → Launch) : (s.mapLaunch id f).podcfg = s.podcfg := rfl
@[simp] theorem State.mapLaunch_ports (id : Nat) (f : Launch → Launch) : (s.mapLaunch id f).ports = s.ports := rfl
@[simp] theorem State.mapLaunch_reduce (id : Nat) (f : Launch → Launch) : (s.mapLaunch id f).reduce = s.reduce := rfl
@[simp] theorem State.mapLaunch_boot (id : Nat) (f : Launch → Launch) : (s.mapLaunch id f).boot = s.boot := rfl
@[simp] theorem State.mapLaunch_key (id : Nat) (f : Launch → Launch) : (s.mapLaunch id f).key = s.key := rfl
@[simp] theorem State.mapLaunch_errlog (id : Nat) (f : Launch → Launch) : (s.mapLaunch id f).errlog = s.errlog := rfl
@[simp] theorem State.mapLaunch_errpi (id : Nat) (f : Launch → Launch) : (s.mapLaunch id f).errpi = s.errpi := rfl
@[simp] theorem State.mapLaunch_units (id : Nat) (f : Launch → Launch) : (s.mapLaunch id f).units = s.units := rfl
@[simp] theorem State.mapLaunch_retSlices (id : Nat) (f : Launch → Launch) : (s.mapLaunch id f).retSlices = s.retSlices := rfl
@[simp] theorem State.mapLaunch_lostWaves (id : Nat) (f : Launch → Launch) : (s.mapLaunch id f).lostWaves = s.lostWaves := rfl
@[simp] theorem State.mapLaunch_power (id : Nat) (f : Launch → Launch) : (s.mapLaunch id f).power = s.power := rfl
@[simp] theorem State.mapLaunch_output (id : Nat) (f : Launch → Launch) : (s.mapLaunch id f).output = s.output := rfl

@[simp] theorem State.mapOp_now (id : Nat) (f : EngOp → EngOp) : (s.mapOp id f).now = s.now := rfl
@[simp] theorem State.mapOp_schedule (id : Nat) (f : EngOp → EngOp) : (s.mapOp id f).schedule = s.schedule := rfl
@[simp] theorem State.mapOp_free (id : Nat) (f : EngOp → EngOp) : (s.mapOp id f).free = s.free := rfl
@[simp] theorem State.mapOp_nextId (id : Nat) (f : EngOp → EngOp) : (s.mapOp id f).nextId = s.nextId := rfl
@[simp] theorem State.mapOp_cur (id : Nat) (f : EngOp → EngOp) : (s.mapOp id f).cur = s.cur := rfl
@[simp] theorem State.mapOp_mem (id : Nat) (f : EngOp → EngOp) : (s.mapOp id f).mem = s.mem := rfl
@[simp] theorem State.mapOp_sectors (id : Nat) (f : EngOp → EngOp) : (s.mapOp id f).sectors = s.sectors := rfl
@[simp] theorem State.mapOp_accUnits (id : Nat) (f : EngOp → EngOp) : (s.mapOp id f).accUnits = s.accUnits := rfl
@[simp] theorem State.mapOp_poisoned (id : Nat) (f : EngOp → EngOp) : (s.mapOp id f).poisoned = s.poisoned := rfl
@[simp] theorem State.mapOp_owned (id : Nat) (f : EngOp → EngOp) : (s.mapOp id f).owned = s.owned := rfl
@[simp] theorem State.mapOp_directory (id : Nat) (f : EngOp → EngOp) : (s.mapOp id f).directory = s.directory := rfl
@[simp] theorem State.mapOp_writebacks (id : Nat) (f : EngOp → EngOp) : (s.mapOp id f).writebacks = s.writebacks := rfl
@[simp] theorem State.mapOp_flights (id : Nat) (f : EngOp → EngOp) : (s.mapOp id f).flights = s.flights := rfl
@[simp] theorem State.mapOp_versions (id : Nat) (f : EngOp → EngOp) : (s.mapOp id f).versions = s.versions := rfl
@[simp] theorem State.mapOp_tlb (id : Nat) (f : EngOp → EngOp) : (s.mapOp id f).tlb = s.tlb := rfl
@[simp] theorem State.mapOp_tlbBusy (id : Nat) (f : EngOp → EngOp) : (s.mapOp id f).tlbBusy = s.tlbBusy := rfl
@[simp] theorem State.mapOp_tlbiVa (id : Nat) (f : EngOp → EngOp) : (s.mapOp id f).tlbiVa = s.tlbiVa := rfl
@[simp] theorem State.mapOp_vscfg (id : Nat) (f : EngOp → EngOp) : (s.mapOp id f).vscfg = s.vscfg := rfl
@[simp] theorem State.mapOp_vsRefused (id : Nat) (f : EngOp → EngOp) : (s.mapOp id f).vsRefused = s.vsRefused := rfl
@[simp] theorem State.mapOp_cores (id : Nat) (f : EngOp → EngOp) : (s.mapOp id f).cores = s.cores := rfl
@[simp] theorem State.mapOp_clusters (id : Nat) (f : EngOp → EngOp) : (s.mapOp id f).clusters = s.clusters := rfl
@[simp] theorem State.mapOp_teams (id : Nat) (f : EngOp → EngOp) : (s.mapOp id f).teams = s.teams := rfl
@[simp] theorem State.mapOp_saved (id : Nat) (f : EngOp → EngOp) : (s.mapOp id f).saved = s.saved := rfl
@[simp] theorem State.mapOp_gathers (id : Nat) (f : EngOp → EngOp) : (s.mapOp id f).gathers = s.gathers := rfl
@[simp] theorem State.mapOp_launches (id : Nat) (f : EngOp → EngOp) : (s.mapOp id f).launches = s.launches := rfl
@[simp] theorem State.mapOp_joins (id : Nat) (f : EngOp → EngOp) : (s.mapOp id f).joins = s.joins := rfl
@[simp] theorem State.mapOp_heldEntries (id : Nat) (f : EngOp → EngOp) : (s.mapOp id f).heldEntries = s.heldEntries := rfl
@[simp] theorem State.mapOp_messages (id : Nat) (f : EngOp → EngOp) : (s.mapOp id f).messages = s.messages := rfl
@[simp] theorem State.mapOp_latchMsgs (id : Nat) (f : EngOp → EngOp) : (s.mapOp id f).latchMsgs = s.latchMsgs := rfl
@[simp] theorem State.mapOp_remotes (id : Nat) (f : EngOp → EngOp) : (s.mapOp id f).remotes = s.remotes := rfl
@[simp] theorem State.mapOp_remoteAcks (id : Nat) (f : EngOp → EngOp) : (s.mapOp id f).remoteAcks = s.remoteAcks := rfl
@[simp] theorem State.mapOp_acqrs (id : Nat) (f : EngOp → EngOp) : (s.mapOp id f).acqrs = s.acqrs := rfl
@[simp] theorem State.mapOp_slots (id : Nat) (f : EngOp → EngOp) : (s.mapOp id f).slots = s.slots := rfl
@[simp] theorem State.mapOp_faults (id : Nat) (f : EngOp → EngOp) : (s.mapOp id f).faults = s.faults := rfl
@[simp] theorem State.mapOp_w1base (id : Nat) (f : EngOp → EngOp) : (s.mapOp id f).w1base = s.w1base := rfl
@[simp] theorem State.mapOp_w1size (id : Nat) (f : EngOp → EngOp) : (s.mapOp id f).w1size = s.w1size := rfl
@[simp] theorem State.mapOp_linkCxl (id : Nat) (f : EngOp → EngOp) : (s.mapOp id f).linkCxl = s.linkCxl := rfl
@[simp] theorem State.mapOp_linkCache (id : Nat) (f : EngOp → EngOp) : (s.mapOp id f).linkCache = s.linkCache := rfl
@[simp] theorem State.mapOp_msix (id : Nat) (f : EngOp → EngOp) : (s.mapOp id f).msix = s.msix := rfl
@[simp] theorem State.mapOp_podcfg (id : Nat) (f : EngOp → EngOp) : (s.mapOp id f).podcfg = s.podcfg := rfl
@[simp] theorem State.mapOp_ports (id : Nat) (f : EngOp → EngOp) : (s.mapOp id f).ports = s.ports := rfl
@[simp] theorem State.mapOp_reduce (id : Nat) (f : EngOp → EngOp) : (s.mapOp id f).reduce = s.reduce := rfl
@[simp] theorem State.mapOp_boot (id : Nat) (f : EngOp → EngOp) : (s.mapOp id f).boot = s.boot := rfl
@[simp] theorem State.mapOp_key (id : Nat) (f : EngOp → EngOp) : (s.mapOp id f).key = s.key := rfl
@[simp] theorem State.mapOp_errlog (id : Nat) (f : EngOp → EngOp) : (s.mapOp id f).errlog = s.errlog := rfl
@[simp] theorem State.mapOp_errpi (id : Nat) (f : EngOp → EngOp) : (s.mapOp id f).errpi = s.errpi := rfl
@[simp] theorem State.mapOp_units (id : Nat) (f : EngOp → EngOp) : (s.mapOp id f).units = s.units := rfl
@[simp] theorem State.mapOp_retSlices (id : Nat) (f : EngOp → EngOp) : (s.mapOp id f).retSlices = s.retSlices := rfl
@[simp] theorem State.mapOp_lostWaves (id : Nat) (f : EngOp → EngOp) : (s.mapOp id f).lostWaves = s.lostWaves := rfl
@[simp] theorem State.mapOp_power (id : Nat) (f : EngOp → EngOp) : (s.mapOp id f).power = s.power := rfl
@[simp] theorem State.mapOp_output (id : Nat) (f : EngOp → EngOp) : (s.mapOp id f).output = s.output := rfl

@[simp] theorem State.mapFlight_now (id : Nat) (f : Flight → Flight) : (s.mapFlight id f).now = s.now := rfl
@[simp] theorem State.mapFlight_schedule (id : Nat) (f : Flight → Flight) : (s.mapFlight id f).schedule = s.schedule := rfl
@[simp] theorem State.mapFlight_free (id : Nat) (f : Flight → Flight) : (s.mapFlight id f).free = s.free := rfl
@[simp] theorem State.mapFlight_nextId (id : Nat) (f : Flight → Flight) : (s.mapFlight id f).nextId = s.nextId := rfl
@[simp] theorem State.mapFlight_cur (id : Nat) (f : Flight → Flight) : (s.mapFlight id f).cur = s.cur := rfl
@[simp] theorem State.mapFlight_mem (id : Nat) (f : Flight → Flight) : (s.mapFlight id f).mem = s.mem := rfl
@[simp] theorem State.mapFlight_sectors (id : Nat) (f : Flight → Flight) : (s.mapFlight id f).sectors = s.sectors := rfl
@[simp] theorem State.mapFlight_accUnits (id : Nat) (f : Flight → Flight) : (s.mapFlight id f).accUnits = s.accUnits := rfl
@[simp] theorem State.mapFlight_poisoned (id : Nat) (f : Flight → Flight) : (s.mapFlight id f).poisoned = s.poisoned := rfl
@[simp] theorem State.mapFlight_owned (id : Nat) (f : Flight → Flight) : (s.mapFlight id f).owned = s.owned := rfl
@[simp] theorem State.mapFlight_directory (id : Nat) (f : Flight → Flight) : (s.mapFlight id f).directory = s.directory := rfl
@[simp] theorem State.mapFlight_writebacks (id : Nat) (f : Flight → Flight) : (s.mapFlight id f).writebacks = s.writebacks := rfl
@[simp] theorem State.mapFlight_versions (id : Nat) (f : Flight → Flight) : (s.mapFlight id f).versions = s.versions := rfl
@[simp] theorem State.mapFlight_tlb (id : Nat) (f : Flight → Flight) : (s.mapFlight id f).tlb = s.tlb := rfl
@[simp] theorem State.mapFlight_tlbBusy (id : Nat) (f : Flight → Flight) : (s.mapFlight id f).tlbBusy = s.tlbBusy := rfl
@[simp] theorem State.mapFlight_tlbiVa (id : Nat) (f : Flight → Flight) : (s.mapFlight id f).tlbiVa = s.tlbiVa := rfl
@[simp] theorem State.mapFlight_vscfg (id : Nat) (f : Flight → Flight) : (s.mapFlight id f).vscfg = s.vscfg := rfl
@[simp] theorem State.mapFlight_vsRefused (id : Nat) (f : Flight → Flight) : (s.mapFlight id f).vsRefused = s.vsRefused := rfl
@[simp] theorem State.mapFlight_cores (id : Nat) (f : Flight → Flight) : (s.mapFlight id f).cores = s.cores := rfl
@[simp] theorem State.mapFlight_clusters (id : Nat) (f : Flight → Flight) : (s.mapFlight id f).clusters = s.clusters := rfl
@[simp] theorem State.mapFlight_teams (id : Nat) (f : Flight → Flight) : (s.mapFlight id f).teams = s.teams := rfl
@[simp] theorem State.mapFlight_saved (id : Nat) (f : Flight → Flight) : (s.mapFlight id f).saved = s.saved := rfl
@[simp] theorem State.mapFlight_ops (id : Nat) (f : Flight → Flight) : (s.mapFlight id f).ops = s.ops := rfl
@[simp] theorem State.mapFlight_gathers (id : Nat) (f : Flight → Flight) : (s.mapFlight id f).gathers = s.gathers := rfl
@[simp] theorem State.mapFlight_launches (id : Nat) (f : Flight → Flight) : (s.mapFlight id f).launches = s.launches := rfl
@[simp] theorem State.mapFlight_joins (id : Nat) (f : Flight → Flight) : (s.mapFlight id f).joins = s.joins := rfl
@[simp] theorem State.mapFlight_heldEntries (id : Nat) (f : Flight → Flight) : (s.mapFlight id f).heldEntries = s.heldEntries := rfl
@[simp] theorem State.mapFlight_messages (id : Nat) (f : Flight → Flight) : (s.mapFlight id f).messages = s.messages := rfl
@[simp] theorem State.mapFlight_latchMsgs (id : Nat) (f : Flight → Flight) : (s.mapFlight id f).latchMsgs = s.latchMsgs := rfl
@[simp] theorem State.mapFlight_remotes (id : Nat) (f : Flight → Flight) : (s.mapFlight id f).remotes = s.remotes := rfl
@[simp] theorem State.mapFlight_remoteAcks (id : Nat) (f : Flight → Flight) : (s.mapFlight id f).remoteAcks = s.remoteAcks := rfl
@[simp] theorem State.mapFlight_acqrs (id : Nat) (f : Flight → Flight) : (s.mapFlight id f).acqrs = s.acqrs := rfl
@[simp] theorem State.mapFlight_slots (id : Nat) (f : Flight → Flight) : (s.mapFlight id f).slots = s.slots := rfl
@[simp] theorem State.mapFlight_faults (id : Nat) (f : Flight → Flight) : (s.mapFlight id f).faults = s.faults := rfl
@[simp] theorem State.mapFlight_w1base (id : Nat) (f : Flight → Flight) : (s.mapFlight id f).w1base = s.w1base := rfl
@[simp] theorem State.mapFlight_w1size (id : Nat) (f : Flight → Flight) : (s.mapFlight id f).w1size = s.w1size := rfl
@[simp] theorem State.mapFlight_linkCxl (id : Nat) (f : Flight → Flight) : (s.mapFlight id f).linkCxl = s.linkCxl := rfl
@[simp] theorem State.mapFlight_linkCache (id : Nat) (f : Flight → Flight) : (s.mapFlight id f).linkCache = s.linkCache := rfl
@[simp] theorem State.mapFlight_msix (id : Nat) (f : Flight → Flight) : (s.mapFlight id f).msix = s.msix := rfl
@[simp] theorem State.mapFlight_podcfg (id : Nat) (f : Flight → Flight) : (s.mapFlight id f).podcfg = s.podcfg := rfl
@[simp] theorem State.mapFlight_ports (id : Nat) (f : Flight → Flight) : (s.mapFlight id f).ports = s.ports := rfl
@[simp] theorem State.mapFlight_reduce (id : Nat) (f : Flight → Flight) : (s.mapFlight id f).reduce = s.reduce := rfl
@[simp] theorem State.mapFlight_boot (id : Nat) (f : Flight → Flight) : (s.mapFlight id f).boot = s.boot := rfl
@[simp] theorem State.mapFlight_key (id : Nat) (f : Flight → Flight) : (s.mapFlight id f).key = s.key := rfl
@[simp] theorem State.mapFlight_errlog (id : Nat) (f : Flight → Flight) : (s.mapFlight id f).errlog = s.errlog := rfl
@[simp] theorem State.mapFlight_errpi (id : Nat) (f : Flight → Flight) : (s.mapFlight id f).errpi = s.errpi := rfl
@[simp] theorem State.mapFlight_units (id : Nat) (f : Flight → Flight) : (s.mapFlight id f).units = s.units := rfl
@[simp] theorem State.mapFlight_retSlices (id : Nat) (f : Flight → Flight) : (s.mapFlight id f).retSlices = s.retSlices := rfl
@[simp] theorem State.mapFlight_lostWaves (id : Nat) (f : Flight → Flight) : (s.mapFlight id f).lostWaves = s.lostWaves := rfl
@[simp] theorem State.mapFlight_power (id : Nat) (f : Flight → Flight) : (s.mapFlight id f).power = s.power := rfl
@[simp] theorem State.mapFlight_output (id : Nat) (f : Flight → Flight) : (s.mapFlight id f).output = s.output := rfl

@[simp] theorem State.mapGather_now (g : Gather) (f : Gather → Gather) : (s.mapGather g f).now = s.now := rfl
@[simp] theorem State.mapGather_schedule (g : Gather) (f : Gather → Gather) : (s.mapGather g f).schedule = s.schedule := rfl
@[simp] theorem State.mapGather_free (g : Gather) (f : Gather → Gather) : (s.mapGather g f).free = s.free := rfl
@[simp] theorem State.mapGather_nextId (g : Gather) (f : Gather → Gather) : (s.mapGather g f).nextId = s.nextId := rfl
@[simp] theorem State.mapGather_cur (g : Gather) (f : Gather → Gather) : (s.mapGather g f).cur = s.cur := rfl
@[simp] theorem State.mapGather_mem (g : Gather) (f : Gather → Gather) : (s.mapGather g f).mem = s.mem := rfl
@[simp] theorem State.mapGather_sectors (g : Gather) (f : Gather → Gather) : (s.mapGather g f).sectors = s.sectors := rfl
@[simp] theorem State.mapGather_accUnits (g : Gather) (f : Gather → Gather) : (s.mapGather g f).accUnits = s.accUnits := rfl
@[simp] theorem State.mapGather_poisoned (g : Gather) (f : Gather → Gather) : (s.mapGather g f).poisoned = s.poisoned := rfl
@[simp] theorem State.mapGather_owned (g : Gather) (f : Gather → Gather) : (s.mapGather g f).owned = s.owned := rfl
@[simp] theorem State.mapGather_directory (g : Gather) (f : Gather → Gather) : (s.mapGather g f).directory = s.directory := rfl
@[simp] theorem State.mapGather_writebacks (g : Gather) (f : Gather → Gather) : (s.mapGather g f).writebacks = s.writebacks := rfl
@[simp] theorem State.mapGather_flights (g : Gather) (f : Gather → Gather) : (s.mapGather g f).flights = s.flights := rfl
@[simp] theorem State.mapGather_versions (g : Gather) (f : Gather → Gather) : (s.mapGather g f).versions = s.versions := rfl
@[simp] theorem State.mapGather_tlb (g : Gather) (f : Gather → Gather) : (s.mapGather g f).tlb = s.tlb := rfl
@[simp] theorem State.mapGather_tlbBusy (g : Gather) (f : Gather → Gather) : (s.mapGather g f).tlbBusy = s.tlbBusy := rfl
@[simp] theorem State.mapGather_tlbiVa (g : Gather) (f : Gather → Gather) : (s.mapGather g f).tlbiVa = s.tlbiVa := rfl
@[simp] theorem State.mapGather_vscfg (g : Gather) (f : Gather → Gather) : (s.mapGather g f).vscfg = s.vscfg := rfl
@[simp] theorem State.mapGather_vsRefused (g : Gather) (f : Gather → Gather) : (s.mapGather g f).vsRefused = s.vsRefused := rfl
@[simp] theorem State.mapGather_cores (g : Gather) (f : Gather → Gather) : (s.mapGather g f).cores = s.cores := rfl
@[simp] theorem State.mapGather_clusters (g : Gather) (f : Gather → Gather) : (s.mapGather g f).clusters = s.clusters := rfl
@[simp] theorem State.mapGather_teams (g : Gather) (f : Gather → Gather) : (s.mapGather g f).teams = s.teams := rfl
@[simp] theorem State.mapGather_saved (g : Gather) (f : Gather → Gather) : (s.mapGather g f).saved = s.saved := rfl
@[simp] theorem State.mapGather_ops (g : Gather) (f : Gather → Gather) : (s.mapGather g f).ops = s.ops := rfl
@[simp] theorem State.mapGather_launches (g : Gather) (f : Gather → Gather) : (s.mapGather g f).launches = s.launches := rfl
@[simp] theorem State.mapGather_joins (g : Gather) (f : Gather → Gather) : (s.mapGather g f).joins = s.joins := rfl
@[simp] theorem State.mapGather_heldEntries (g : Gather) (f : Gather → Gather) : (s.mapGather g f).heldEntries = s.heldEntries := rfl
@[simp] theorem State.mapGather_messages (g : Gather) (f : Gather → Gather) : (s.mapGather g f).messages = s.messages := rfl
@[simp] theorem State.mapGather_latchMsgs (g : Gather) (f : Gather → Gather) : (s.mapGather g f).latchMsgs = s.latchMsgs := rfl
@[simp] theorem State.mapGather_remotes (g : Gather) (f : Gather → Gather) : (s.mapGather g f).remotes = s.remotes := rfl
@[simp] theorem State.mapGather_remoteAcks (g : Gather) (f : Gather → Gather) : (s.mapGather g f).remoteAcks = s.remoteAcks := rfl
@[simp] theorem State.mapGather_acqrs (g : Gather) (f : Gather → Gather) : (s.mapGather g f).acqrs = s.acqrs := rfl
@[simp] theorem State.mapGather_slots (g : Gather) (f : Gather → Gather) : (s.mapGather g f).slots = s.slots := rfl
@[simp] theorem State.mapGather_faults (g : Gather) (f : Gather → Gather) : (s.mapGather g f).faults = s.faults := rfl
@[simp] theorem State.mapGather_w1base (g : Gather) (f : Gather → Gather) : (s.mapGather g f).w1base = s.w1base := rfl
@[simp] theorem State.mapGather_w1size (g : Gather) (f : Gather → Gather) : (s.mapGather g f).w1size = s.w1size := rfl
@[simp] theorem State.mapGather_linkCxl (g : Gather) (f : Gather → Gather) : (s.mapGather g f).linkCxl = s.linkCxl := rfl
@[simp] theorem State.mapGather_linkCache (g : Gather) (f : Gather → Gather) : (s.mapGather g f).linkCache = s.linkCache := rfl
@[simp] theorem State.mapGather_msix (g : Gather) (f : Gather → Gather) : (s.mapGather g f).msix = s.msix := rfl
@[simp] theorem State.mapGather_podcfg (g : Gather) (f : Gather → Gather) : (s.mapGather g f).podcfg = s.podcfg := rfl
@[simp] theorem State.mapGather_ports (g : Gather) (f : Gather → Gather) : (s.mapGather g f).ports = s.ports := rfl
@[simp] theorem State.mapGather_reduce (g : Gather) (f : Gather → Gather) : (s.mapGather g f).reduce = s.reduce := rfl
@[simp] theorem State.mapGather_boot (g : Gather) (f : Gather → Gather) : (s.mapGather g f).boot = s.boot := rfl
@[simp] theorem State.mapGather_key (g : Gather) (f : Gather → Gather) : (s.mapGather g f).key = s.key := rfl
@[simp] theorem State.mapGather_errlog (g : Gather) (f : Gather → Gather) : (s.mapGather g f).errlog = s.errlog := rfl
@[simp] theorem State.mapGather_errpi (g : Gather) (f : Gather → Gather) : (s.mapGather g f).errpi = s.errpi := rfl
@[simp] theorem State.mapGather_units (g : Gather) (f : Gather → Gather) : (s.mapGather g f).units = s.units := rfl
@[simp] theorem State.mapGather_retSlices (g : Gather) (f : Gather → Gather) : (s.mapGather g f).retSlices = s.retSlices := rfl
@[simp] theorem State.mapGather_lostWaves (g : Gather) (f : Gather → Gather) : (s.mapGather g f).lostWaves = s.lostWaves := rfl
@[simp] theorem State.mapGather_power (g : Gather) (f : Gather → Gather) : (s.mapGather g f).power = s.power := rfl
@[simp] theorem State.mapGather_output (g : Gather) (f : Gather → Gather) : (s.mapGather g f).output = s.output := rfl

@[simp] theorem State.setTimes_now (x : SectorTimes) : (s.setTimes x).now = s.now := rfl
@[simp] theorem State.setTimes_schedule (x : SectorTimes) : (s.setTimes x).schedule = s.schedule := rfl
@[simp] theorem State.setTimes_free (x : SectorTimes) : (s.setTimes x).free = s.free := rfl
@[simp] theorem State.setTimes_nextId (x : SectorTimes) : (s.setTimes x).nextId = s.nextId := rfl
@[simp] theorem State.setTimes_cur (x : SectorTimes) : (s.setTimes x).cur = s.cur := rfl
@[simp] theorem State.setTimes_mem (x : SectorTimes) : (s.setTimes x).mem = s.mem := rfl
@[simp] theorem State.setTimes_accUnits (x : SectorTimes) : (s.setTimes x).accUnits = s.accUnits := rfl
@[simp] theorem State.setTimes_poisoned (x : SectorTimes) : (s.setTimes x).poisoned = s.poisoned := rfl
@[simp] theorem State.setTimes_owned (x : SectorTimes) : (s.setTimes x).owned = s.owned := rfl
@[simp] theorem State.setTimes_directory (x : SectorTimes) : (s.setTimes x).directory = s.directory := rfl
@[simp] theorem State.setTimes_writebacks (x : SectorTimes) : (s.setTimes x).writebacks = s.writebacks := rfl
@[simp] theorem State.setTimes_flights (x : SectorTimes) : (s.setTimes x).flights = s.flights := rfl
@[simp] theorem State.setTimes_versions (x : SectorTimes) : (s.setTimes x).versions = s.versions := rfl
@[simp] theorem State.setTimes_tlb (x : SectorTimes) : (s.setTimes x).tlb = s.tlb := rfl
@[simp] theorem State.setTimes_tlbBusy (x : SectorTimes) : (s.setTimes x).tlbBusy = s.tlbBusy := rfl
@[simp] theorem State.setTimes_tlbiVa (x : SectorTimes) : (s.setTimes x).tlbiVa = s.tlbiVa := rfl
@[simp] theorem State.setTimes_vscfg (x : SectorTimes) : (s.setTimes x).vscfg = s.vscfg := rfl
@[simp] theorem State.setTimes_vsRefused (x : SectorTimes) : (s.setTimes x).vsRefused = s.vsRefused := rfl
@[simp] theorem State.setTimes_cores (x : SectorTimes) : (s.setTimes x).cores = s.cores := rfl
@[simp] theorem State.setTimes_clusters (x : SectorTimes) : (s.setTimes x).clusters = s.clusters := rfl
@[simp] theorem State.setTimes_teams (x : SectorTimes) : (s.setTimes x).teams = s.teams := rfl
@[simp] theorem State.setTimes_saved (x : SectorTimes) : (s.setTimes x).saved = s.saved := rfl
@[simp] theorem State.setTimes_ops (x : SectorTimes) : (s.setTimes x).ops = s.ops := rfl
@[simp] theorem State.setTimes_gathers (x : SectorTimes) : (s.setTimes x).gathers = s.gathers := rfl
@[simp] theorem State.setTimes_launches (x : SectorTimes) : (s.setTimes x).launches = s.launches := rfl
@[simp] theorem State.setTimes_joins (x : SectorTimes) : (s.setTimes x).joins = s.joins := rfl
@[simp] theorem State.setTimes_heldEntries (x : SectorTimes) : (s.setTimes x).heldEntries = s.heldEntries := rfl
@[simp] theorem State.setTimes_messages (x : SectorTimes) : (s.setTimes x).messages = s.messages := rfl
@[simp] theorem State.setTimes_latchMsgs (x : SectorTimes) : (s.setTimes x).latchMsgs = s.latchMsgs := rfl
@[simp] theorem State.setTimes_remotes (x : SectorTimes) : (s.setTimes x).remotes = s.remotes := rfl
@[simp] theorem State.setTimes_remoteAcks (x : SectorTimes) : (s.setTimes x).remoteAcks = s.remoteAcks := rfl
@[simp] theorem State.setTimes_acqrs (x : SectorTimes) : (s.setTimes x).acqrs = s.acqrs := rfl
@[simp] theorem State.setTimes_slots (x : SectorTimes) : (s.setTimes x).slots = s.slots := rfl
@[simp] theorem State.setTimes_faults (x : SectorTimes) : (s.setTimes x).faults = s.faults := rfl
@[simp] theorem State.setTimes_w1base (x : SectorTimes) : (s.setTimes x).w1base = s.w1base := rfl
@[simp] theorem State.setTimes_w1size (x : SectorTimes) : (s.setTimes x).w1size = s.w1size := rfl
@[simp] theorem State.setTimes_linkCxl (x : SectorTimes) : (s.setTimes x).linkCxl = s.linkCxl := rfl
@[simp] theorem State.setTimes_linkCache (x : SectorTimes) : (s.setTimes x).linkCache = s.linkCache := rfl
@[simp] theorem State.setTimes_msix (x : SectorTimes) : (s.setTimes x).msix = s.msix := rfl
@[simp] theorem State.setTimes_podcfg (x : SectorTimes) : (s.setTimes x).podcfg = s.podcfg := rfl
@[simp] theorem State.setTimes_ports (x : SectorTimes) : (s.setTimes x).ports = s.ports := rfl
@[simp] theorem State.setTimes_reduce (x : SectorTimes) : (s.setTimes x).reduce = s.reduce := rfl
@[simp] theorem State.setTimes_boot (x : SectorTimes) : (s.setTimes x).boot = s.boot := rfl
@[simp] theorem State.setTimes_key (x : SectorTimes) : (s.setTimes x).key = s.key := rfl
@[simp] theorem State.setTimes_errlog (x : SectorTimes) : (s.setTimes x).errlog = s.errlog := rfl
@[simp] theorem State.setTimes_errpi (x : SectorTimes) : (s.setTimes x).errpi = s.errpi := rfl
@[simp] theorem State.setTimes_units (x : SectorTimes) : (s.setTimes x).units = s.units := rfl
@[simp] theorem State.setTimes_retSlices (x : SectorTimes) : (s.setTimes x).retSlices = s.retSlices := rfl
@[simp] theorem State.setTimes_lostWaves (x : SectorTimes) : (s.setTimes x).lostWaves = s.lostWaves := rfl
@[simp] theorem State.setTimes_power (x : SectorTimes) : (s.setTimes x).power = s.power := rfl
@[simp] theorem State.setTimes_output (x : SectorTimes) : (s.setTimes x).output = s.output := rfl

@[simp] theorem State.setUnit_now (u : UnitLog) : (s.setUnit u).now = s.now := rfl
@[simp] theorem State.setUnit_schedule (u : UnitLog) : (s.setUnit u).schedule = s.schedule := rfl
@[simp] theorem State.setUnit_free (u : UnitLog) : (s.setUnit u).free = s.free := rfl
@[simp] theorem State.setUnit_nextId (u : UnitLog) : (s.setUnit u).nextId = s.nextId := rfl
@[simp] theorem State.setUnit_cur (u : UnitLog) : (s.setUnit u).cur = s.cur := rfl
@[simp] theorem State.setUnit_mem (u : UnitLog) : (s.setUnit u).mem = s.mem := rfl
@[simp] theorem State.setUnit_sectors (u : UnitLog) : (s.setUnit u).sectors = s.sectors := rfl
@[simp] theorem State.setUnit_accUnits (u : UnitLog) : (s.setUnit u).accUnits = s.accUnits := rfl
@[simp] theorem State.setUnit_poisoned (u : UnitLog) : (s.setUnit u).poisoned = s.poisoned := rfl
@[simp] theorem State.setUnit_owned (u : UnitLog) : (s.setUnit u).owned = s.owned := rfl
@[simp] theorem State.setUnit_directory (u : UnitLog) : (s.setUnit u).directory = s.directory := rfl
@[simp] theorem State.setUnit_writebacks (u : UnitLog) : (s.setUnit u).writebacks = s.writebacks := rfl
@[simp] theorem State.setUnit_flights (u : UnitLog) : (s.setUnit u).flights = s.flights := rfl
@[simp] theorem State.setUnit_versions (u : UnitLog) : (s.setUnit u).versions = s.versions := rfl
@[simp] theorem State.setUnit_tlb (u : UnitLog) : (s.setUnit u).tlb = s.tlb := rfl
@[simp] theorem State.setUnit_tlbBusy (u : UnitLog) : (s.setUnit u).tlbBusy = s.tlbBusy := rfl
@[simp] theorem State.setUnit_tlbiVa (u : UnitLog) : (s.setUnit u).tlbiVa = s.tlbiVa := rfl
@[simp] theorem State.setUnit_vscfg (u : UnitLog) : (s.setUnit u).vscfg = s.vscfg := rfl
@[simp] theorem State.setUnit_vsRefused (u : UnitLog) : (s.setUnit u).vsRefused = s.vsRefused := rfl
@[simp] theorem State.setUnit_cores (u : UnitLog) : (s.setUnit u).cores = s.cores := rfl
@[simp] theorem State.setUnit_clusters (u : UnitLog) : (s.setUnit u).clusters = s.clusters := rfl
@[simp] theorem State.setUnit_teams (u : UnitLog) : (s.setUnit u).teams = s.teams := rfl
@[simp] theorem State.setUnit_saved (u : UnitLog) : (s.setUnit u).saved = s.saved := rfl
@[simp] theorem State.setUnit_ops (u : UnitLog) : (s.setUnit u).ops = s.ops := rfl
@[simp] theorem State.setUnit_gathers (u : UnitLog) : (s.setUnit u).gathers = s.gathers := rfl
@[simp] theorem State.setUnit_launches (u : UnitLog) : (s.setUnit u).launches = s.launches := rfl
@[simp] theorem State.setUnit_joins (u : UnitLog) : (s.setUnit u).joins = s.joins := rfl
@[simp] theorem State.setUnit_heldEntries (u : UnitLog) : (s.setUnit u).heldEntries = s.heldEntries := rfl
@[simp] theorem State.setUnit_messages (u : UnitLog) : (s.setUnit u).messages = s.messages := rfl
@[simp] theorem State.setUnit_latchMsgs (u : UnitLog) : (s.setUnit u).latchMsgs = s.latchMsgs := rfl
@[simp] theorem State.setUnit_remotes (u : UnitLog) : (s.setUnit u).remotes = s.remotes := rfl
@[simp] theorem State.setUnit_remoteAcks (u : UnitLog) : (s.setUnit u).remoteAcks = s.remoteAcks := rfl
@[simp] theorem State.setUnit_acqrs (u : UnitLog) : (s.setUnit u).acqrs = s.acqrs := rfl
@[simp] theorem State.setUnit_slots (u : UnitLog) : (s.setUnit u).slots = s.slots := rfl
@[simp] theorem State.setUnit_faults (u : UnitLog) : (s.setUnit u).faults = s.faults := rfl
@[simp] theorem State.setUnit_w1base (u : UnitLog) : (s.setUnit u).w1base = s.w1base := rfl
@[simp] theorem State.setUnit_w1size (u : UnitLog) : (s.setUnit u).w1size = s.w1size := rfl
@[simp] theorem State.setUnit_linkCxl (u : UnitLog) : (s.setUnit u).linkCxl = s.linkCxl := rfl
@[simp] theorem State.setUnit_linkCache (u : UnitLog) : (s.setUnit u).linkCache = s.linkCache := rfl
@[simp] theorem State.setUnit_msix (u : UnitLog) : (s.setUnit u).msix = s.msix := rfl
@[simp] theorem State.setUnit_podcfg (u : UnitLog) : (s.setUnit u).podcfg = s.podcfg := rfl
@[simp] theorem State.setUnit_ports (u : UnitLog) : (s.setUnit u).ports = s.ports := rfl
@[simp] theorem State.setUnit_reduce (u : UnitLog) : (s.setUnit u).reduce = s.reduce := rfl
@[simp] theorem State.setUnit_boot (u : UnitLog) : (s.setUnit u).boot = s.boot := rfl
@[simp] theorem State.setUnit_key (u : UnitLog) : (s.setUnit u).key = s.key := rfl
@[simp] theorem State.setUnit_errlog (u : UnitLog) : (s.setUnit u).errlog = s.errlog := rfl
@[simp] theorem State.setUnit_errpi (u : UnitLog) : (s.setUnit u).errpi = s.errpi := rfl
@[simp] theorem State.setUnit_retSlices (u : UnitLog) : (s.setUnit u).retSlices = s.retSlices := rfl
@[simp] theorem State.setUnit_lostWaves (u : UnitLog) : (s.setUnit u).lostWaves = s.lostWaves := rfl
@[simp] theorem State.setUnit_power (u : UnitLog) : (s.setUnit u).power = s.power := rfl
@[simp] theorem State.setUnit_output (u : UnitLog) : (s.setUnit u).output = s.output := rfl

@[simp] theorem State.sendVector_now (v : Nat) : (s.sendVector v).now = s.now := rfl
@[simp] theorem State.sendVector_schedule (v : Nat) : (s.sendVector v).schedule = s.schedule := rfl
@[simp] theorem State.sendVector_free (v : Nat) : (s.sendVector v).free = s.free := rfl
@[simp] theorem State.sendVector_nextId (v : Nat) : (s.sendVector v).nextId = s.nextId := rfl
@[simp] theorem State.sendVector_cur (v : Nat) : (s.sendVector v).cur = s.cur := rfl
@[simp] theorem State.sendVector_mem (v : Nat) : (s.sendVector v).mem = s.mem := rfl
@[simp] theorem State.sendVector_sectors (v : Nat) : (s.sendVector v).sectors = s.sectors := rfl
@[simp] theorem State.sendVector_accUnits (v : Nat) : (s.sendVector v).accUnits = s.accUnits := rfl
@[simp] theorem State.sendVector_poisoned (v : Nat) : (s.sendVector v).poisoned = s.poisoned := rfl
@[simp] theorem State.sendVector_owned (v : Nat) : (s.sendVector v).owned = s.owned := rfl
@[simp] theorem State.sendVector_directory (v : Nat) : (s.sendVector v).directory = s.directory := rfl
@[simp] theorem State.sendVector_writebacks (v : Nat) : (s.sendVector v).writebacks = s.writebacks := rfl
@[simp] theorem State.sendVector_flights (v : Nat) : (s.sendVector v).flights = s.flights := rfl
@[simp] theorem State.sendVector_versions (v : Nat) : (s.sendVector v).versions = s.versions := rfl
@[simp] theorem State.sendVector_tlb (v : Nat) : (s.sendVector v).tlb = s.tlb := rfl
@[simp] theorem State.sendVector_tlbBusy (v : Nat) : (s.sendVector v).tlbBusy = s.tlbBusy := rfl
@[simp] theorem State.sendVector_tlbiVa (v : Nat) : (s.sendVector v).tlbiVa = s.tlbiVa := rfl
@[simp] theorem State.sendVector_vscfg (v : Nat) : (s.sendVector v).vscfg = s.vscfg := rfl
@[simp] theorem State.sendVector_vsRefused (v : Nat) : (s.sendVector v).vsRefused = s.vsRefused := rfl
@[simp] theorem State.sendVector_cores (v : Nat) : (s.sendVector v).cores = s.cores := rfl
@[simp] theorem State.sendVector_clusters (v : Nat) : (s.sendVector v).clusters = s.clusters := rfl
@[simp] theorem State.sendVector_teams (v : Nat) : (s.sendVector v).teams = s.teams := rfl
@[simp] theorem State.sendVector_saved (v : Nat) : (s.sendVector v).saved = s.saved := rfl
@[simp] theorem State.sendVector_ops (v : Nat) : (s.sendVector v).ops = s.ops := rfl
@[simp] theorem State.sendVector_gathers (v : Nat) : (s.sendVector v).gathers = s.gathers := rfl
@[simp] theorem State.sendVector_launches (v : Nat) : (s.sendVector v).launches = s.launches := rfl
@[simp] theorem State.sendVector_joins (v : Nat) : (s.sendVector v).joins = s.joins := rfl
@[simp] theorem State.sendVector_heldEntries (v : Nat) : (s.sendVector v).heldEntries = s.heldEntries := rfl
@[simp] theorem State.sendVector_messages (v : Nat) : (s.sendVector v).messages = s.messages := rfl
@[simp] theorem State.sendVector_latchMsgs (v : Nat) : (s.sendVector v).latchMsgs = s.latchMsgs := rfl
@[simp] theorem State.sendVector_remotes (v : Nat) : (s.sendVector v).remotes = s.remotes := rfl
@[simp] theorem State.sendVector_remoteAcks (v : Nat) : (s.sendVector v).remoteAcks = s.remoteAcks := rfl
@[simp] theorem State.sendVector_acqrs (v : Nat) : (s.sendVector v).acqrs = s.acqrs := rfl
@[simp] theorem State.sendVector_slots (v : Nat) : (s.sendVector v).slots = s.slots := rfl
@[simp] theorem State.sendVector_faults (v : Nat) : (s.sendVector v).faults = s.faults := rfl
@[simp] theorem State.sendVector_w1base (v : Nat) : (s.sendVector v).w1base = s.w1base := rfl
@[simp] theorem State.sendVector_w1size (v : Nat) : (s.sendVector v).w1size = s.w1size := rfl
@[simp] theorem State.sendVector_linkCxl (v : Nat) : (s.sendVector v).linkCxl = s.linkCxl := rfl
@[simp] theorem State.sendVector_linkCache (v : Nat) : (s.sendVector v).linkCache = s.linkCache := rfl
@[simp] theorem State.sendVector_msix (v : Nat) : (s.sendVector v).msix = s.msix := rfl
@[simp] theorem State.sendVector_podcfg (v : Nat) : (s.sendVector v).podcfg = s.podcfg := rfl
@[simp] theorem State.sendVector_ports (v : Nat) : (s.sendVector v).ports = s.ports := rfl
@[simp] theorem State.sendVector_reduce (v : Nat) : (s.sendVector v).reduce = s.reduce := rfl
@[simp] theorem State.sendVector_boot (v : Nat) : (s.sendVector v).boot = s.boot := rfl
@[simp] theorem State.sendVector_key (v : Nat) : (s.sendVector v).key = s.key := rfl
@[simp] theorem State.sendVector_errlog (v : Nat) : (s.sendVector v).errlog = s.errlog := rfl
@[simp] theorem State.sendVector_errpi (v : Nat) : (s.sendVector v).errpi = s.errpi := rfl
@[simp] theorem State.sendVector_units (v : Nat) : (s.sendVector v).units = s.units := rfl
@[simp] theorem State.sendVector_retSlices (v : Nat) : (s.sendVector v).retSlices = s.retSlices := rfl
@[simp] theorem State.sendVector_lostWaves (v : Nat) : (s.sendVector v).lostWaves = s.lostWaves := rfl
@[simp] theorem State.sendVector_power (v : Nat) : (s.sendVector v).power = s.power := rfl

end Sys2Proof.Machine
end

