-- ==== Sys2Proof/Laws/Memory.lean ====
section
/-! SUPPORT. Byte stores: a write keeps the canonical form, a read gives the byte last written there, and the operations of
the home slices keep the form. -/

namespace Sys2Proof.Machine

open Sys2Proof

/-! ## One byte -/

theorem Memory.wfFrom_mono {lo lo' : Nat} (h : lo' ≤ lo) : ∀ {m : Memory}, Memory.wfFrom lo m = true → Memory.wfFrom lo' m = true
  | [], _ => rfl
  | (k, b) :: rest, hm => by
    simp only [Memory.wfFrom, Bool.and_eq_true, decide_eq_true_eq, bne_iff_ne] at hm ⊢
    exact ⟨⟨Nat.le_trans h hm.1.1, hm.1.2⟩, hm.2⟩

theorem Memory.wfFrom_write {b : Byte} {a : Nat} : ∀ {m : Memory} {lo : Nat}, lo ≤ a → Memory.wfFrom lo m = true →
    Memory.wfFrom lo (Memory.write m a b) = true
  | [], lo, h, _ => by
    rw [Memory.write]
    split
    · rfl
    · next hb =>
      simp only [Memory.wfFrom, Bool.and_eq_true, decide_eq_true_eq, bne_iff_ne]
      exact ⟨⟨h, hb⟩, trivial⟩
  | (k, c) :: rest, lo, h, hm => by
    have hm' := hm
    simp only [Memory.wfFrom, Bool.and_eq_true, decide_eq_true_eq, bne_iff_ne] at hm'
    rw [Memory.write]
    split
    · next hk =>
      split
      · exact hm
      · next hb =>
        simp only [Memory.wfFrom, Bool.and_eq_true, decide_eq_true_eq, bne_iff_ne]
        exact ⟨⟨h, hb⟩, ⟨hk, hm'.1.2⟩, hm'.2⟩
    · next hk =>
      split
      · next he =>
        subst he
        split
        · exact Memory.wfFrom_mono (by omega) hm'.2
        · next hb =>
          simp only [Memory.wfFrom, Bool.and_eq_true, decide_eq_true_eq, bne_iff_ne]
          exact ⟨⟨h, hb⟩, hm'.2⟩
      · next he =>
        simp only [Memory.wfFrom, Bool.and_eq_true, decide_eq_true_eq, bne_iff_ne]
        exact ⟨hm'.1, Memory.wfFrom_write (by omega) hm'.2⟩

theorem Memory.wf_write {m : Memory} (h : Memory.wf m = true) (a : Nat) (b : Byte) : Memory.wf (Memory.write m a b) = true :=
  Memory.wfFrom_write (Nat.zero_le a) h

/-- Below the first address a store reads zero. -/
theorem Memory.read_below {a : Nat} : ∀ {m : Memory} {lo : Nat}, Memory.wfFrom lo m = true → a < lo → Memory.read m a = 0
  | [], _, _, _ => rfl
  | (k, b) :: rest, lo, hm, h => by
    simp only [Memory.wfFrom, Bool.and_eq_true, decide_eq_true_eq] at hm
    rw [Memory.read, if_pos (by omega)]

/-- A read after a write: the byte written at its address, the old byte anywhere else. -/
theorem Memory.read_write {b : Byte} {a x : Nat} : ∀ {m : Memory} {lo : Nat}, Memory.wfFrom lo m = true →
    Memory.read (Memory.write m a b) x = if x = a then b else Memory.read m x
  | [], _, _ => by
    rw [Memory.write]
    split
    · next h => subst h; simp [Memory.read]
    · simp only [Memory.read]; split <;> split <;> simp_all <;> omega
  | (k, c) :: rest, lo, hm => by
    have hm' := hm
    simp only [Memory.wfFrom, Bool.and_eq_true, decide_eq_true_eq] at hm'
    rw [Memory.write]
    split
    · next hk =>
      split
      · next hb =>
        split
        · next h => rw [h, hb, Memory.read, if_pos hk]
        · rfl
      · rw [Memory.read]
        split
        · next h => rw [if_neg (by omega), Memory.read, if_pos (by omega)]
        · split
          · next h => rw [if_pos h.symm]
          · next h => rw [if_neg (fun e => h e.symm)]
    · next hk =>
      split
      · next he =>
        subst he
        have hz : Memory.read rest a = 0 := Memory.read_below hm'.2 (Nat.lt_succ_self a)
        split
        · next hb =>
          split
          · next h => rw [h, hb, hz]
          · next h =>
            rw [Memory.read]
            split
            · next hl => exact Memory.read_below hm'.2 (by omega)
            · rw [if_neg (fun e => h e.symm)]
        · simp only [Memory.read]
          by_cases h : x = a
          · subst h; simp
          · rw [if_neg h, if_neg (fun e : a = x => h e.symm)]
            split
            · rfl
            · rw [if_neg (fun e : a = x => h e.symm)]
      · next he =>
        simp only [Memory.read]
        split
        · next h => rw [if_neg (by omega)]
        · split
          · next h => rw [if_neg (by omega)]
          · rw [Memory.read_write hm'.2]

/-! ## Runs of bytes -/

theorem Memory.wf_writeN : ∀ {l : List Byte} {m : Memory} {a : Nat}, Memory.wf m = true → Memory.wf (Memory.writeN m a l) = true
  | [], _, _, h => h
  | b :: rest, _, a, h => Memory.wf_writeN (l := rest) (Memory.wf_write h a b)

theorem Memory.wf_writeCells : ∀ {l : List Host.Cell} {m : Memory}, Memory.wf m = true → Memory.wf (Memory.writeCells m l) = true
  | [], _, h => h
  | (a, b) :: rest, _, h => Memory.wf_writeCells (l := rest) (Memory.wf_write h a b)

/-- A byte outside the run reads as before. -/
theorem Memory.read_writeN : ∀ {l : List Byte} {m : Memory} {a x : Nat}, Memory.wf m = true → (x < a ∨ a + l.length ≤ x) →
    Memory.read (Memory.writeN m a l) x = Memory.read m x
  | [], _, _, _, _, _ => rfl
  | b :: rest, m, a, x, h, hx => by
    rw [List.length_cons] at hx
    rw [Memory.writeN, Memory.read_writeN (Memory.wf_write h a b) (by omega), Memory.read_write h, if_neg (by omega)]

/-- The form is kept by any filter of the cells. -/
theorem Memory.wfFrom_filter (p : Host.Cell → Bool) : ∀ {m : Memory} {lo : Nat}, Memory.wfFrom lo m = true →
    Memory.wfFrom lo (m.filter p) = true
  | [], _, _ => rfl
  | (k, b) :: rest, lo, hm => by
    simp only [Memory.wfFrom, Bool.and_eq_true, decide_eq_true_eq, bne_iff_ne] at hm
    rw [List.filter_cons]
    split
    · simp only [Memory.wfFrom, Bool.and_eq_true, decide_eq_true_eq, bne_iff_ne]
      exact ⟨hm.1, Memory.wfFrom_filter p hm.2⟩
    · exact Memory.wfFrom_mono (by omega) (Memory.wfFrom_filter p hm.2)

theorem Memory.wf_filter (p : Host.Cell → Bool) {m : Memory} (h : Memory.wf m = true) : Memory.wf (m.filter p) = true :=
  Memory.wfFrom_filter p h

/-! ## The home slices (R69, R74, R91, R304) -/

/-- The state's memory is in its canonical form. -/
abbrev State.MemOk (s : State) : Prop := Memory.wf s.mem = true

/-- A fold whose every step keeps the form keeps it. -/
theorem State.memOk_foldl {α : Type} {f : State → α → State} (hf : ∀ s x, s.MemOk → (f s x).MemOk) :
    ∀ (l : List α) {s : State}, s.MemOk → (l.foldl f s).MemOk
  | [], _, h => h
  | x :: l, _, h => State.memOk_foldl hf l (hf _ x h)

theorem State.memOk_normaliseUnit {s : State} (h : s.MemOk) (u : Nat) : (s.normaliseUnit u).MemOk := by
  have e : (s.normaliseUnit u).mem = if s.accUnits.contains u then Memory.writeN s.mem (128 * u)
      ((LongAcc.ofImage (Memory.readN s.mem (128 * u) 128)).resolve.image) else s.mem := by
    rw [State.normaliseUnit, apply_ite State.mem]
  rw [State.MemOk, e]
  split
  · exact Memory.wf_writeN h
  · exact h

theorem State.memOk_normalise {s : State} (h : s.MemOk) (pa n : Nat) : (s.normalise pa n).MemOk :=
  State.memOk_foldl (fun _ u h => State.memOk_normaliseUnit h u) _ h

theorem State.memOk_leaveAcc {s : State} (h : s.MemOk) (pa n : Nat) : (s.leaveAcc pa n).MemOk := State.memOk_normalise h pa n

theorem State.stampSector_mem (s : State) (sec : Nat) : (s.stampSector sec).mem = s.mem := by
  rw [State.stampSector]; simp only; split <;> rfl

theorem State.memOk_stampRange {s : State} (h : s.MemOk) (pa n : Nat) : (s.stampRange pa n).MemOk := by
  rw [State.stampRange]
  refine State.memOk_foldl ?_ _ h
  intro s x h
  rw [State.MemOk, State.stampSector_mem]; exact h

theorem State.gainSectors_mem (s : State) (tracked : Bool) (pa n : Nat) : (s.gainSectors tracked pa n).mem = s.mem := by
  rw [State.gainSectors]; split <;> rfl

theorem State.memOk_commit {s : State} (h : s.MemOk) (pa : Nat) (l : List Byte) : (s.commit pa l).1.MemOk := by
  rw [State.commit]
  simp only
  split
  · exact h
  · exact Memory.wf_writeN (State.memOk_stampRange (State.memOk_leaveAcc h pa l.length) pa l.length)

theorem State.memOk_commitCells {s : State} (h : s.MemOk) (sec : Nat) (l : List Host.Cell) : (s.commitCells sec l).1.MemOk := by
  rw [State.commitCells]
  refine Memory.wf_writeCells ?_
  have := State.memOk_stampRange (State.memOk_leaveAcc h (64 * sec) 64) (64 * sec) 64
  split <;> exact this

theorem State.memOk_sliceRead {s : State} (h : s.MemOk) (pa n : Nat) : (s.sliceRead pa n).1.MemOk := State.memOk_normalise h pa n

/-! ## What is read after a write -/

/-- Resolving carries keeps the number of segments (R118, R119). -/
theorem carrySegs_length (all : Bool) : ∀ (l : List Int) (k : Int), (carrySegs all k l).length = l.length
  | [], _ => rfl
  | [_], _ => rfl
  | s :: t :: l, k => by
    simp only [carrySegs]
    split <;> simp only [List.length_cons, carrySegs_length all (t :: l)]

theorem intBytes_length : ∀ (n : Nat) (x : Int), (intBytes n x).length = n
  | 0, _ => rfl
  | n + 1, x => by rw [intBytes, List.length_cons, intBytes_length n]

theorem imageSegs_length : ∀ (n : Nat) (l : List Byte), (imageSegs n l).length = n
  | 0, _ => rfl
  | n + 1, l => by rw [imageSegs, List.length_cons, imageSegs_length n]

/-- The spill image of twenty segments is 128 bytes (R123). -/
theorem LongAcc.image_length (c : LongAcc) (h : c.seg.length = 20) : c.image.length = 128 := by
  have e : ∀ l : List Int, (l.flatMap (intBytes 5)).length = 5 * l.length := by
    intro l
    induction l with
    | nil => rfl
    | cons a l ih => rw [List.flatMap_cons, List.length_append, ih, intBytes_length, List.length_cons]; omega
  rw [LongAcc.image, List.length_append, List.length_append, List.length_replicate, intBytes_length, e, h]

theorem LongAcc.resolved_image_length (l : List Byte) : (LongAcc.ofImage l).resolve.image.length = 128 :=
  LongAcc.image_length _ (by rw [LongAcc.resolve, LongAcc.ofImage, LongAcc.carry]; simp only [carrySegs_length]; exact imageSegs_length 20 l)

theorem LongAcc.merge_image_length (a b : LongAcc) (h : a.seg.length = 20) (h2 : b.seg.length = 20) : (a.merge b).image.length = 128 :=
  LongAcc.image_length _ (by rw [LongAcc.merge]; simp only [carrySegs_length, addSegs, List.length_zipWith]; omega)

theorem Memory.readN_length (m : Memory) : ∀ (n a : Nat), (Memory.readN m a n).length = n
  | 0, _ => rfl
  | n+1, a => by simp [Memory.readN, Memory.readN_length m n]

/-- What was written is read. -/
theorem Memory.readN_writeN : ∀ (l : List Byte) (m : Memory) (a : Nat), Memory.wf m = true → Memory.readN (Memory.writeN m a l) a l.length = l
  | [], _, _, _ => rfl
  | b :: l, m, a, h => by
    have h1 := Memory.wf_write h a b
    simp only [Memory.writeN, List.length_cons, Memory.readN]
    rw [Memory.readN_writeN l _ _ h1, Memory.read_writeN h1 (.inl (by omega)), Memory.read_write h]
    simp

/-- Normalising a unit writes its 128 bytes at most (R91). -/
theorem State.normaliseUnit_mem (s : State) (u : Nat) : ∃ l : List Byte, l.length = 128 ∧
    (s.normaliseUnit u).mem = if s.accUnits.contains u then Memory.writeN s.mem (128 * u) l else s.mem :=
  ⟨_, LongAcc.resolved_image_length _, by rw [State.normaliseUnit, apply_ite State.mem]⟩

/-- A byte of no ACC unit reads as before. -/
theorem State.read_normaliseUnit {s : State} (h : s.MemOk) (u a : Nat) (ha : a / 128 ∉ s.accUnits) :
    Memory.read (s.normaliseUnit u).mem a = Memory.read s.mem a := by
  obtain ⟨l, hl, e⟩ := State.normaliseUnit_mem s u
  rw [e]
  split
  · rename_i hu
    refine Memory.read_writeN h ?_
    rw [hl]
    have : a / 128 ≠ u := fun e => ha (e ▸ List.contains_iff_mem.mp hu)
    omega
  · rfl

theorem State.normaliseUnit_accUnits (s : State) (u : Nat) : (s.normaliseUnit u).accUnits = s.accUnits := by
  rw [State.normaliseUnit]; split <;> rfl

theorem State.normaliseUnit_times (s : State) (u : Nat) : (s.normaliseUnit u).sectors = s.sectors ∧ (s.normaliseUnit u).now = s.now := by
  rw [State.normaliseUnit]; split <;> exact ⟨rfl, rfl⟩

/-- Normalising units changes the bytes of ACC units only. -/
theorem State.normaliseUnits (l : List Nat) (s : State) (h : s.MemOk) :
    let t := l.foldl State.normaliseUnit s
    t.MemOk ∧ t.accUnits = s.accUnits ∧ t.sectors = s.sectors ∧ t.now = s.now ∧ ∀ a, a / 128 ∉ s.accUnits → Memory.read t.mem a = Memory.read s.mem a := by
  induction l generalizing s with
  | nil => exact ⟨h, rfl, rfl, rfl, fun _ _ => rfl⟩
  | cons u l ih =>
    obtain ⟨h1, h2, h3, h4, h5⟩ := ih (s.normaliseUnit u) (State.memOk_normaliseUnit h u)
    refine ⟨h1, h2.trans (State.normaliseUnit_accUnits s u), h3.trans (State.normaliseUnit_times s u).1, h4.trans (State.normaliseUnit_times s u).2, fun a ha => ?_⟩
    rw [List.foldl_cons, h5 a (by rw [State.normaliseUnit_accUnits]; exact ha), State.read_normaliseUnit h u a ha]

/-- The times of a sector after those of one are set. -/
theorem State.times_setTimes (s : State) (x : SectorTimes) (k : Nat) : (s.setTimes x).times k = if x.sector = k then x else s.times k := by
  simp only [State.times, State.setTimes, List.find?_cons]
  by_cases e : x.sector = k
  · simp [e]
  · simp only [e, if_false, beq_iff_eq]
    have : (x.sector == k) = false := by simp [e]
    rw [this]
    simp only
    congr 1
    rw [List.find?_filter]
    congr 1; funext y
    by_cases e2 : y.sector = k
    · simp [e2]; exact fun h => e h.symm
    · simp [e2]

theorem State.times_sector (s : State) (k : Nat) : (s.times k).sector = k := by
  rw [State.times]
  cases h : s.sectors.find? fun x => x.sector == k with
  | none => rfl
  | some x => simpa using List.find?_some h

/-! ## What the work of a home slice leaves of the rest of the state -/

/-- A fold keeps whatever each of its steps keeps. -/
theorem foldl_keep {α β : Type} (P : State → β) (f : State → α → State) (h : ∀ s x, P (f s x) = P s) : ∀ (l : List α) s, P (l.foldl f s) = P s
  | [], _ => rfl
  | x :: l, s => by rw [List.foldl_cons, foldl_keep P f h l, h]

theorem State.normaliseUnit_keeps (s : State) (u : Nat) : (s.normaliseUnit u).flights = s.flights ∧ (s.normaliseUnit u).poisoned = s.poisoned := by
  rw [State.normaliseUnit]; split <;> exact ⟨rfl, rfl⟩

theorem State.leaveAcc_flights (s : State) (pa n : Nat) : (s.leaveAcc pa n).flights = s.flights :=
  foldl_keep State.flights _ (fun s u => (s.normaliseUnit_keeps u).1) _ s

theorem State.leaveAcc_poisoned (s : State) (pa n : Nat) : (s.leaveAcc pa n).poisoned = s.poisoned :=
  foldl_keep State.poisoned _ (fun s u => (s.normaliseUnit_keeps u).2) _ s

theorem State.stampSector_keeps (s : State) (sec : Nat) : (s.stampSector sec).flights = s.flights ∧ (s.stampSector sec).poisoned = s.poisoned := by
  rw [State.stampSector]; simp only; split <;> exact ⟨rfl, rfl⟩

theorem State.stampRange_flights (s : State) (pa n : Nat) : (s.stampRange pa n).flights = s.flights :=
  foldl_keep State.flights _ (fun s u => (s.stampSector_keeps u).1) _ s

theorem State.stampRange_poisoned (s : State) (pa n : Nat) : (s.stampRange pa n).poisoned = s.poisoned :=
  foldl_keep State.poisoned _ (fun s u => (s.stampSector_keeps u).2) _ s

theorem State.commit_flights (s : State) (pa : Nat) (b : List Byte) : (s.commit pa b).1.flights = s.flights := by
  rw [State.commit]; simp only
  split
  · rfl
  · show ((s.leaveAcc pa b.length).stampRange pa b.length).flights = _
    rw [State.stampRange_flights, State.leaveAcc_flights]

/-- A write takes poison away and adds none. -/
theorem State.commit_poisoned (s : State) (pa : Nat) (b : List Byte) (x : Nat) : x ∈ (s.commit pa b).1.poisoned → x ∈ s.poisoned := by
  rw [State.commit]; simp only
  split
  · exact id
  · intro h
    have h1 : x ∈ ((s.leaveAcc pa b.length).stampRange pa b.length).poisoned := (List.mem_filter.1 h).1
    rw [State.stampRange_poisoned, State.leaveAcc_poisoned] at h1; exact h1

theorem State.sliceAtomic_flights (s : State) (op : AtomOp) (pa z b c : Nat) : (s.sliceAtomic op pa z b c).1.flights = s.flights := by
  rw [State.sliceAtomic]; simp only
  split
  · rw [State.commit_flights, State.leaveAcc_flights]
  · rw [State.stampRange_flights, State.leaveAcc_flights]

theorem State.sliceAtomic_poisoned (s : State) (op : AtomOp) (pa z b c x : Nat) : x ∈ (s.sliceAtomic op pa z b c).1.poisoned → x ∈ s.poisoned := by
  rw [State.sliceAtomic]; simp only
  split
  · intro h; have := State.commit_poisoned _ _ _ _ h; rwa [State.leaveAcc_poisoned] at this
  · intro h; rwa [State.stampRange_poisoned, State.leaveAcc_poisoned] at h

theorem State.sliceMerge_flights (s : State) (pa : Nat) (img : LongAcc) : (s.sliceMerge pa img).1.flights = s.flights := by
  rw [State.sliceMerge]; simp only; rw [State.stampRange_flights]

theorem State.gainSectors_keeps (s : State) (t : Bool) (pa n : Nat) :
    (s.gainSectors t pa n).flights = s.flights ∧ (s.gainSectors t pa n).poisoned = s.poisoned := by
  rw [State.gainSectors]; split <;> exact ⟨rfl, rfl⟩

theorem State.l1Drop_keeps (s : State) (cl core pa n : Nat) :
    (s.l1Drop cl core pa n).flights = s.flights ∧ (s.l1Drop cl core pa n).poisoned = s.poisoned := by
  constructor
  · exact foldl_keep State.flights _ (fun s u => by split <;> simp) _ s
  · exact foldl_keep State.poisoned _ (fun s u => by split <;> simp) _ s

theorem State.acquireAt_keeps (s : State) (f : Flight) (n : Nat) : (s.acquireAt f n).flights = s.flights ∧ (s.acquireAt f n).poisoned = s.poisoned := by
  rw [State.acquireAt]; split <;> exact ⟨rfl, rfl⟩

end Sys2Proof.Machine
end

