-- ==== Sys2Proof/Tests/Slice0.lean ====
section
/-! SUPPORT. Tests of the model against what the spec works out itself, and witnesses: for every statement that has hypotheses,
states and operands that meet them. -/

namespace Sys2Proof.Tests

open Sys2Proof
open Sys2Proof.Machine

set_option Elab.async false

/-! ## A small bench: one team of one group of 16 threads on core 0 of cluster 0, no word but the one in hand -/

/-- A kernel with 56 registers, one accumulator, four tile slots, two skeins and a trap vector at 0x10080. -/
def hdr : Header :=
  { regs := 56, accs := 1, minSlots := 4, fusion := 0, hingedReq := false, width := 0, absm := false, round := 0, lease := 0,
    spmin := 64, fstm := 0, skeins := 2, trapv := 0x10080, handlers := 0x10100, dspan := 0 }

/-- A record of one such team. -/
def rcd : Record :=
  { entry := 0x10000, frame := 0, join := 0, slots := 4, hinged := false, width := 0, groups := 1, sp := 64, gang := false,
    prio := 0, count := 1 }

/-- `n` FULL registers, those from `at0` on with the values `l`, the others 0. -/
def regs (n at0 : Nat) (l : List Word) : List Reg :=
  (List.range n).map fun k => { val := if k < at0 then 0 else l.getD (k - at0) 0, st := .full, prod := 0 }

/-- The group: every thread, and the g registers, with the values `l` from register 16 on. -/
def grp (l : List Word) : Group :=
  let p := Group.placed hdr rcd 0 0 1 true
  { p with g := regs 64 16 l, threads := p.threads.map fun th => { th with v := regs 56 16 l } }

/-- The team of one group. -/
def team (g : Group) : Team :=
  { uid := 2, launch := 1, slot := 0, cl := 0, core := 0, place := 0, record := rcd, hdr := hdr, tmid := 0, groups := [g],
    scratch := [], gen := 0, latches := (List.range 16).map fun k => Latch.placed k 1,
    tiles := List.replicate 4 (List.replicate 256 LongAcc.zero), dlin := 0, amsrc := 0, skeins := [], saving := none }

/-- A word's issue on a team of one group, by the threads `ts`, with the literal `lit`. -/
def cur (t : Team) (g : Group) (lit : Word) (ts : List Nat) : Cur :=
  { uid := t.uid, gid := 0, active := ts, pc := 0x10000, setPc := 0x10000, lit := lit, word := 0, snap := g, start := 100, traps := [],
    waiting := false }

/-- The state with the team alone on the device, its page at 0x10000 translated, and a word in hand; slot 0 is enabled,
privileged, and may make hypotheses. -/
def st (t : Team) (c : Option Cur) : State :=
  { State.reset with
      now := 1000, nextId := 100, cur := c, teams := [t], tlb := [probePage 0],
      slots := { Slot.reset 0 with en := true, xctl := 6 } :: (List.range 63).map fun k => Slot.reset (k + 1),
      launches := [{ id := 1, slot := 0, origin := .spawned, unplaced := 0, resident := 1, status := 0, skeins := [], fhz := 0 }] }

/-- The word `v` in hand. -/
def iss (v : View) (t : Team) (g : Group) (lit : Word) (ts : List Nat) : Issue :=
  { v := v, c := cur t g lit ts, t := t, g := g, ts := ts, base := 0 }

/-- The tests a word passes before it runs. -/
def ready (v : View) (t : Team) (g : Group) (lit : Word) (ts : List Nat) (ops : List Opd) (s : State) : Bool :=
  v.legal t && !s.forbidden v t && ts.all fun k => (iss v t g lit ts).check ops k == .ready

/-- What those tests need is what `Clear` asks for. -/
theorem clear_of_ready {s : State} {v : View} {t : Team} {g : Group} {lit : Word} {ts : List Nat} {litOk : Issue → Word → Bool}
    {ops : List Opd} (hc : s.cur = some (cur t g lit ts)) (hs : s.team? t.uid = some t) (hf : s.free = 0)
    (hg : t.groups[0]? = some g) (hts : ts ≠ []) (hn : ts.Nodup) (hl : v.lit = true → litOk (iss v t g lit ts) lit = true)
    (h : ready v t g lit ts ops s = true) : Clear s (iss v t g lit ts) litOk ops := by
  simp only [ready, Bool.and_eq_true, Bool.not_eq_true', List.all_eq_true, beq_iff_eq] at h
  exact ⟨hc, hs, hg, rfl, hf.symm, hts, hn, h.1.1, hl, h.1.2, h.2⟩

/-! ## One word of every instruction -/

def rr (u : Bool) (d a b : BitVec 6) : RR :=
  { c := false, u := u, d := d, a := a, b := b, ka := false, kb := false, ea := false, eb := false, l := false }
def rm (u : Bool) (d a : BitVec 6) : RM := { c := false, u := u, d := d, a := a, ka := false, ea := false, l := false }
def rmL (u : Bool) (d : BitVec 6) : RM := { c := false, u := u, d := d, a := 0, ka := false, ea := false, l := true }
def rn (u : Bool) (d a m : BitVec 6) : RN := { c := false, u := u, d := d, a := a, m := m, ka := false, ea := false, l := false }
def ri (d a : BitVec 6) (i : BitVec 10) : RI := { c := false, u := false, d := d, a := a, i := i, ka := false }
def bw (a : BitVec 6) (t : BitVec 17) : BR := { c := false, u := false, a := a, t := t }
def mw (d a : BitVec 6) : MEM := { c := false, u := false, d := d, a := a, sz := 0, o := 0, ka := false, ea := false, l :=
    false }
def aw (d a b : BitVec 6) : AT := { c := false, u := false, d := d, a := a, b := b, sz := false }
def fw (s : BitVec 3) : FN := { c := false, u := false, scope := s }

noncomputable def samples1 : List Instr := ([.nop, .brk, .yield, .lclr, .lnorm, .lgred, .cacheL1inv, .cacheDrain, .mdrainQ,
    .mzero, .sysEret, .sysHalt] : List (RM → Instr)).map fun f => f (rm false 0 0)
noncomputable def samples2 : List Instr := ([.free, .laddF32, .laddBf16Lo, .laddBf16Hi, .laddF16Lo, .laddF16Hi, .laddS32,
    .laddZ32, .cachePfl, .mdrainSp, .mdrainGl, .mdrainPeer, .mcfg, .sysTlbinv, .sysL2flush] : List (RM → Instr)).map fun f =>
    f (rm false 0 16)
noncomputable def samples3 : List Instr := ([.wtime, .movpc, .lrndF32, .lrndBf16, .lrndF16, .lrndF64, .lrndS32, .mdrainR,
    .mstat] : List (RM → Instr)).map fun f => f (rm false 4 0)
noncomputable def samples4 : List Instr := ([.add, .sub, .mullo, .mulhiS, .mulhiZ, .mad, .minS, .minZ, .maxS, .maxZ, .and,
    .or, .xor, .andn, .shl, .shr, .sar, .rot, .bfeZ, .bfeS, .bfi, .sel, .cmpEq, .cmpNe, .cmpLtS, .cmpLeS, .cmpLtZ, .cmpLeZ,
    .lea, .add64, .sub64, .lea64, .xidx, .xup, .xdown, .xxor, .rget, .rput, .fadd, .fsub] : List (RR → Instr)).map fun f => f
    (rr false 4 16 24)
noncomputable def samples5 : List Instr := ([.fmul, .ffma, .fmin, .fmax, .fcmpEq, .fcmpLt, .fcmpLe, .fcmpUn, .fdiv, .badd,
    .bmul, .bfma, .bmin, .bmax, .hadd, .hmul, .hfma, .dadd, .dmul, .dfma, .ncvtP, .ncvtU, .fscale, .acas16] : List (RR →
    Instr)).map fun f => f (rr false 4 16 24)
noncomputable def samples6 : List Instr := ([.not, .neg, .abs, .popc, .clz, .ctz, .brev, .sext8, .sext16, .zext8, .zext16,
    .mov, .bswap, .mov64, .any, .all, .ballotLo, .ballotHi, .count, .elect, .xmatch, .scanAdd, .sumAdd, .fabs, .fneg, .rcp,
    .rsq, .sqrt, .exp2, .log2, .sin, .cos, .trunc, .floor, .ceil, .rint, .frac, .class, .cvtF32F16, .cvtF32F16Hi] : List (RM →
    Instr)).map fun f => f (rm false 4 16)
noncomputable def samples7 : List Instr := ([.cvtF32Bf16, .cvtF32Bf16Hi, .cvtF16F32, .cvtBf16F32, .cvtF16x2F32, .cvtBf16x2F32,
    .cvtF64F32, .cvtF32F64, .cvtF32S32, .cvtF32Z32, .cvtF32S64, .cvtF32Z64, .cvtF64S32, .cvtF64Z32, .cvtF64S64, .cvtF64Z64,
    .cvtS32F32, .cvtZ32F32, .cvtS32F32Rz, .cvtZ32F32Rz, .cvtS64F32, .cvtZ64F32, .cvtS32F64, .cvtZ32F64, .cvtS64F64,
    .cvtZ64F64, .cvtS32F64Rz, .cvtS64F64Rz, .cvtF16F64, .cvtBf16F64, .cvtF64F16, .cvtF64Bf16, .cvtBf16F16, .cvtF16Bf16,
    .cvtS8F32, .cvtZ8F32, .cvtS16F32, .cvtZ16F32, .sysCtxsv, .sysCtxld] : List (RM → Instr)).map fun f => f (rm false 4 16)
noncomputable def samples8 : List Instr := ([.addi] : List (RI → Instr)).map fun f => f (ri 4 16 5)
noncomputable def samples9 : List Instr := ([.movl] : List (RM → Instr)).map fun f => f (rmL false 4)
noncomputable def samples10 : List Instr := ([.movg, .csrRd] : List (RN → Instr)).map fun f => f (rn false 4 0 24)
noncomputable def samples11 : List Instr := ([.movtg, .csrWr] : List (RN → Instr)).map fun f => f (rn false 0 16 24)
noncomputable def samples12 : List Instr := ([.br, .meet] : List (BR → Instr)).map fun f => f (bw 0 24)
noncomputable def samples13 : List Instr := ([.bnz, .bz, .call] : List (BR → Instr)).map fun f => f (bw 16 24)
noncomputable def samples14 : List Instr := ([.jmpi] : List (BR → Instr)).map fun f => f (bw 16 0)
noncomputable def samples15 : List Instr := ([.exit] : List (BR → Instr)).map fun f => f (bw 0 0)
noncomputable def samples16 : List Instr := ([.trap, .qpush] : List (RN → Instr)).map fun f => f (rn false 0 16 1)
noncomputable def samples17 : List Instr := ([.lfma, .lfmab, .mma] : List (RR → Instr)).map fun f => f (rr false 0 16 24)
noncomputable def samples18 : List Instr := ([.lmerge] : List (RR → Instr)).map fun f => f (rr false 0 0 0)
noncomputable def samples19 : List Instr := ([.lsh] : List (RR → Instr)).map fun f => f (rr false 0 0 24)
noncomputable def samples20 : List Instr := ([.lst, .lld, .lred] : List (MEM → Instr)).map fun f => f (mw 0 16)
noncomputable def samples21 : List Instr := ([.lseg, .qpop] : List (RN → Instr)).map fun f => f (rn false 4 0 1)
noncomputable def samples22 : List Instr := ([.ldg, .stg, .lds, .sts] : List (MEM → Instr)).map fun f => f (mw 4 16)
noncomputable def samples23 : List Instr := ([.atgAdd, .atgSub, .atgMinS, .atgMinZ, .atgMaxS, .atgMaxZ, .atgAnd, .atgOr,
    .atgXor, .atgSwap, .atgCas, .atgIncWrap, .atgDecWrap, .atgArAdd, .atgArSub, .atgArMinS, .atgArMinZ, .atgArMaxS,
    .atgArMaxZ, .atgArAnd, .atgArOr, .atgArXor, .atgArSwap, .atgArCas, .atgArIncWrap, .atgArDecWrap, .atgSysAdd, .atgSysSub,
    .atgSysMinS, .atgSysMinZ, .atgSysMaxS, .atgSysMaxZ, .atgSysAnd, .atgSysOr, .atgSysXor, .atgSysSwap, .atgSysCas,
    .atgSysIncWrap, .atgSysDecWrap, .atsAdd] : List (AT → Instr)).map fun f => f (aw 4 16 24)
noncomputable def samples24 : List Instr := ([.atsSub, .atsMinS, .atsMinZ, .atsMaxS, .atsMaxZ, .atsAnd, .atsOr, .atsXor,
    .atsSwap, .atsCas, .atsIncWrap, .atsDecWrap] : List (AT → Instr)).map fun f => f (aw 4 16 24)
noncomputable def samples25 : List Instr := ([.fenceAcq, .fenceRel, .fenceFull] : List (FN → Instr)).map fun f => f (fw 1)
noncomputable def samples26 : List Instr := ([.pfr, .cp, .cpo, .sld] : List (RR → Instr)).map fun f => f (rr true 4 16 24)
noncomputable def samples27 : List Instr := ([.acqr, .latchArriveRemote, .xferPut, .xferPutred, .xferGet, .mtrsm] : List (RM →
    Instr)).map fun f => f (rm true 0 16)
noncomputable def samples28 : List Instr := ([.cpt, .amsg, .mfactChol] : List (RR → Instr)).map fun f => f (rr true 0 16 24)
noncomputable def samples29 : List Instr := ([.sknDecl, .sknJoin, .sknLeave, .sknStat, .latchInit, .latchExpect, .latchWait,
    .qopBind, .spawn, .spawnGang, .spawnJoin, .xferArm, .hypEnter, .hypConfirm, .hypRefute, .hypStat] : List (RM → Instr)).map
    fun f => f (rm true 4 16)
noncomputable def samples30 : List Instr := ([.latchArrive, .latchTest, .latchInval, .qopUnbind, .qopStat, .xferDisarm,
    .hypNew, .hypLeave] : List (RM → Instr)).map fun f => f (rm true 4 0)
noncomputable def samples31 : List Instr := ([.waitc] : List (RN → Instr)).map fun f => f (rn true 0 16 1)
noncomputable def samples32 : List Instr := ([.mloop] : List (RR → Instr)).map fun f => f (rr true 0 16 0)
noncomputable def samples33 : List Instr := ([.mscale] : List (RR → Instr)).map fun f => f (rr true 2 1 24)

/-- The word of every instruction that has one. -/
noncomputable def samples : List Instr :=
  samples1 ++ samples2 ++ samples3 ++ samples4 ++ samples5 ++ samples6 ++ samples7 ++ samples8 ++ samples9 ++ samples10 ++
    samples11 ++ samples12 ++ samples13 ++ samples14 ++ samples15 ++ samples16 ++ samples17 ++ samples18 ++ samples19 ++
    samples20 ++ samples21 ++ samples22 ++ samples23 ++ samples24 ++ samples25 ++ samples26 ++ samples27 ++ samples28 ++
    samples29 ++ samples30 ++ samples31 ++ samples32 ++ samples33

/-! ## Words in hand -/

/-- A state to run a word in: the register values from 16 on, the literal, the threads that run it, and what else the group, the
team and the state hold. -/
structure Bench where
  l : List Word := []
  lit : Word := 0
  ts : List Nat := [0, 5]
  h : Group → Group := id
  f : Team → Team := id
  e : State → State := id

def Bench.g (b : Bench) : Group := b.h (grp b.l)
def Bench.t (b : Bench) : Team := b.f (team b.g)
def Bench.s (b : Bench) : State := b.e (st b.t (some (cur b.t b.g b.lit b.ts)))
def Bench.i (b : Bench) (i : Instr) : Issue := iss i.view b.t b.g b.lit b.ts
def Bench.ready (b : Bench) (i : Instr) (pick : Issue → List Opd → List Opd := asIs) : Bool :=
  Tests.ready i.view b.t b.g b.lit b.ts (pick (b.i i) (b.i i).ops) b.s

/-- Register `n` of thread `k` made `r`. -/
def setV (k n : Nat) (r : Reg) (g : Group) : Group := { g with threads := g.threads.modify k fun th => { th with v := th.v.set n r } }

/-- Every thread `h`. -/
def allThreads (h : Thread → Thread) (g : Group) : Group := { g with threads := g.threads.map h }

/-- A word whose tests pass is in hand. -/
theorem Bench.hand (b : Bench) {i : Instr} {litOk : Issue → Word → Bool} {pick : Issue → List Opd → List Opd}
    (h : b.ready i pick = true) (hl : i.view.lit = false ∨ litOk (b.i i) b.lit = true := by exact .inl rfl)
    (hc : b.s.cur = some (cur b.t b.g b.lit b.ts) := by rfl) (hs : b.s.team? b.t.uid = some b.t := by rfl)
    (hf : b.s.free = 0 := by rfl) (hg : b.t.groups[0]? = some b.g := by rfl) (hts : b.ts ≠ [] := by exact List.cons_ne_nil _ _)
    (hn : b.ts.Nodup := by first | decide | exact (show [0, 5].Nodup by decide)) : InHand i litOk pick b.s (b.i i) :=
  ⟨rfl, clear_of_ready hc hs hf hg hts hn (fun e => hl.elim (fun f => absurd (e.symm.trans f) (by decide)) id) h⟩

theorem samples_ready : (samples.all fun i => ({} : Bench).ready i) = true := by decide +kernel

/-- Every instruction that has a word has a state in which that word, as the samples give it, is in hand with nothing to hold it
back: what each statement about completion asks for first. -/
theorem witness_words_in_hand : ∀ i ∈ samples, ∃ s x, InHand i anyLit asIs s x := fun i h =>
  ⟨_, _, Bench.hand {} (by simpa using List.all_eq_true.mp samples_ready i h) (.inr rfl)⟩

theorem test_samples_cover_every_word : samples.length = 304 := by decide +kernel

theorem passes_of {s : State} {i : Issue} {va : Nat → DWord} {size : Nat} {acc : AccessKind} {atom : AtomKind}
    (h : (!s.acquiring i && (s.checks i va size acc atom).all fun x => match x.2 with | .ok .. => true | _ => false) = true) :
    Passes s i va size acc atom := by
  simp only [Bool.and_eq_true, Bool.not_eq_true', List.all_eq_true] at h
  refine ⟨h.1, fun x hx => ?_⟩
  have := h.2 x hx
  split at this
  · next a b c e => exact ⟨a, b, c, e⟩
  · contradiction

theorem spPasses_of {s : State} {i : Issue} {a : Nat → Word} {size : Nat}
    (h : (!s.acquiring i && (s.spChecks i a size).all fun x => x.2.isLeft) = true) : SpPasses s i a size := by
  simp only [Bool.and_eq_true, Bool.not_eq_true', List.all_eq_true] at h
  refine ⟨h.1, fun x hx => ?_⟩
  have := h.2 x hx
  cases e : x.2 with
  | inl y => exact ⟨y, rfl⟩
  | inr y => rw [e] at this; cases this

theorem canTrap_of {i : Issue} (h : (i.t.hdr.trapv != 0 && i.c.active.all fun k => (i.g.threads[k]?).any fun th => th.live && !th.inHandler) = true) :
    CanTrap i := by
  simp only [Bool.and_eq_true, bne_iff_ne, List.all_eq_true] at h
  refine ⟨h.1, fun k hk => ?_⟩
  have := h.2 k hk
  cases e : i.g.threads[k]? with
  | none => rw [e] at this; cases this
  | some th =>
    rw [e] at this
    simp only [Option.any_some, Bool.and_eq_true, Bool.not_eq_true'] at this
    exact ⟨th, rfl, this⟩

/-- A command of the bench's group. -/
def op (id cls : Nat) (stage : Stage) (body : OpBody) : EngOp :=
  { id := id, uid := 2, gid := 0, cls := cls, seq := id, slot := 0, cl := 0, core := 0, threads := [0, 5], hyp := 0, round := 0, lat := none,
    cnt := false, arrived := false, stage := stage, flags := 0, fault := none, stop := 0, held := none, parked := false, failPages := [],
    wrote := 0, saved := false, dropped := false, shots := [], place := 0, body := body }

/-- An access on its way from another team. -/
def flight (id : Nat) (what : Access) (size : Nat) : Flight :=
  { id := id, batch := id, uid := 9, gid := 0, thread := 0, uni := false, slot := 0, cl := 0, core := 1, tgt := .mem 0x10000, size := size,
    what := what, hyp := 0, cls := .device, acq := false, direct := false, lease := 0, l1ok := false, tracked := false, spCore := 0, l1At := 1,
    seen := false, data := [], bad := false, done := false, acked := false, ctime := 0 }

/-- A store, a load (an acquire or not), and a buffer entry's drain of the bench's group, on their way when `on`. -/
def storing (on : Bool) (s : State) : State := { s with flights := if on then [{ flight 50 (.store [1]) 1 with uid := 2 }] else [] }
def loading (on acq : Bool) (s : State) : State :=
  { s with flights := if on then [{ flight 50 (.load 4 0) 4 with uid := 2, acq := acq }] else [] }
def draining (on : Bool) (s : State) : State :=
  { s with flights := if on then [{ flight 50 (.store []) 0 with uid := 2, done := true }] else [] }
/-- Another team, whose confirm into the root holds the sectors of the page (R159). -/
def confirming (s : State) : State :=
  { s with teams := s.teams ++ [{ team { grp [] with stall := some { pc := 0, setPc := 0, begun := true, result := 0, waitUntil := 2000, holds := [0x400] } }
                                  with uid := 3 }] }
/-- `n` commands of a class outstanding. -/
def crowd (cls n : Nat) (s : State) : State := { s with ops := List.replicate n (op 7 cls .running (.mzero 0)) }
/-- What holds a queued command back (R58, R72, R314): its counter at 255, an earlier acquire on its way, or neither. -/
def heldBack (cls : Nat) (hold : Option Bool) (s : State) : State :=
  loading (hold == some false) true (crowd cls (if hold = some true then 255 else 0) s)
/-- What holds the command of the word back is just this. -/
def heldAs (cls : Nat) (hold : Option Bool) (s : State) (i : Issue) : Bool :=
  decide (255 ≤ s.counter i.c.uid i.c.gid cls) == (hold == some true) && s.acquiring i == (hold == some false)
/-- The group stalled at the word in hand, which has begun. -/
def stalledAt (result : Word) (till : Nat) (g : Group) : Group :=
  { g with stall := some { pc := 0x10000, setPc := 0x10000, begun := true, result := result, waitUntil := till } }


/-! ## Witnesses: words without a condition on their operands, statement by statement -/

theorem covered {l : List Instr} (h : (l.all fun i => decide (i ∈ samples)) = true) : ∀ i ∈ l, ∃ s x, InHand i anyLit asIs s x :=
  fun i hi => witness_words_in_hand i (of_decide_eq_true (List.all_eq_true.mp h i hi))

theorem witness_AccumulatorWords : ∀ i ∈ ([.lclr (rm false 0 0), .lnorm (rm false 0 0)] ++ ([.laddF32, .laddBf16Lo,
    .laddBf16Hi, .laddF16Lo, .laddF16Hi, .laddS32, .laddZ32] : List (RM → Instr)).map (· (rm false 0 16)) ++ [.lfma (rr false
    0 16 24), .lfmab (rr false 0 16 24)] ++ [.lmerge (rr false 0 0 0)] ++ [.lsh (rr false 0 0 24)] : List Instr), ∃ s x,
    InHand i anyLit asIs s x := covered (by decide +kernel)

theorem witness_AddressWords : ∀ i ∈ (([.lea, .add64, .sub64, .lea64] : List (RR → Instr)).map (· (rr false 4 16 24)) ++
    [.addi (ri 4 16 5)] : List Instr), ∃ s x, InHand i anyLit asIs s x := covered (by decide +kernel)

theorem witness_Conversions : ∀ i ∈ (([.cvtF32F16, .cvtF32F16Hi, .cvtF32Bf16, .cvtF32Bf16Hi, .cvtF16F32, .cvtBf16F32,
    .cvtF16x2F32, .cvtBf16x2F32, .cvtF64F32, .cvtF32F64, .cvtF32S32, .cvtF32Z32, .cvtF32S64, .cvtF32Z64, .cvtF64S32,
    .cvtF64Z32, .cvtF64S64, .cvtF64Z64, .cvtS32F32, .cvtZ32F32, .cvtS32F32Rz, .cvtZ32F32Rz, .cvtS64F32, .cvtZ64F32,
    .cvtS32F64, .cvtZ32F64, .cvtS64F64, .cvtZ64F64, .cvtS32F64Rz, .cvtS64F64Rz, .cvtF16F64, .cvtBf16F64, .cvtF64F16,
    .cvtF64Bf16, .cvtBf16F16, .cvtF16Bf16, .cvtS8F32, .cvtZ8F32, .cvtS16F32, .cvtZ16F32] : List (RM → Instr)).map (· (rm false
    4 16)) : List Instr), ∃ s x, InHand i anyLit asIs s x := covered (by decide +kernel)

theorem witness_CrossReads : ∀ i ∈ (([.xidx, .xup, .xdown, .xxor] : List (RR → Instr)).map (· (rr false 4 16 24)) : List
    Instr), ∃ s x, InHand i anyLit asIs s x := covered (by decide +kernel)

theorem witness_DoubleWords : ∀ i ∈ (([.dadd, .dmul, .dfma] : List (RR → Instr)).map (· (rr false 4 16 24)) : List Instr), ∃ s
    x, InHand i anyLit asIs s x := covered (by decide +kernel)

theorem witness_FieldWords : ∀ i ∈ (([.bfeZ, .bfeS, .bfi] : List (RR → Instr)).map (· (rr false 4 16 24)) : List Instr), ∃ s
    x, InHand i anyLit asIs s x := covered (by decide +kernel)

theorem witness_FloatFunctions : ∀ i ∈ (([.fabs, .fneg, .rcp, .rsq, .sqrt, .exp2, .log2, .sin, .cos, .trunc, .floor, .ceil,
    .rint, .frac, .class] : List (RM → Instr)).map (· (rm false 4 16)) : List Instr), ∃ s x, InHand i anyLit asIs s x :=
    covered (by decide +kernel)

theorem witness_FloatWords : ∀ i ∈ (([.fadd, .fsub, .fmul, .fdiv, .fmin, .fmax, .fcmpEq, .fcmpLt, .fcmpLe, .fcmpUn, .fscale,
    .badd, .bmul, .bmin, .bmax, .hadd, .hmul, .ffma, .bfma, .hfma] : List (RR → Instr)).map (· (rr false 4 16 24)) : List
    Instr), ∃ s x, InHand i anyLit asIs s x := covered (by decide +kernel)

theorem witness_IntegerArithmetic : ∀ i ∈ (([.add, .sub, .mullo, .mulhiS, .mulhiZ, .minS, .minZ, .maxS, .maxZ, .and, .or,
    .xor, .andn, .mad] : List (RR → Instr)).map (· (rr false 4 16 24)) : List Instr), ∃ s x, InHand i anyLit asIs s x :=
    covered (by decide +kernel)

theorem witness_IntegerShifts : ∀ i ∈ (([.shl, .shr, .sar, .rot] : List (RR → Instr)).map (· (rr false 4 16 24)) : List
    Instr), ∃ s x, InHand i anyLit asIs s x := covered (by decide +kernel)

theorem witness_MoveWords : ∀ i ∈ ([.movl (rmL false 4)] ++ [.movpc (rm false 4 0), .wtime (rm false 4 0)] ++ [.mov64 (rm
    false 4 16)] ++ [.movg (rn false 4 0 24)] ++ [.movtg (rn false 0 16 24)] : List Instr), ∃ s x, InHand i anyLit asIs s x :=
    covered (by decide +kernel)

theorem witness_SelectAndCompare : ∀ i ∈ (([.sel, .cmpEq, .cmpNe, .cmpLtS, .cmpLeS, .cmpLtZ, .cmpLeZ] : List (RR → Instr)).map
    (· (rr false 4 16 24)) : List Instr), ∃ s x, InHand i anyLit asIs s x := covered (by decide +kernel)

theorem witness_UnaryWords : ∀ i ∈ (([.not, .neg, .abs, .popc, .clz, .ctz, .brev, .sext8, .sext16, .zext8, .zext16, .mov,
    .bswap] : List (RM → Instr)).map (· (rm false 4 16)) : List Instr), ∃ s x, InHand i anyLit asIs s x := covered (by decide +kernel)

theorem witness_VoteWords : ∀ i ∈ (([.any, .all, .count, .elect, .xmatch, .scanAdd, .sumAdd, .ballotLo, .ballotHi] : List (RM
    → Instr)).map (· (rm false 4 16)) : List Instr), ∃ s x, InHand i anyLit asIs s x := covered (by decide +kernel)

/-! ## Witnesses: words with a condition on their operands -/

theorem witness_MiscWords :
    (∃ s i, i.v = (Instr.free (rm false 0 16)).view ∧ Clear s i anyLit (freeing i i.ops)) ∧
    (∃ s i, InHand (.yield (rm false 0 0)) anyLit asIs s i) ∧
    ∃ (s : State) (t : Team) (g : Group), s.team? 2 = some t ∧ t.groups[0]? = some g ∧ s.oldestReady t 0 g = none :=
  let b : Bench := {}
  ⟨⟨b.s, b.i _, b.hand (i := .free (rm false 0 16)) (pick := freeing) (by decide +kernel)⟩,
    ⟨b.s, b.i _, b.hand (by decide +kernel)⟩, b.s, b.t, b.g, rfl, rfl, by decide +kernel⟩

theorem witness_IndirectWords :
    (∀ bad ∈ [false, true], ∃ (w : RR) (s : State) (i : Issue), InHand (.rget w) anyLit asIs s i ∧
      (∀ k ∈ i.c.active, i.indexOk w k = true ∧ (i.regState k (i.index w k).toNat).st = (if bad then .absent else .full) ∧
        i.c.snap.absm = 0 ∧ (i.regState k w.d.toNat).prod = 0) ∧
      ∀ k ∈ i.c.active, ∀ m ∈ i.c.active, i.index w k % 4 = i.index w m % 4) ∧
    (∃ (w : RR) (s : State) (i : Issue), InHand (.rget w) anyLit asIs s i ∧
      (∀ k ∈ i.c.active, i.indexOk w k = true ∧ (i.regState k (i.index w k).toNat).st = .full) ∧
      ¬∀ k ∈ i.c.active, ∀ m ∈ i.c.active, i.index w k % 4 = i.index w m % 4) ∧
    (∃ (w : RR) (s : State) (i : Issue), InHand (.rget w) anyLit asIs s i ∧
      ∃ k ∈ i.c.active, i.indexOk w k = true ∧ (i.regState k (i.index w k).toNat).st = .empty) ∧
    (∀ out ∈ [true, false], ∃ (w : RR) (s : State) (i : Issue), InHand (.rget w) anyLit asIs s i ∧ CanTrap i ∧
      ∀ k ∈ i.c.active, if out then i.indexOk w k = false else i.indexOk w k = true ∧
        (i.regState k (i.index w k).toNat).st = .absent ∧ i.c.snap.absm ≠ 0) ∧
    (∃ (w : RR) (s : State) (i : Issue), InHand (.rput w) anyLit asIs s i ∧
      (∀ k ∈ i.c.active, i.indexOk w k = true ∧ (i.regState k (i.index w k).toNat).prod = 0) ∧
      ∀ k ∈ i.c.active, ∀ m ∈ i.c.active, i.index w k % 4 = i.index w m % 4) ∧
    (∃ (w : RR) (s : State) (i : Issue), InHand (.rput w) anyLit asIs s i ∧
      (∀ k ∈ i.c.active, i.indexOk w k = true ∧ (i.regState k (i.index w k).toNat).prod = 0) ∧
      ¬∀ k ∈ i.c.active, ∀ m ∈ i.c.active, i.index w k % 4 = i.index w m % 4) ∧
    (∃ (w : RR) (s : State) (i : Issue), InHand (.rput w) anyLit asIs s i ∧
      ∃ k ∈ i.c.active, i.indexOk w k = true ∧ (i.regState k (i.index w k).toNat).prod ≠ 0) ∧
    ∃ (w : RR) (s : State) (i : Issue), InHand (.rput w) anyLit asIs s i ∧ CanTrap i ∧ ∀ k ∈ i.c.active, i.indexOk w k = false :=
  let w := rr false 4 16 24
  let b : Bench := { l := [55] }
  let gone (absm : Bool) : Bench :=
    { l := [55], h := fun g => { setV 0 55 Reg.absent (setV 5 55 Reg.absent g) with absm := if absm then 1 else 0 } }
  let two : Bench := { l := [55], h := setV 0 16 { val := 0, st := .full, prod := 0 } }
  let late : Bench := { l := [55], h := setV 5 55 { val := 0, st := .empty, prod := 9 } }
  let far : Bench := { l := [56] }
  let under : Bench := { l := [0xFFFFFFFF] }
  ⟨fun bad _ => by
      cases bad
      · exact ⟨w, b.s, b.i _, b.hand (by decide +kernel), by decide +kernel⟩
      · exact ⟨w, (gone false).s, (gone false).i _, (gone false).hand (by decide +kernel), by decide +kernel⟩,
    ⟨w, two.s, two.i _, two.hand (by decide +kernel), by decide +kernel⟩,
    ⟨w, late.s, late.i _, late.hand (by decide +kernel), 5, by decide +kernel⟩,
    fun out _ => by
      cases out
      · exact ⟨w, (gone true).s, (gone true).i _, (gone true).hand (by decide +kernel), canTrap_of (by decide +kernel), by decide +kernel⟩
      · exact ⟨w, far.s, far.i _, far.hand (by decide +kernel), canTrap_of (by decide +kernel), by decide +kernel⟩,
    ⟨w, b.s, b.i _, b.hand (by decide +kernel), by decide +kernel⟩,
    ⟨w, two.s, two.i _, two.hand (by decide +kernel), by decide +kernel⟩,
    ⟨w, late.s, late.i _, late.hand (by decide +kernel), 5, by decide +kernel⟩,
    w, under.s, under.i _, under.hand (by decide +kernel), canTrap_of (by decide +kernel), by decide +kernel⟩

theorem witness_ControlTransfers :
    (∃ (w : BR) (s : State) (i : Issue), InHand (.jmpi w) anyLit asIs s i ∧
      ∀ k ∈ i.c.active, (i.rd2 (i.one k) w.a.toNat).extractLsb' 0 4 = 0 ∧ (i.rd2 (i.one k) w.a.toNat).extractLsb' 48 16 = 0) ∧
    ∀ low ∈ [true, false], ∃ (w : BR) (s : State) (i : Issue), InHand (.jmpi w) anyLit asIs s i ∧ CanTrap i ∧
      ∀ k ∈ i.c.active, ((i.rd2 (i.one k) w.a.toNat).extractLsb' 0 4 = 0) ≠ low ∧
        ((i.rd2 (i.one k) w.a.toNat).extractLsb' 48 16 = 0) = low :=
  let b : Bench := { l := [0xFFFFFFF0, 0xFFFF] }
  let odd : Bench := { l := [8, 0] }
  let high : Bench := { l := [0, 0x10000] }
  ⟨⟨bw 16 0, b.s, b.i _, b.hand (by decide +kernel), by decide +kernel⟩, fun low _ => by
    cases low
    · exact ⟨bw 16 0, high.s, high.i _, high.hand (by decide +kernel), canTrap_of (by decide +kernel), by decide +kernel⟩
    · exact ⟨bw 16 0, odd.s, odd.i _, odd.hand (by decide +kernel), canTrap_of (by decide +kernel), by decide +kernel⟩⟩

theorem witness_ExitEndsThreads :
    ∃ (w : BR) (s : State) (i : Issue), InHand (.exit w) anyLit asIs s i ∧
      ∀ k ∈ i.c.active, ∃ th, i.thread? k = some th ∧ th.fst &&& i.g.fstm = 0 :=
  let b : Bench := { ts := [5] }
  ⟨bw 0 0, b.s, b.i _, b.hand (by decide +kernel), fun k hk => by
    rw [List.mem_singleton.mp hk]; exact ⟨_, rfl, by decide +kernel⟩⟩

theorem witness_NarrowWords :
    (∃ (w : RR) (s : State) (i : Issue), InHand (.ncvtP w) (fun _ => narrowOk) asIs s i ∧ ∀ k ∈ i.c.active, narrowOk (i.srcB w k) = true) ∧
    ∃ (w : RR) (s : State) (i : Issue), InHand (.ncvtU w) (fun _ => narrowOk) asIs s i ∧ ∀ k ∈ i.c.active, narrowOk (i.srcB w k) = true :=
  let b : Bench := { l := [0, 0, 0, 0, 0, 0, 0, 0, 0xFF13] }
  ⟨⟨rr false 4 16 24, b.s, b.i _, b.hand (by decide +kernel), by decide +kernel⟩,
    ⟨rr false 4 16 24, b.s, b.i _, b.hand (by decide +kernel), by decide +kernel⟩⟩

theorem witness_AccumulatorReads :
    (∃ (w : RM) (s : State) (i : Issue), InHand (.lrndF64 w) anyLit asIs s i ∧
      ∀ k ∈ i.c.active, (i.acc k w.a.toNat).prod = 0 ∧ i.destBusy k w.d.toNat 2 = false) ∧
    ∃ (w : RM) (s : State) (i : Issue), InHand (.lrndF64 w) anyLit asIs s i ∧ (i.acc 0 w.a.toNat).prod = 0 ∧
      i.destBusy 0 w.d.toNat 2 = false ∧ (i.acc 5 w.a.toNat).prod ≠ 0 ∧ i.destBusy 5 w.d.toNat 2 = true :=
  let b : Bench := {}
  let late : Bench := { h := fun g => setV 5 5 { val := 0, st := .empty, prod := 9 } { g with
    threads := g.threads.modify 5 fun th => { th with acc := [{ acc := LongAcc.zero, prod := 8 }] } } }
  ⟨⟨rm false 4 0, b.s, b.i _, b.hand (by decide +kernel), by decide +kernel⟩,
    rm false 4 0, late.s, late.i _, late.hand (by decide +kernel), by decide +kernel⟩

/-- A mem word with a literal and this SZ and O. -/
def mwL (d a : BitVec 6) (sz : BitVec 3) (o : BitVec 5) : MEM :=
  { c := false, u := false, d := d, a := a, sz := sz, o := o, ka := false, ea := false, l := true }

/-- Addresses of the loads and stores below. -/
def at64 (w : MEM) (i : Issue) (k n : Nat) : DWord :=
  i.rd2 k w.a.toNat + if w.l then i.lit.signExtend 64 else w.o.signExtend 64 * BitVec.ofNat 64 n
def at32 (w : MEM) (i : Issue) (k n : Nat) : Word :=
  i.rd k w.a.toNat + if w.l then i.lit else w.o.signExtend 32 * BitVec.ofNat 32 n

/-- The loads of a word that bypass the store buffer, their older overlapping entries drained and acknowledged. -/
def loadsDrained (w : MEM) (s : State) (i : Issue) (size : Nat) (hits : List Hit → List Hit) (n : Nat)
    (what : Nat → Nat → Access) : Prop :=
  let c := s.checks i (fun k => at64 w i k size) size .read .plain
  Drained (s.translated .plain c) i
    ((i.loads (s.translated .plain c) (hits (hitsOf c)) n what (memClass w i.t) (memOrd w == 1)).filter (·.direct))

theorem witness_GlobalLoads :
    (∀ o ∈ [0, 0x0D], ∃ (w : MEM) (s : State) (i : Issue), w.o = o ∧ w.sz.toNat ≤ 6 ∧ InHand (.ldg w) anyLit asIs s i ∧
      Passes s i (fun k => at64 w i k (szBytes w.sz)) (szBytes w.sz) .read .plain ∧
      loadsDrained w s i (szBytes w.sz) id (szBytes w.sz) fun _ _ => .load w.d.toNat w.sz.toNat) ∧
    ∃ (w : MEM) (s : State) (i : Issue), w.sz = 0 ∧ InHand (.lld w) anyLit asIs s i ∧
      Passes s i (fun k => at64 w i k 128) 128 .read .plain ∧
      loadsDrained w s i 128 (fun l => l.flatMap fun x => (List.range 8).map fun k => { x with pa := x.pa + 16 * k }) 16
        (partLoad w.d.toNat) := by
  let b : Bench := { l := [0x10F00, 0] }
  let c : Bench := { l := [0x11000, 0], lit := 0xFFFFFFF0 }
  refine ⟨fun o ho => ?_, mw 0 16, b.s, b.i _, rfl, b.hand (by decide +kernel), passes_of (by decide +kernel),
    by unfold loadsDrained Drained; decide +kernel⟩
  have : o = 0 ∨ o = 0x0D := by simpa using ho
  rcases this with rfl | rfl
  · exact ⟨mw 4 16, b.s, b.i _, rfl, by decide, b.hand (by decide +kernel), passes_of (by decide +kernel),
      by unfold loadsDrained Drained; decide +kernel⟩
  · exact ⟨mwL 4 16 6 0x0D, c.s, c.i _, rfl, by decide, c.hand (by decide +kernel) (.inr rfl), passes_of (by decide +kernel),
      by unfold loadsDrained Drained; decide +kernel⟩

theorem witness_ScratchpadWords :
    (∃ (w : MEM) (s : State) (i : Issue), InHand (.lds w) anyLit asIs s i ∧
      SpPasses s i (fun k => at32 w i k (szBytes w.sz)) (szBytes w.sz)) ∧
    (∃ (w : MEM) (s : State) (i : Issue), memOrd w = 2 ∧ InHand (.sts w) anyLit asIs s i ∧
      SpPasses s i (fun k => at32 w i k (szBytes w.sz)) (szBytes w.sz) ∧ MayRelease s i (memClass w i.t)) ∧
    (∃ (w : MEM) (s : State) (i : Issue), w.sz = 1 ∧ InHand (.lld w) anyLit asIs s i ∧ SpPasses s i (fun k => at32 w i k 128) 128) ∧
    ∃ (w : MEM) (s : State) (i : Issue), w.sz = 1 ∧ InHand (.lst w) anyLit asIs s i ∧ SpPasses s i (fun k => at32 w i k 128) 128 ∧
      (memOrd w = 2 → MayRelease s i (memClass w i.t)) :=
  let b : Bench := { l := [65536 - 128], lit := 0 }
  ⟨⟨mw 4 16, b.s, b.i _, b.hand (by decide +kernel), spPasses_of (by decide +kernel)⟩,
    ⟨mwL 4 16 0 0x10, b.s, b.i _, rfl, b.hand (by decide +kernel) (.inr rfl), spPasses_of (by decide +kernel),
      by unfold MayRelease; decide +kernel⟩,
    ⟨{ mw 0 16 with sz := 1 }, b.s, b.i _, rfl, b.hand (by decide +kernel), spPasses_of (by decide +kernel)⟩,
    { mw 0 16 with sz := 1 }, b.s, b.i _, rfl, b.hand (by decide +kernel), spPasses_of (by decide +kernel), fun h => absurd h (by decide)⟩

/-- What StoresEnd asks for: room in the store buffer, overlapping entries acknowledged, and nothing held. -/
def storesGo (st : State) (i : Issue) (cls : ScopeClass) (l : List (Hit × List Byte)) : Bool :=
  let held := (st.core i.t.cl (i.t.coreOf i.c.gid)).sb.length
  (held == 0 || decide (held + st.sbNeed i (l.filter fun x => i.buffers cls x) ≤ Config.storeBufferEntries))
    && !(st.drainFor i (i.stores st cls l)).acksOut i (i.stores st cls l)
    && !(st.drainFor i (i.stores st cls l)).storesHeld i cls l

theorem witness_GlobalStores :
    (∃ (w : MEM) (s : State) (i : Issue), InHand (.stg w) anyLit asIs s i ∧
      Passes s i (fun k => at64 w i k (szBytes w.sz)) (szBytes w.sz) .write .plain ∧ memOrd w = 2 ∧
      MayRelease (s.translated .plain (s.checks i (fun k => at64 w i k (szBytes w.sz)) (szBytes w.sz) .write .plain)) i (memClass w i.t)) ∧
    (∃ (w : MEM) (s : State) (i : Issue), w.sz = 0 ∧ InHand (.lst w) anyLit asIs s i ∧
      Passes s i (fun k => at64 w i k 128) 128 .write .plain ∧ memOrd w ≠ 2 ∧
      let st := s.translated .plain (s.checks i (fun k => at64 w i k 128) 128 .write .plain)
      let l := (hitsOf (s.checks i (fun k => at64 w i k 128) 128 .write .plain)).flatMap fun x =>
        imageParts ((List.range 8).map fun k => { x with pa := x.pa + 16 * k }) (i.acc x.t w.d.toNat).acc.image
      storesGo st i (memClass w i.t) l = true) ∧
    (∃ (w : MEM) (s : State) (i : Issue), InHand (.lred w) anyLit asIs s i ∧
      Passes s i (fun k => at64 w i k 128) 128 .write .dev ∧ memOrd w ≠ 2 ∧
      let c := s.checks i (fun k => at64 w i k 128) 128 .write .dev
      Drained (s.translated .dev c) i
        (i.writes (s.translated .dev c) (hitsOf c) 128 (fun x => .merge (i.acc x.t w.d.toNat).acc) .device false)) ∧
    ∀ h ∈ [0, 0x101], ∃ (w : MEM) (s : State) (i : Issue), InHand (.stg w) anyLit asIs s i ∧ i.hypOf 0 = h ∧
      let c := s.checks i (fun k => at64 w i k (szBytes w.sz)) (szBytes w.sz) .write .plain
      let l := (hitsOf c).map fun x => (x, i.storeBytes x.t w.d.toNat (szBytes w.sz))
      Passes s i (fun k => at64 w i k (szBytes w.sz)) (szBytes w.sz) .write .plain ∧ memClass w i.t = .core ∧
      (l.any fun x => !i.buffers .core x) = (h != 0) ∧ storesGo (s.translated .plain c) i .core l = true := by
  let b : Bench := { l := [0x10F00, 0], lit := 4 }
  let c : Bench := { b with h := fun g => { g with threads := g.threads.map fun th => { th with hyp := 0x101 } } }
  refine ⟨⟨mwL 4 16 2 0x15, b.s, b.i _, b.hand (by decide +kernel) (.inr rfl), passes_of (by decide +kernel), rfl,
      by unfold MayRelease; decide +kernel⟩,
    ⟨mw 0 16, b.s, b.i _, rfl, b.hand (by decide +kernel), passes_of (by decide +kernel), by decide, by decide +kernel⟩,
    ⟨mw 0 16, b.s, b.i _, b.hand (by decide +kernel), passes_of (by decide +kernel), by decide, by unfold Drained; decide +kernel⟩,
    fun h hh => ?_⟩
  have : h = 0 ∨ h = 0x101 := by simpa using hh
  rcases this with rfl | rfl
  · exact ⟨mwL 4 16 2 0, b.s, b.i _, b.hand (by decide +kernel) (.inr rfl), by decide +kernel, passes_of (by decide +kernel), by decide +kernel⟩
  · exact ⟨mwL 4 16 2 0, c.s, c.i _, c.hand (by decide +kernel) (.inr rfl), by decide +kernel, passes_of (by decide +kernel), by decide +kernel⟩

/-- An atomic's release and the drain of the entries it overlaps need not wait. -/
def atomGoes (w : AT) (op : AtomOp) (o : AtomOrder) (s : State) (i : Issue) : Prop :=
  let c := s.checks i (fun k => i.rd2 k w.a.toNat) (if w.sz then 8 else 4) .readWrite (o.kind op)
  let st := s.translated (o.kind op) c
  MayRelease st i o.cls ∧ Drained st i (i.writes st (hitsOf c) (if w.sz then 8 else 4)
    (fun x => .atomic op (i.atomArgs op w x.t).1 (i.atomArgs op w x.t).2 (if w.d = 63 then none else some w.d.toNat)) o.cls (o != .relaxed))

theorem witness_GlobalAtomics :
    (∃ (w : AT) (s : State) (i : Issue), InHand (.atgArCas w) anyLit asIs s i ∧
      Passes s i (fun k => i.rd2 k w.a.toNat) (if w.sz then 8 else 4) .readWrite (AtomOrder.acqRel.kind .cas) ∧
      atomGoes w .cas .acqRel s i) ∧
    (∃ (w : AT) (s : State) (i : Issue), InHand (.atgSysAdd w) anyLit asIs s i ∧
      Passes s i (fun k => i.rd2 k w.a.toNat) (if w.sz then 8 else 4) .readWrite (AtomOrder.system.kind .add) ∧
      atomGoes w .add .system s i) ∧
    ∃ (w : RR) (s : State) (i : Issue), InHand (.acas16 w) anyLit asIs s i ∧
      Passes s i (fun k => i.rd2 k w.a.toNat) 16 .readWrite (.sys true) ∧
      let c := s.checks i (fun k => i.rd2 k w.a.toNat) 16 .readWrite (.sys true)
      let st := s.translated (.sys true) c
      let quad := fun t n => leNat (wordsBytes [i.rd t n, i.rd t (n + 1), i.rd t (n + 2), i.rd t (n + 3)])
      MayRelease st i .system ∧ Drained st i (i.writes st (hitsOf c) 16
        (fun x => .cas16 (quad x.t w.b.toNat) (quad x.t (w.b.toNat + 4)) w.d.toNat) .system true) :=
  let b : Bench := { l := [0x10FF0, 0] }
  ⟨⟨aw 4 16 24, b.s, b.i _, b.hand (by decide +kernel), passes_of (by decide +kernel), by unfold atomGoes MayRelease Drained; decide +kernel⟩,
    ⟨{ aw 63 16 24 with sz := true }, b.s, b.i _, b.hand (by decide +kernel), passes_of (by decide +kernel),
      by unfold atomGoes MayRelease Drained; decide +kernel⟩,
    rr false 4 16 24, b.s, b.i _, b.hand (by decide +kernel), passes_of (by decide +kernel), by unfold MayRelease Drained; decide +kernel⟩

theorem witness_ScratchAtomics :
    ∃ (w : AT) (s : State) (i : Issue), InHand (.atsMinS w) anyLit asIs s i ∧ SpPasses s i (fun k => i.rd k w.a.toNat) (if w.sz then 8 else 4) :=
  let b : Bench := { l := [65532] }
  ⟨aw 4 16 24, b.s, b.i _, b.hand (by decide +kernel), spPasses_of (by decide +kernel)⟩

theorem witness_FenceWords :
    (∃ (w : FN) (s : State) (i : Issue), classOf w.scope.toNat i.t.record.hinged = .device ∧ s.loadsDone i.c.uid i.c.gid = true ∧
      MayRelease s i .device ∧ i.v = (Instr.fenceFull w).view ∧ InHand (.fenceFull w) anyLit asIs s i) ∧
    (∃ (w : FN) (s : State) (i : Issue), classOf w.scope.toNat i.t.record.hinged = .core ∧ s.loadsDone i.c.uid i.c.gid = true ∧
      MayRelease s i .core ∧ InHand (.fenceRel w) anyLit asIs s i) ∧
    (∀ full ∈ [true, false], ∃ (w : FN) (s : State) (i : Issue), InHand (if full then .fenceFull w else .fenceRel w) anyLit asIs s i ∧
      ¬MayRelease s i (classOf w.scope.toNat i.t.record.hinged)) ∧
    (∃ (w : FN) (s : State) (i : Issue), InHand (.fenceAcq w) anyLit asIs s i ∧ s.loadsDone i.c.uid i.c.gid = false) ∧
    (∀ on ∈ [true, false], ∃ (w : RM) (s : State) (i : Issue), InHand (.cacheDrain w) anyLit asIs s i ∧
      (s.drainGroup i.t.cl (i.t.coreOf i.c.gid) i.c.uid i.c.gid).drainPending i.c.uid i.c.gid = on) ∧
    (∀ free ∈ [true, false], ∃ (w : RM) (s : State) (i : Issue), let x := i.srcA w i.first
      InHand (.acqr w) (fun _ x => decide (x.toNat < 2 ^ 11)) asIs s i ∧ x.toNat < 2 ^ 11 ∧ (x.extractLsb' 8 3).toNat = i.t.cl ∧
        (x.extractLsb' 0 8).toNat = i.t.coreOf i.c.gid ∧ (if free then MayRelease s i .device else ¬MayRelease s i .device)) ∧
    (∀ done ∈ [true, false], ∃ (w : RM) (s : State) (i : Issue), let x := i.srcA w i.first
      InHand (.acqr w) (fun _ x => decide (x.toNat < 2 ^ 11)) asIs s i ∧ x.toNat < 2 ^ 11 ∧ (x.extractLsb' 0 8).toNat ≠ i.t.coreOf i.c.gid ∧
        s.coreRetired (x.extractLsb' 8 3).toNat (x.extractLsb' 0 8).toNat = true ∧ s.loadsDone i.c.uid i.c.gid = done) ∧
    (∃ (w : RM) (s : State) (i : Issue), let x := i.srcA w i.first
      InHand (.acqr w) (fun _ x => decide (x.toNat < 2 ^ 11)) asIs s i ∧ x.toNat < 2 ^ 11 ∧ (x.extractLsb' 8 3).toNat ≠ i.t.cl ∧
        s.coreRetired (x.extractLsb' 8 3).toNat (x.extractLsb' 0 8).toNat = false ∧ i.begun = none) ∧
    ∀ back ∈ [true, false], ∃ (w : RM) (s : State) (i : Issue) (a : Acqr), let x := i.srcA w i.first
      InHand (.acqr w) (fun _ x => decide (x.toNat < 2 ^ 11)) asIs s i ∧ x.toNat < 2 ^ 11 ∧ (x.extractLsb' 8 3).toNat ≠ i.t.cl ∧
        s.coreRetired (x.extractLsb' 8 3).toNat (x.extractLsb' 0 8).toNat = false ∧ i.begun ≠ none ∧
        s.acqrs.find? (fun a => a.uid == i.c.uid && a.gid == i.c.gid && a.pc == i.c.pc) = some a ∧ a.reported = back :=
  let b : Bench := {}
  let busy : Bench := { e := storing true }
  let load : Bench := { e := loading true false }
  let drain (on : Bool) : Bench := { e := draining on }
  let mine (free : Bool) : Bench := { e := storing !free }
  let far : Bench := { l := [2047] }
  let out (done : Bool) : Bench := { l := [2047], e := fun s => { loading (!done) false s with
    units := [{ word := unitCore 7 255, times := [], lasting := true, retired := true }] } }
  let a (back : Bool) : Acqr := { id := 9, uid := 2, gid := 0, pc := 0x10000, cl := 7, core := 255, arrived := true, cutFlights := [],
                                  cutEntries := [], drained := true, reported := back }
  let back (x : Bool) : Bench := { l := [2047], h := stalledAt 0 1001, e := fun s => { s with acqrs := [a x] } }
  ⟨⟨fw 4, b.s, b.i _, by decide, by decide +kernel, by unfold MayRelease; decide +kernel, rfl, b.hand (by decide +kernel)⟩,
    ⟨fw 0, b.s, b.i (.fenceRel (fw 0)), by decide, by decide +kernel, by unfold MayRelease; decide +kernel, b.hand (by decide +kernel)⟩,
    fun full _ => by
      cases full
      · exact ⟨fw 0, busy.s, busy.i (.fenceRel (fw 0)), busy.hand (by decide +kernel), by unfold MayRelease; decide +kernel⟩
      · exact ⟨fw 4, busy.s, busy.i (.fenceFull (fw 4)), busy.hand (by decide +kernel), by unfold MayRelease; decide +kernel⟩,
    ⟨fw 4, load.s, load.i _, load.hand (by decide +kernel), by decide +kernel⟩,
    fun on _ => ⟨rm false 0 0, (drain on).s, (drain on).i _, (drain on).hand (by cases on <;> decide +kernel), by cases on <;> decide +kernel⟩,
    fun free _ => by
      cases free
      · exact ⟨rm true 0 16, (mine false).s, (mine false).i (.acqr (rm true 0 16)), (mine false).hand (by decide +kernel), by decide +kernel, by decide +kernel,
          by decide +kernel, by simp only [MayRelease]; decide +kernel⟩
      · exact ⟨rm true 0 16, (mine true).s, (mine true).i (.acqr (rm true 0 16)), (mine true).hand (by decide +kernel), by decide +kernel, by decide +kernel,
          by decide +kernel, by simp only [MayRelease]; decide +kernel⟩,
    fun done _ => ⟨rm true 0 16, (out done).s, (out done).i _, (out done).hand (by cases done <;> decide +kernel), by cases done <;> decide +kernel⟩,
    ⟨rm true 0 16, far.s, far.i _, far.hand (by decide +kernel), by decide +kernel⟩,
    fun x _ => ⟨rm true 0 16, (back x).s, (back x).i _, a x, (back x).hand (by cases x <;> decide +kernel), by cases x <;> decide +kernel⟩⟩

theorem refOk_of {s : State} {i : Issue} {used : Bool} {w : Word} (h : (!used || (!refIllegal w && (s.latchRef i.t w).isSome)) = true) :
    RefOk s i used w := by
  intro hu
  subst hu
  simpa using h

/-- The control word, the scratchpad address before it; a command that is queued, and one that is held back. -/
theorem witness_CopyWords :
    (∃ (w : RR) (s : State) (i : Issue),
      let ctl := i.rd i.first (w.d.toNat + 1)
      let len := (ctl.extractLsb' 0 20).toNat
      InHand (.cp w) (litRef (w.d.toNat + 1)) (pickRef 2 fun i => i.rd i.first (w.d.toNat + 1)) s i ∧ ctl.extractLsb' 20 10 = 0 ∧
        ctl.getLsbD 31 = true ∧ ctl.getLsbD 30 = true ∧ 16 ∣ len ∧
        (i.rd2 i.first w.a.toNat).extractLsb' 48 16 = 0 ∧ (i.rd2 i.first w.a.toNat).extractLsb' 0 4 = 0 ∧
        (i.rd i.first w.d.toNat).extractLsb' 0 4 = 0 ∧ (s.spMarks i.t (i.rd i.first w.d.toNat) len).isSome = true ∧
        RefOk s i (ctl.getLsbD 30) (i.srcB w i.first) ∧ (s.copyQueue i.t.cl (i.t.coreOf i.c.gid)).length < 64 ∧
        s.counter i.c.uid i.c.gid 0 < 255 ∧ s.acquiring i = false) ∧
    (∀ hold ∈ [none, some true, some false], ∃ (w : RR) (s : State) (i : Issue),
      let ctl := i.rd i.first (w.d.toNat + 1)
      InHand (.cpo w) (litRef (w.d.toNat + 1)) (pickRef 2 fun i => i.rd i.first (w.d.toNat + 1)) s i ∧ (ctl.extractLsb' 0 20).toNat = 0 ∧
        ctl.getLsbD 30 = false ∧ ctl.getLsbD 31 = false ∧
        decide (255 ≤ s.counter i.c.uid i.c.gid 0) = (hold == some true) ∧ s.acquiring i = (hold == some false)) ∧
    (∀ held ∈ [true, false], ∃ (w : RR) (s : State) (i : Issue),
      let r := fun n => i.rd i.first (w.a.toNat + n)
      let ctl := r 7
      let hva := i.rd2 i.first w.a.toNat
      let y := s.engDrain (s.tileOp i w) .read 64 [hva.toNat]
      let s1 := (y.readHandle (y.tileOp i w) hva.toNat).1
      InHand (.cpt w) (litRef (w.a.toNat + 7)) (pickRef 1 fun i => i.rd i.first (w.a.toNat + 7)) s i ∧ ctl.getLsbD 28 = false ∧ ctl.getLsbD 31 = false ∧
        (ctl.extractLsb' 24 4).toNat < 7 ∧ 16 ∣ (ctl.extractLsb' 0 16).toNat ∧ (ctl.extractLsb' 24 4).toNat ≠ 5 ∧ ctl.extractLsb' 16 8 = 0 ∧
        hva.extractLsb' 48 16 = 0 ∧ hva.extractLsb' 0 6 = 0 ∧ (r 6).extractLsb' 0 4 = 0 ∧ ctl.getLsbD 30 = false ∧
        s.acquiring i = false ∧ s.accessing i = false ∧ s.tileFault i w = none ∧
        y.engHeld (y.tileOp i w) .read 64 [hva.toNat] = held ∧
        (held = false → ((y.readHandle (y.tileOp i w) hva.toNat).2.any fun l => (handleCheck l true).isSome) = true ∧
          (s1.spMarks i.t (r 6) 1).isSome = true ∧ (s1.copyQueue i.t.cl (i.t.coreOf i.c.gid)).length < 64 ∧ s1.counter i.c.uid i.c.gid 0 < 255)) ∧
    (∀ acq ∈ [true, false], ∃ (w : RR) (s : State) (i : Issue),
      let ctl := i.rd i.first (w.a.toNat + 7)
      InHand (.cpt w) (litRef (w.a.toNat + 7)) (pickRef 1 fun i => i.rd i.first (w.a.toNat + 7)) s i ∧ ctl.getLsbD 28 = false ∧ ctl.getLsbD 31 = false ∧
        (ctl.extractLsb' 24 4).toNat < 7 ∧ 16 ∣ (ctl.extractLsb' 0 16).toNat ∧ (ctl.extractLsb' 24 4).toNat ≠ 5 ∧ ctl.extractLsb' 16 8 = 0 ∧
        ctl.getLsbD 30 = false ∧ s.acquiring i = acq ∧ s.accessing i = true) ∧
    (∃ (w : RR) (s : State) (i : Issue),
      let ctl := i.rd i.first (w.a.toNat + 7)
      let hva := i.rd2 i.first w.a.toNat
      let y := s.engDrain (s.tileOp i w) .read 64 [hva.toNat]
      let s1 := (y.readHandle (y.tileOp i w) hva.toNat).1
      InHand (.cpt w) (litRef (w.a.toNat + 7)) (pickRef 1 fun i => i.rd i.first (w.a.toNat + 7)) s i ∧ ctl = 0x06000000 ∧
        hva.extractLsb' 48 16 = 0 ∧ hva.extractLsb' 0 6 = 0 ∧ (i.rd i.first (w.a.toNat + 6)).extractLsb' 0 4 = 0 ∧
        s.acquiring i = false ∧ s.accessing i = false ∧ s.tileFault i w = none ∧ y.engHeld (y.tileOp i w) .read 64 [hva.toNat] = false ∧
        ((y.readHandle (y.tileOp i w) hva.toNat).2.any fun l => (handleCheck l true).isSome) = true ∧
        (s1.spMarks i.t (i.rd i.first (w.a.toNat + 6)) 1).isSome = true ∧ 64 ≤ (s1.copyQueue i.t.cl (i.t.coreOf i.c.gid)).length) ∧
    (∀ hold ∈ [none, some true, some false], ∃ (w : RR) (s : State) (i : Issue) (e : Enrol),
      let ctl := i.rd i.first (w.d.toNat + 1)
      let sk := (ctl.extractLsb' 16 8).toNat
      let len := (ctl.extractLsb' 0 16).toNat
      InHand (.sld w) (litRef (w.d.toNat + 1)) (pickRef 2 fun i => i.rd i.first (w.d.toNat + 1)) s i ∧ ctl.getLsbD 31 = false ∧ ctl.extractLsb' 24 6 = 0 ∧
        sk < i.t.hdr.skeins ∧ 256 ≤ len ∧ len ≤ 32768 ∧ 256 ∣ len ∧ i.t.skeins.find? (fun e => e.sk == sk) = some e ∧
        (i.rd2 i.first w.a.toNat).extractLsb' 48 16 = 0 ∧ (i.rd2 i.first w.a.toNat).extractLsb' 0 8 = 0 ∧
        (i.rd i.first w.d.toNat).extractLsb' 30 2 = 0 ∧ (s.spMarks i.t (i.rd i.first w.d.toNat) len).isSome = true ∧
        (i.rd i.first w.d.toNat).extractLsb' 0 4 = 0 ∧ RefOk s i (ctl.getLsbD 30) (i.srcB w i.first) ∧
        decide (255 ≤ s.counter i.c.uid i.c.gid 2) = (hold == some true) ∧ s.acquiring i = (hold == some false)) ∧
    ∀ hold ∈ [none, some true, some false], ∃ (w : RR) (s : State) (i : Issue),
      let va := i.rd2 i.first w.a.toNat
      InHand (.pfr w) anyLit asIs s i ∧ va.extractLsb' 48 16 = 0 ∧ va.toNat + (i.srcB w i.first).toNat ≤ 2 ^ 48 ∧
        RefOk s i (w.d != 0) (i.rd i.first w.d.toNat) ∧
        decide (255 ≤ s.counter i.c.uid i.c.gid 2) = (hold == some true) ∧ s.acquiring i = (hold == some false) := by
  let mark : Bench := { l := [0x10000, 0, 0, 0, 65520, 0xC0000010] }
  let zero (x : Option Bool) : Bench := { e := heldBack 0 x }
  let tile (e : State → State) : Bench := { l := [0x10000, 0, 0, 0, 0, 0, 0, 0x06000000], e := e }
  let skein (x : Option Bool) : Bench :=
    { l := [0x10000, 0, 0, 0, 32768, 0x00018000], f := fun t => { t with skeins := [{ sk := 1, k := 0 }] }, e := heldBack 2 x }
  let pre (x : Option Bool) : Bench := { l := [0xFFFFFFF0, 0xFFFF, 0, 0, 0, 0, 0, 0, 16], e := heldBack 2 x }
  refine ⟨⟨rr true 20 16 24, mark.s, mark.i _, mark.hand (by decide +kernel), ?_⟩, fun x hx => ?_, fun held _ => ?_, fun acq _ => ?_,
    ⟨rr true 0 16 24, (tile (crowd 0 64)).s, (tile (crowd 0 64)).i _, (tile (crowd 0 64)).hand (by decide +kernel), ?_⟩, fun x hx => ?_, fun x hx => ?_⟩
  · unfold RefOk; decide +kernel
  · simp only [List.mem_cons, List.not_mem_nil, or_false] at hx
    refine ⟨rr true 20 16 24, (zero x).s, (zero x).i _, (zero x).hand ?_, ?_⟩ <;> rcases hx with rfl | rfl | rfl <;> decide +kernel
  · cases held
    · exact ⟨rr true 0 16 24, (tile id).s, (tile id).i _, (tile id).hand (by decide +kernel), by decide +kernel⟩
    · exact ⟨rr true 0 16 24, (tile confirming).s, (tile confirming).i _, (tile confirming).hand (by decide +kernel), by decide +kernel⟩
  · refine ⟨rr true 0 16 24, (tile (loading true acq)).s, (tile (loading true acq)).i _, (tile (loading true acq)).hand ?_, ?_⟩ <;> cases acq <;> decide +kernel
  · decide +kernel
  · simp only [List.mem_cons, List.not_mem_nil, or_false] at hx
    refine ⟨rr true 20 16 24, (skein x).s, (skein x).i _, { sk := 1, k := 0 }, (skein x).hand ?_, ?_⟩ <;> rcases hx with rfl | rfl | rfl <;>
      first | decide +kernel | (unfold RefOk; decide +kernel)
  · simp only [List.mem_cons, List.not_mem_nil, or_false] at hx
    refine ⟨rr true 4 16 24, (pre x).s, (pre x).i _, (pre x).hand ?_, ?_⟩ <;> rcases hx with rfl | rfl | rfl <;>
      first | decide +kernel | (unfold RefOk; decide +kernel)

/-- A skein of the bench's launch. -/
def skein (n : Nat) (members : List Nat) : Skein := { sk := 1, n := n, tmo := 7, members := members, timedOut := 0, late := 0, discarded := 0 }
def withSkein (k : Skein) (s : State) : State := s.mapLaunch 1 fun l => { l with skeins := [k] }

theorem witness_SkeinWords :
    (∃ (w : RM) (s : State) (i : Issue) (k : Skein), (i.srcA w i.first).extractLsb' 0 8 = 1 ∧ 1 < i.t.hdr.skeins ∧
      InHand (.sknDecl w) (sknOk 0) asIs s i ∧ s.skein? i.t.launch 1 = some k ∧ k.n = ((i.srcA w i.first).extractLsb' 8 8).toNat + 1) ∧
    (∃ (w : RM) (s : State) (i : Issue), (i.srcA w i.first).extractLsb' 0 8 = 1 ∧
      InHand (.sknDecl w) (sknOk 0) asIs s i ∧ s.skein? i.t.launch 1 = none) ∧
    (∃ (w : RM) (s : State) (i : Issue) (k : Skein), (i.srcA w i.first).extractLsb' 8 24 = 0 ∧
      InHand (.sknJoin w) (sknOk 1) asIs s i ∧ s.skein? i.t.launch 1 = some k ∧ i.t.uid ∈ k.members) ∧
    (∃ (w : RM) (s : State) (i : Issue) (k : Skein), (i.srcA w i.first).extractLsb' 8 24 = 0 ∧
      InHand (.sknJoin w) (sknOk 1) asIs s i ∧ s.skein? i.t.launch 1 = some k ∧ i.t.uid ∉ k.members ∧ k.n ≤ k.members.length) ∧
    (∃ (w : RM) (s : State) (i : Issue) (k : Skein), (i.srcA w i.first).extractLsb' 8 24 = 0 ∧
      InHand (.sknJoin w) (sknOk 1) asIs s i ∧ s.skein? i.t.launch 1 = some k ∧ i.t.uid ∉ k.members ∧ k.members.length < k.n) ∧
    (∃ (w : RM) (s : State) (i : Issue) (k : Skein), (i.srcA w i.first).extractLsb' 8 24 = 0 ∧
      InHand (.sknLeave w) (sknOk 2) asIs s i ∧ s.skein? i.t.launch 1 = some k ∧ i.t.uid ∈ k.members) ∧
    ∃ (w : RM) (s : State) (i : Issue), (i.srcA w i.first).extractLsb' 8 24 = 0 ∧
      InHand (.sknStat w) (sknOk 3) asIs s i ∧ s.skein? i.t.launch 1 = none :=
  let w := rm true 4 16
  let d : Bench := { l := [0x00070301], e := withSkein (skein 4 []) }
  let u : Bench := { l := [1] }
  let m : Bench := { l := [1], e := withSkein (skein 4 [2]) }
  let full : Bench := { l := [1], e := withSkein (skein 1 [3]) }
  let room : Bench := { l := [1], e := withSkein (skein 2 [3]) }
  ⟨⟨w, d.s, d.i _, skein 4 [], by decide +kernel, by decide, d.hand (by decide +kernel), by decide +kernel⟩,
    ⟨w, u.s, u.i _, by decide +kernel, u.hand (by decide +kernel), by decide +kernel⟩,
    ⟨w, m.s, m.i _, skein 4 [2], by decide +kernel, m.hand (by decide +kernel), by decide +kernel⟩,
    ⟨w, full.s, full.i _, skein 1 [3], by decide +kernel, full.hand (by decide +kernel), by decide +kernel⟩,
    ⟨w, room.s, room.i _, skein 2 [3], by decide +kernel, room.hand (by decide +kernel), by decide +kernel⟩,
    ⟨w, m.s, m.i _, skein 4 [2], by decide +kernel, m.hand (by decide +kernel), by decide +kernel⟩,
    w, u.s, u.i _, by decide +kernel, u.hand (by decide +kernel), by decide +kernel⟩

/-- A latch of the team made valid. -/
def validLatch (k : Nat) (h : Latch → Latch := id) (t : Team) : Team := t.onLatch k fun l => h { l with v := true, f := false, ea := 1, a := 1 }

theorem witness_LatchWords :
    (∃ (w : RM) (s : State) (i : Issue), InHand (.latchInit w) anyLit asIs s i ∧ (i.rd i.first w.a.toNat).toNat = 32767 ∧
      (i.rd i.first (w.a.toNat + 1)).toNat = 2 ^ 31 - 1) ∧
    (∃ (w : RM) (s : State) (i : Issue), InHand (.latchExpect w) (fun _ x => !x.getLsbD 31) asIs s i ∧
      (i.srcA w i.first).toNat = 2 ^ 31 - 1 ∧ (i.t.latch w.d.toNat).v = true) ∧
    (∀ free ∈ [true, false], ∃ (w : RM) (s : State) (i : Issue), InHand (.latchArrive w) anyLit asIs s i ∧ w.d.toNat = 15 ∧
      (i.t.latch 15).v = true ∧ (∀ k ∈ i.c.active, i.report k = none) ∧ s.released i.t.cl (i.t.coreOf i.c.gid) i.c.uid i.c.gid (classOf 1 i.t.record.hinged) = free) ∧
    (∀ free ∈ [true, false], ∃ (w : RM) (s : State) (i : Issue) (x : LatchTarget), InHand (.latchArriveRemote w) (fun _ x => !refIllegal x) asIs s i ∧
      refIllegal (i.srcA w i.first) = false ∧ s.released i.t.cl (i.t.coreOf i.c.gid) i.c.uid i.c.gid .device = free ∧
      s.latchRef i.t (i.srcA w i.first) = some x) ∧
    (∀ far ∈ [true, false], ∃ (w : RM) (s : State) (i : Issue), InHand (.latchWait w) (fun _ x => decide (x.toNat < 2)) asIs s i ∧
      i.passes ≠ [] ∧ decide (true ∈ i.passes) = far) ∧
    (∃ (w : RM) (s : State) (i : Issue), InHand (.latchWait w) (fun _ x => decide (x.toNat < 2)) asIs s i ∧ i.passes = [] ∧
      (i.srcA w i.first).toNat < 2 ∧ (i.t.latch w.d.toNat).v = true ∧ (i.t.latch w.d.toNat).f = false ∧
      (i.t.latch w.d.toNat).ph ≠ (i.srcA w i.first).getLsbD 0) ∧
    (∃ (w : RM) (s : State) (i : Issue), InHand (.latchWait w) (fun _ x => decide (x.toNat < 2)) asIs s i ∧ i.passes = [] ∧
      (i.srcA w i.first).toNat < 2 ∧ (i.t.latch w.d.toNat).v = true ∧ (i.t.latch w.d.toNat).f = false ∧
      (i.t.latch w.d.toNat).ph = (i.srcA w i.first).getLsbD 0) ∧
    (∃ (w : RM) (s : State) (i : Issue), InHand (.latchTest w) anyLit asIs s i ∧ (i.t.latch w.a.toNat).v = true ∧
      (i.t.latch w.a.toNat).f = false) ∧
    ∃ (w : RM) (s : State) (i : Issue), InHand (.latchInval w) anyLit asIs s i ∧ (i.t.latch w.d.toNat).v = true :=
  let n : Bench := { l := [32767, 0x7FFFFFFF] }
  let x : Bench := { l := [0x7FFFFFFF], f := validLatch 4 }
  let z (free : Bool) : Bench := { e := storing !free }
  let y : Bench := { l := [1], f := validLatch 4 }
  let v : Bench := { f := validLatch 4 }
  let q : Bench := { f := validLatch 2 }
  let pass (far : Bool) : Bench := { h := fun g => { g with threads := g.threads.map fun th => { th with passed := some far } } }
  ⟨⟨rm true 4 16, n.s, n.i _, n.hand (by decide +kernel), by decide +kernel⟩,
    ⟨rm true 4 16, x.s, x.i _, x.hand (by decide +kernel), by decide +kernel⟩,
    fun free _ => ⟨rm true 15 0, (z free).s, (z free).i (.latchArrive (rm true 15 0)), (z free).hand (by cases free <;> decide +kernel), by decide,
      by cases free <;> decide +kernel⟩,
    fun free _ => ⟨rm true 0 16, (z free).s, (z free).i (.latchArriveRemote (rm true 0 16)), { uid := 2, lk := 0, far := false },
      (z free).hand (by cases free <;> decide +kernel), by cases free <;> decide +kernel⟩,
    fun far _ => by
      cases far
      · exact ⟨rm true 4 16, (pass false).s, (pass false).i _, (pass false).hand (by decide +kernel), by decide +kernel⟩
      · exact ⟨rm true 4 16, (pass true).s, (pass true).i _, (pass true).hand (by decide +kernel), by decide +kernel⟩,
    ⟨rm true 4 16, y.s, y.i _, y.hand (by decide +kernel), by decide +kernel⟩,
    ⟨rm true 4 16, v.s, v.i _, v.hand (by decide +kernel), by decide +kernel⟩,
    ⟨rm true 4 2, q.s, q.i _, q.hand (by decide +kernel), by decide +kernel⟩,
    rm true 4 0, v.s, v.i _, v.hand (by decide +kernel), by decide +kernel⟩

theorem witness_WaitcWord :
    (∃ (w : RN) (s : State) (i : Issue), InHand (.waitc w) (fun _ x => decide (x.toNat < 2 ^ 8)) asIs s i ∧
      (i.rd i.first w.a.toNat).toNat = 0 ∧ w.l = false ∧ 0 < s.counter i.c.uid i.c.gid w.m.toNat) ∧
    (∃ (w : RN) (s : State) (i : Issue), InHand (.waitc w) (fun _ x => decide (x.toNat < 2 ^ 8)) asIs s i ∧
      (i.rd i.first w.a.toNat).toNat = 255 ∧ w.l = false ∧ s.counter i.c.uid i.c.gid w.m.toNat ≤ 255 ∧
      i.g.coveredEvent w.m.toNat (s.coverBound i w.m.toNat 255) = none) ∧
    (∃ (w : RN) (s : State) (i : Issue), InHand (.waitc w) anyLit asIs s i ∧ (i.rd i.first w.a.toNat).toNat = 256 ∧ w.l = false ∧ CanTrap i) ∧
    ∃ (w : RN) (s : State) (i : Issue) (e : EngEvent), InHand (.waitc w) (fun _ x => decide (x.toNat < 2 ^ 8)) asIs s i ∧
      (i.rd i.first w.a.toNat).toNat = 0 ∧ w.l = false ∧ s.counter i.c.uid i.c.gid w.m.toNat ≤ 0 ∧ CanTrap i ∧
      i.g.coveredEvent w.m.toNat (s.coverBound i w.m.toNat 0) = some e :=
  let e : EngEvent := { cls := 0, seq := 3, pivot := false, datum := 5 }
  let a : Bench := { e := fun s => { s with ops := [op 7 0 .queued (.mzero 0)] } }
  let b : Bench := { l := [255] }
  let far : Bench := { l := [256] }
  let c : Bench := { h := fun g => { g with events := [e] } }
  ⟨⟨rn true 0 16 0, a.s, a.i _, a.hand (by decide +kernel), by decide +kernel⟩,
    ⟨rn true 0 16 0, b.s, b.i _, b.hand (by decide +kernel), by decide +kernel⟩,
    ⟨rn true 0 16 0, far.s, far.i _, far.hand (by decide +kernel), by decide +kernel, rfl, canTrap_of (by decide +kernel)⟩,
    rn true 0 16 0, c.s, c.i _, e, c.hand (by decide +kernel), by decide +kernel, rfl, by decide +kernel, canTrap_of (by decide +kernel),
      by decide +kernel⟩

/-- A queue register with a binding and `n` words. -/
def withQueue (q : Nat) (bind : Word) (n : Nat) (g : Group) : Group :=
  { g with queues := g.queues.set q { bind := bind, target := 2, words := List.replicate n (7, true) } }

theorem witness_QueueWords :
    (∃ (w : RM) (s : State) (i : Issue), InHand (.qopBind w) (fun _ x => !portIllegal x) asIs s i ∧ portIllegal (i.srcA w i.first) = false ∧
      bindRefused i.t i.g w.d.toNat (i.srcA w i.first) = false ∧ (i.srcA w i.first).extractLsb' 28 4 = 5 ∧
      (s.portTarget i.t (i.srcA w i.first)).isSome = true) ∧
    (∃ (w : RM) (s : State) (i : Issue), InHand (.qopBind w) (fun _ x => !portIllegal x) asIs s i ∧ portIllegal (i.srcA w i.first) = false ∧
      bindRefused i.t i.g w.d.toNat (i.srcA w i.first) = false ∧ (i.srcA w i.first).extractLsb' 28 4 ≠ 5) ∧
    (∀ free ∈ [true, false], ∃ (w : RN) (s : State) (i : Issue), InHand (.qpush w) anyLit asIs s i ∧ (i.g.queue w.m.toNat).kind = 5 ∧
      (i.g.queue w.m.toNat).words.length + (i.runners.map fun k => i.rd k w.a.toNat).length = 64 ∧
      s.released i.t.cl (i.t.coreOf i.c.gid) i.c.uid i.c.gid (s.peerClass i (i.g.queue w.m.toNat)) = free) ∧
    (∃ (w : RN) (s : State) (i : Issue), InHand (.qpush w) anyLit asIs s i ∧ (i.g.queue w.m.toNat).kind = 4 ∧ CanTrap i) ∧
    (∀ kind ∈ [0, 5], ∃ (w : RN) (s : State) (i : Issue), InHand (.qpop w) anyLit asIs s i ∧ (i.g.queue w.m.toNat).kind = kind ∧ CanTrap i) ∧
    (∀ pass ∈ [true, false], ∃ (w : RN) (s : State) (i : Issue), InHand (.qpop w) anyLit asIs s i ∧ (i.g.queue w.m.toNat).kind = 1 ∧
      i.runners.length ≤ (i.g.queue w.m.toNat).words.length ∧ i.v.u = true ∧ i.popPassed w.d.toNat (i.popNumber s) = pass) ∧
    (∃ (w : RN) (s : State) (i : Issue), InHand (.qpush w) anyLit asIs s i ∧ (i.g.queue w.m.toNat).kind = 5 ∧
      (i.g.queue w.m.toNat).words.length + (i.runners.map fun k => i.rd k w.a.toNat).length = 65) ∧
    (∃ (w : RN) (s : State) (i : Issue), InHand (.qpop w) anyLit asIs s i ∧ (i.g.queue w.m.toNat).kind = 4 ∧
      i.runners.length = (i.g.queue w.m.toNat).words.length) ∧
    (∃ (w : RN) (s : State) (i : Issue), InHand (.qpop w) anyLit asIs s i ∧ (i.g.queue w.m.toNat).kind = 1 ∧
      (i.g.queue w.m.toNat).words.length < i.runners.length ∧ w.ea = false) ∧
    ∃ (w : RN) (s : State) (i : Issue), InHand (.qpop w) anyLit asIs s i ∧ (i.g.queue w.m.toNat).kind = 2 ∧
      (i.g.queue w.m.toNat).words.length < i.runners.length ∧ w.ea = true ∧ CanTrap i :=
  let o : Bench := { l := [0x50000003] }
  let n : Bench := { l := [0x40000003] }
  let p (k : Nat) : Bench := { h := withQueue 0 0x50000003 k }
  let held (free : Bool) : Bench := { h := withQueue 0 0x50000003 62, e := storing !free }
  let younger (pass : Bool) : Bench := { h := fun g => withQueue 1 0x10000000 1 { g with threads := g.threads.mapIdx fun k th =>
    { th with popping := if k = 0 ∨ k = 5 then some (true, 4, 6) else if k = 7 then some (true, 4, if pass then 7 else 5) else none } } }
  let q (b : Word) (k : Nat) : Bench := { h := withQueue 1 b k }
  ⟨⟨rm true 4 16, o.s, o.i _, o.hand (by decide +kernel), by decide +kernel⟩,
    ⟨rm true 4 16, n.s, n.i _, n.hand (by decide +kernel), by decide +kernel⟩,
    fun free _ => ⟨rn false 0 16 0, (held free).s, (held free).i _, (held free).hand (by cases free <;> decide +kernel),
      by cases free <;> decide +kernel⟩,
    ⟨rn false 0 16 1, (q 0x40000003 0).s, (q 0x40000003 0).i _, (q 0x40000003 0).hand (by decide +kernel), by decide +kernel, canTrap_of (by decide +kernel)⟩,
    fun kind hk => by
      simp only [List.mem_cons, List.not_mem_nil, or_false] at hk
      rcases hk with rfl | rfl
      · exact ⟨rn false 4 0 1, (p 0).s, (p 0).i _, (p 0).hand (by decide +kernel), by decide +kernel, canTrap_of (by decide +kernel)⟩
      · exact ⟨rn false 4 0 0, (p 1).s, (p 1).i _, (p 1).hand (by decide +kernel), by decide +kernel, canTrap_of (by decide +kernel)⟩,
    fun pass _ => ⟨rn true 4 0 1, (younger pass).s, (younger pass).i _, (younger pass).hand (by cases pass <;> decide +kernel),
      by cases pass <;> decide +kernel⟩,
    ⟨rn false 0 16 0, (p 63).s, (p 63).i _, (p 63).hand (by decide +kernel), by decide +kernel⟩,
    ⟨rn false 4 0 1, (q 0x40000003 2).s, (q 0x40000003 2).i _, (q 0x40000003 2).hand (by decide +kernel), by decide +kernel⟩,
    ⟨rn false 4 0 1, (q 0x10000000 1).s, (q 0x10000000 1).i _, (q 0x10000000 1).hand (by decide +kernel), by decide +kernel⟩,
    { rn false 4 0 1 with ea := true }, (q 0x20000000 0).s, (q 0x20000000 0).i _, (q 0x20000000 0).hand (by decide +kernel), by decide +kernel,
      by decide +kernel, by decide +kernel, canTrap_of (by decide +kernel)⟩

/-- Hypotheses of the bench's process: 1 under the root, 2 under 1 at depth `n`. -/
def withHyps (n : Nat) (st : HypState) (s : State) : State :=
  s.mapSlot 0 fun sl => (sl.setHyp { id := 1, gen := 1, st := .live, parent := 0, depth := 1 }).setHyp
    { id := 2, gen := 1, st := st, parent := 0x101, depth := n }
/-- The threads of a group under a hypothesis. -/
def under (h : Word) (g : Group) : Group := { g with threads := g.threads.map fun th => { th with hyp := h } }

theorem witness_HypothesisWords :
    (∃ (w : RM) (s : State) (i : Issue), InHand (.hypNew w) anyLit asIs s i ∧ i.subsetHyp ≠ 0 ∧ (s.slot i.t.slot).hypStatus i.subsetHyp ≠ 0) ∧
    (∃ (w : RM) (s : State) (i : Issue), InHand (.hypNew w) anyLit asIs s i ∧ i.subsetHyp ≠ 0 ∧ (s.slot i.t.slot).hypStatus i.subsetHyp = 0 ∧
      15 ≤ ((s.slot i.t.slot).hyp (hypId i.subsetHyp)).depth) ∧
    (∃ (w : RM) (s : State) (i : Issue), InHand (.hypNew w) anyLit asIs s i ∧ i.subsetHyp = 0 ∧
      (List.range 256).find? (fun id => id != 0 && ((s.slot i.t.slot).hyp id).st == .free) = some 1 ∧ (s.slot i.t.slot).xctl.getLsbD 1 = true) ∧
    (∀ full ∈ [true, false], ∃ (w : RM) (s : State) (i : Issue), InHand (.hypNew w) anyLit asIs s i ∧ i.subsetHyp = 0 ∧
      (((List.range 256).find? fun id => id != 0 && ((s.slot i.t.slot).hyp id).st == .free) = none) = full ∧ (s.slot i.t.slot).xctl.getLsbD 1 = full) ∧
    (∃ (w : RM) (s : State) (i : Issue), InHand (.hypConfirm w) (fun _ => handleOk) asIs s i ∧ i.begun = none ∧ handleOk (i.srcA w i.first) = true ∧
      MayRelease s i .device ∧ (s.slot i.t.slot).hypStatus (i.srcA w i.first) ≠ 0) ∧
    (∃ (w : RM) (s : State) (i : Issue), InHand (.hypEnter w) (fun _ => handleOk) asIs s i ∧ handleOk (i.srcA w i.first) = true ∧
      i.srcA w i.first ≠ 0 ∧ (s.slot i.t.slot).hypStatus (i.srcA w i.first) = 0) ∧
    (∃ (w : RM) (s : State) (i : Issue), InHand (.hypStat w) (fun _ => handleOk) asIs s i ∧ handleOk (i.srcA w i.first) = true ∧
      (s.slot i.t.slot).hypStatus (i.srcA w i.first) ≠ 0) ∧
    (∀ live ∈ [true, false], ∃ (w : RM) (s : State) (i : Issue), InHand (.hypRefute w) (fun _ => handleOk) asIs s i ∧
      handleOk (i.srcA w i.first) = true ∧ MayRelease s i .device ∧ decide ((s.slot i.t.slot).hypStatus (i.srcA w i.first) = 0) = live) ∧
    (∀ no ∈ [true, false], ∃ (w : RM) (s : State) (i : Issue), InHand (if no then .hypRefute w else .hypConfirm w) (fun _ => handleOk) asIs s i ∧
      i.begun = none ∧ handleOk (i.srcA w i.first) = true ∧ ¬MayRelease s i .device) ∧
    (∃ (w : RM) (s : State) (i : Issue), InHand (.hypConfirm w) (fun _ => handleOk) asIs s i ∧ i.begun = none ∧ handleOk (i.srcA w i.first) = true ∧
      MayRelease s i .device ∧ (s.slot i.t.slot).hypStatus (i.srcA w i.first) = 0 ∧
      (s.confirm i.t.slot (hypId (i.srcA w i.first))).2.1 ≠ 0 ∧ ((s.slot i.t.slot).hyp (hypId (i.srcA w i.first))).parent ≠ 0) ∧
    (∃ (w : RM) (s : State) (i : Issue), InHand (.hypConfirm w) (fun _ => handleOk) asIs s i ∧ i.begun = none ∧ handleOk (i.srcA w i.first) = true ∧
      MayRelease s i .device ∧ (s.slot i.t.slot).hypStatus (i.srcA w i.first) = 0 ∧
      (s.confirm i.t.slot (hypId (i.srcA w i.first))).2.1 ≠ 0 ∧ ((s.slot i.t.slot).hyp (hypId (i.srcA w i.first))).parent = 0) ∧
    (∃ (w : RM) (s : State) (i : Issue), InHand (.hypConfirm w) (fun _ => handleOk) asIs s i ∧ i.begun = none ∧ handleOk (i.srcA w i.first) = true ∧
      MayRelease s i .device ∧ (s.slot i.t.slot).hypStatus (i.srcA w i.first) = 0 ∧ (s.liveHyp i.t.slot (i.srcA w i.first)).isSome = true ∧
      (s.confirm i.t.slot (hypId (i.srcA w i.first))).2.1 = 0) ∧
    ∀ late ∈ [true, false], ∃ (w : RM) (s : State) (i : Issue) (y : Stall), InHand (.hypConfirm w) (fun _ => handleOk) asIs s i ∧ i.begun = some y ∧
      if late then y.waitUntil = s.now else s.now < y.waitUntil :=
  let dead : Bench := { h := under 0x102, e := withHyps 2 .refuted }
  let deep : Bench := { h := under 0x102, e := withHyps 15 .live }
  let z : Bench := {}
  let b (x : Word) : Bench := { l := [x], e := withHyps 2 .live }
  let c (x : Word) : Bench := { l := [x], e := withHyps 2 .refuted }
  let cap : Bench := { l := [0x101], e := fun s => { withHyps 2 .live s with
                                                     vscfg := 0, flights := [{ flight 50 (.store [1]) 1 with hyp := 0x101 }] } }
  let y (n : Nat) : Stall := { pc := 0x10000, setPc := 0x10000, begun := true, result := 1, waitUntil := n }
  let d (n : Nat) : Bench := { h := fun g => { g with stall := some (y n) } }
  let w := rm true 4 16
  let busy : Bench := { l := [0x101], e := storing true }
  let none1 : Bench := { e := fun s => s.mapSlot 0 fun sl => { sl with hyps := (List.range 256).map fun k =>
    { id := k, gen := 1, st := .live, parent := 0, depth := 1 } } }
  let off : Bench := { e := fun s => s.mapSlot 0 fun sl => { sl with xctl := 4 } }
  ⟨⟨rm true 4 0, dead.s, dead.i _, dead.hand (by decide +kernel), by decide +kernel⟩,
    ⟨rm true 4 0, deep.s, deep.i _, deep.hand (by decide +kernel), by decide +kernel⟩,
    ⟨rm true 4 0, z.s, z.i _, z.hand (by decide +kernel), by decide +kernel⟩,
    fun full _ => by
      cases full
      · exact ⟨rm true 4 0, off.s, off.i _, off.hand (by decide +kernel), by decide +kernel⟩
      · exact ⟨rm true 4 0, none1.s, none1.i _, none1.hand (by decide +kernel), by decide +kernel⟩,
    ⟨w, (c 0x102).s, (c 0x102).i _, (c 0x102).hand (by decide +kernel), by decide +kernel, by decide +kernel, by unfold MayRelease; decide +kernel,
      by decide +kernel⟩,
    ⟨w, (b 0x102).s, (b 0x102).i _, (b 0x102).hand (by decide +kernel), by decide +kernel⟩,
    ⟨w, (c 0x102).s, (c 0x102).i _, (c 0x102).hand (by decide +kernel), by decide +kernel⟩,
    fun live _ => by
      cases live
      · exact ⟨w, (c 0x102).s, (c 0x102).i _, (c 0x102).hand (by decide +kernel), by decide +kernel, by unfold MayRelease; decide +kernel, by decide +kernel⟩
      · exact ⟨w, (b 0x101).s, (b 0x101).i _, (b 0x101).hand (by decide +kernel), by decide +kernel, by unfold MayRelease; decide +kernel, by decide +kernel⟩,
    fun no _ => by
      cases no
      · exact ⟨w, busy.s, busy.i (.hypConfirm w), busy.hand (by decide +kernel), by decide +kernel, by decide +kernel, by unfold MayRelease; decide +kernel⟩
      · exact ⟨w, busy.s, busy.i (.hypRefute w), busy.hand (by decide +kernel), by decide +kernel, by decide +kernel, by unfold MayRelease; decide +kernel⟩,
    ⟨w, (b 0x102).s, (b 0x102).i _, (b 0x102).hand (by decide +kernel), by decide +kernel, by decide +kernel, by unfold MayRelease; decide +kernel,
      by decide +kernel⟩,
    ⟨w, (b 0x101).s, (b 0x101).i _, (b 0x101).hand (by decide +kernel), by decide +kernel, by decide +kernel, by unfold MayRelease; decide +kernel,
      by decide +kernel⟩,
    ⟨w, cap.s, cap.i _, cap.hand (by decide +kernel), by decide +kernel, by decide +kernel, by unfold MayRelease; decide +kernel,
      by decide +kernel⟩,
    fun late hl => by
      simp only [List.mem_cons, List.not_mem_nil, or_false] at hl
      rcases hl with rfl | rfl
      · exact ⟨w, (d 1000).s, (d 1000).i _, y 1000, (d 1000).hand (by decide +kernel), by decide +kernel, rfl⟩
      · exact ⟨w, (d 1001).s, (d 1001).i _, y 1001, (d 1001).hand (by decide +kernel), by decide +kernel, by decide +kernel⟩⟩

/-- A kernel's header and a record of it, in memory: the header at 0x10200, the record at 0x10100, its join block at 0x10300. -/
def head8 : List Byte := 8 :: List.replicate 63 0
def rec8 (gang : Bool) : Record :=
  { entry := 0x10240, frame := 5, join := 0, slots := 0, hinged := false, width := 0, groups := 1, sp := 0, gang := gang, prio := 0, count := 1 }
def withCode (gang : Bool) (count : Nat) (s : State) : State :=
  { s with mem := Memory.writeN (Memory.writeN (Memory.writeN s.mem 0x10200 head8) 0x10100 (rec8 gang).bytes) 0x10300 (leBytes 8 count) }

/-- A device release of the word in hand need not wait. -/
def mayDevice (s : State) (i : Issue) : Bool := s.released i.t.cl (i.t.coreOf i.c.gid) i.c.uid i.c.gid .device

/-- Nothing of the process is queued and the first bytes of its spill space translate: there is room, whatever the depth of the
hardware queues (log 9). -/
def roomy (s : State) (p n : Nat) : Bool :=
  (s.queuedOf p).isEmpty && decide (n ≤ (s.slot p).spsize) && (s.slot p).err == 0 &&
    (pageParts (s.slot p).spbase.toNat n).all fun x =>
      match s.translate (s.slot p) x.1 .write with
      | .ok _ _ _ => true
      | _ => false
theorem spill_of_roomy {s : State} {p n : Nat} (h : roomy s p n = true) : ∃ st, s.spill p n = (st, true) := by
  simp only [roomy, Bool.and_eq_true, List.isEmpty_iff, decide_eq_true_eq, beq_iff_eq, List.all_eq_true] at h
  obtain ⟨⟨⟨hq, hn⟩, he⟩, ht⟩ := h
  have room : spillRoom [] (s.slot p).spsize n = some 0 := by simp [spillRoom, leastBy, hn]
  have reach : ∃ l, s.spillReach p 0 n .write = .ok l := by
    have : ((pageParts ((s.slot p).spbase.toNat + 0) n).findSome? fun x =>
        match s.translate (s.slot p) x.1 .write with
        | .ok _ _ _ => none
        | y => some (x.1, y)) = none := by
      rw [List.findSome?_eq_none_iff]
      intro x hx
      have := ht x hx
      split at this
      · rfl
      · cases this
    simp only [State.spillReach]
    rw [if_neg (by rw [he]; omega)]
    split
    · next h => cases this.symm.trans h
    · next h => cases this.symm.trans h
    · exact ⟨_, rfl⟩
  obtain ⟨l, hl⟩ := reach
  rw [State.spill, State.spillSpot, hq]
  by_cases hd : (([] : List QRec).filter fun x => x.spillAt.isNone).length < Config.hwQueueDepth
  · rw [if_pos hd]
    exact ⟨_, rfl⟩
  · rw [if_neg hd]
    simp only [List.filterMap_nil, room, Option.map_some, hl]
    exact ⟨_, rfl⟩

/-- A read that would trap. -/
def unresolved (s : State) (i : Issue) (va : DWord) (n : Nat) : Bool :=
  match s.checkGlobal i va n .read .plain 0 false with
  | .trap _ _ => true
  | _ => false

/-- What `spawn` reads: the record and its header, each read's answer taken from the state the one before left. -/
def spawnReads (s : State) (i : Issue) (va : DWord) : Option (Record × Header × State) :=
  (s.reads i va 32 .read .plain).bind fun x1 => (Record.parse x1.2.2).bind fun r =>
    (x1.1.reads i (r.entry - 64) 64 .read .plain).bind fun x2 => (Header.parse x2.2.2).map fun h => (r, h, x2.1)

theorem spill_of_full {s : State} {p n : Nat} {q : QRec} (hs : s.queuedOf p = List.replicate Config.hwQueueDepth q)
    (hq : q.spillAt = none) (hz : (s.slot p).spsize = 0) (hn : 0 < n) : s.spill p n = (s, false) := by
  have h1 : (List.replicate Config.hwQueueDepth q).filter (fun x => x.spillAt.isNone) = List.replicate Config.hwQueueDepth q := by
    rw [List.filter_replicate]; simp [hq]
  have h2 : (List.replicate Config.hwQueueDepth q).filterMap (fun x => x.spillAt.map fun off => (off, x.spillBytes)) = [] := by
    rw [List.filterMap_replicate_of_none (by simp [hq])]
  have h3 : spillRoom [] 0 n = none := by
    have : n ≠ 0 := by omega
    simp [spillRoom, leastBy, this]
  simp only [State.spill, State.spillSpot, hs, h1, h2, hz, h3, List.length_replicate, Nat.lt_irrefl, if_false, Option.map_none]

/-- A record that waits in the hardware queue, and as many of them as it holds (log 9). -/
def queued0 : QRec :=
  { id := 1, record := rcd, hdr := hdr, launch := 1, slot := 0, pushed := 0, next := 0, stop := 0, prio := 0, raised := false, pin := none,
    msg := none, order := 0 }
def crowded (s : State) : State :=
  { s with clusters := match s.clusters with
    | [] => []
    | c :: l => { c with queue := List.replicate Config.hwQueueDepth queued0 } :: l }

/-- A message on its way from the bench's core. -/
def message0 : Message :=
  { id := 1, slot := 0, cl := 0, core := 0, dst := 0, prio := 0, idx := 0, entry := 0, frame := 0, table := 0, words := [], src := 0, parked := false,
    failed := false }

/-- The conditions of SpawnWords on what is read; the state in which no record fits the queue is given by itself, since the
number that the hardware queue holds is open. -/
theorem witness_SpawnWords :
    (∀ gang ∈ [true, false], ∃ (w : RM) (s : State) (i : Issue), InHand (if gang then .spawnGang w else .spawn w) anyLit asIs s i ∧
      mayDevice s i = true ∧ ((spawnReads s i (i.rd2 i.first w.a.toNat)).any fun x => x.1.against x.2.1 == 0 && x.1.gang == gang &&
        (if gang then x.2.2.gangFits x.1 x.2.1 else roomy x.2.2 i.t.slot 64)) = true) ∧
    (∃ s : State, s.spill 0 64 = (s, false)) ∧
    (∀ k ∈ [0, 1, 2], ∃ (w : RM) (s : State) (i : Issue), InHand (if k = 2 then .spawnGang w else .spawn w) anyLit asIs s i ∧ mayDevice s i = true ∧
      ((spawnReads s i (i.rd2 i.first w.a.toNat)).any fun x => match k with
        | 0 => x.1.against x.2.1 != 0
        | 1 => x.1.against x.2.1 == 0 && x.1.gang
        | _ => x.1.against x.2.1 == 0 && x.1.gang && !x.2.2.gangFits x.1 x.2.1) = true) ∧
    (∃ (w : RM) (s : State) (i : Issue), InHand (.spawn w) anyLit asIs s i ∧ mayDevice s i = true ∧
      ((s.reads i (i.rd2 i.first w.a.toNat) 32 .read .plain).any fun x1 => (Record.parse x1.2.2).isNone) = true) ∧
    (∀ lost ∈ [true, false], ∃ (w : RM) (s : State) (i : Issue), InHand (.spawn w) anyLit asIs s i ∧ mayDevice s i = true ∧
      ((s.reads i (i.rd2 i.first w.a.toNat) 32 .read .plain).any fun x1 => (Record.parse x1.2.2).any fun r =>
        if lost then unresolved x1.1 i (r.entry - 64) 64
        else (x1.1.reads i (r.entry - 64) 64 .read .plain).any fun x2 => (Header.parse x2.2.2).isNone) = true) ∧
    (∀ n ∈ [1, 2], ∃ (w : RM) (s : State) (i : Issue), InHand (.spawnJoin w) anyLit asIs s i ∧ i.begun = none ∧ mayDevice s i = true ∧
      ((s.reads i (i.rd2 i.first w.a.toNat) 64 .readWrite .dev).any fun x1 => (x1.1.decrementAt x1.2.1).2 == n) = true) ∧
    (∀ word ∈ ([.spawn, .spawnGang, .spawnJoin] : List (RM → Instr)), ∃ (w : RM) (s : State) (i : Issue), InHand (word w) anyLit asIs s i ∧
      i.begun = none ∧ mayDevice s i = false) ∧
    (∀ r ∈ [0, pendingJoin], ∃ (w : RM) (s : State) (i : Issue) (y : Stall), InHand (.spawnJoin w) anyLit asIs s i ∧ i.begun = some y ∧ y.result = r) ∧
    ∀ n ∈ [0, 32, 33], ∃ (w : RR) (s : State) (i : Issue),
      let sp := i.rd i.first w.a.toNat
      let m := i.rd i.first (w.a.toNat + 1)
      let len := (m.extractLsb' 0 9).toNat
      let idx := (m.extractLsb' 16 8).toNat
      let slot := i.t.hdr.handlers + BitVec.ofNat 64 (8 + 16 * idx)
      InHand (.amsg w) (fun _ => destOk) asIs s i ∧ m.extractLsb' 26 6 = 0 ∧ m.extractLsb' 9 7 = 0 ∧ len = 256 ∧ destOk (i.srcB w i.first) = true ∧
        sp.extractLsb' 30 2 = 0 ∧ (s.spMarks i.t sp len).isSome = true ∧ sp.extractLsb' 0 4 = 0 ∧ i.t.hdr.handlers ≠ 0 ∧
        mayDevice s i = decide (n ≤ 32) ∧
        ((s.reads i i.t.hdr.handlers 8 .read .plain).any fun x1 => decide (idx < fieldAt x1.2.2 0 4 ∧ fieldAt x1.2.2 0 4 ≤ 256 ∧ fieldAt x1.2.2 4 4 = 0)
          && (x1.1.reads i slot 8 .read .plain).any fun x2 => leNat (x2.2.2.take 8) != 0 && (x2.1.reads i (slot + 8) 8 .read .plain).any fun x3 =>
            (x3.1.messages.filter fun x => x.cl == i.t.cl && x.core == i.t.coreOf i.c.gid).length == min n 32) = true := by
  let at0 (e : State → State) : Bench := { l := [0x10100, 0], e := e }
  let a (gang : Bool) : Bench := at0 fun s => (withCode gang 0 s).mapSlot 0 fun sl => { sl with spbase := 0x10000, spsize := 64 }
  let rec9 (r : Record) : Bench := at0 fun s => { s with mem := Memory.writeN (Memory.writeN s.mem 0x10200 head8) 0x10100 r.bytes }
  let z : Bench := { l := [0x10000, 0] }
  let u : Bench := { l := [0x10100, 0], h := fun g => { g with failed := [(17, 1)], parkPc := 0x10000 },
                     e := fun s => { s with mem := Memory.writeN s.mem 0x10100 { rec8 false with entry := 0x11240 }.bytes } }
  let bare : Bench := at0 fun s => { s with mem := Memory.writeN s.mem 0x10100 (rec8 false).bytes }
  let j (n : Nat) : Bench := { l := [0x10300, 0], e := withCode false n }
  let busy : Bench := { e := storing true }
  let y (r : Word) : Stall := { pc := 0x10000, setPc := 0x10000, begun := true, result := r, waitUntil := 0 }
  let b (r : Word) : Bench := { h := stalledAt r 0 }
  let m (n : Nat) : Bench := { l := [65280, 0x00FF0100], e := fun s => storing (n == 33) { s with
    mem := Memory.writeN (Memory.writeN s.mem 0x10100 [0, 1]) 0x110F8 [1], tlb := [{ probePage 0 with count := 2 }],
    messages := List.replicate (min n 32) message0 } }
  let w := rm true 4 16
  refine ⟨fun gang _ => ?_, ?_, fun k hk => ?_, ⟨w, z.s, z.i _, z.hand (by decide +kernel), by decide +kernel⟩, fun lost _ => ?_, fun n hn => ?_,
    fun word hw => ?_, fun r hr => ?_, fun n hn => ?_⟩
  · cases gang
    · exact ⟨w, (a false).s, (a false).i (.spawn w), (a false).hand (by decide +kernel), by decide +kernel⟩
    · exact ⟨w, (a true).s, (a true).i (.spawnGang w), (a true).hand (by decide +kernel), by decide +kernel⟩
  · have hq : (crowded State.reset).queuedOf 0 = List.replicate Config.hwQueueDepth queued0 := by
      show List.filter _ (List.replicate Config.hwQueueDepth queued0 ++ []) = _
      simp [queued0]
    exact ⟨_, spill_of_full hq rfl rfl (by decide)⟩
  · simp only [List.mem_cons, List.not_mem_nil, or_false] at hk
    rcases hk with rfl | rfl | rfl
    · let x := rec9 { rec8 false with width := 1 }
      exact ⟨w, x.s, x.i (.spawn w), x.hand (by decide +kernel), by decide +kernel⟩
    · let x := rec9 (rec8 true)
      exact ⟨w, x.s, x.i (.spawn w), x.hand (by decide +kernel), by decide +kernel⟩
    · let x := rec9 { rec8 true with count := 60000 }
      exact ⟨w, x.s, x.i (.spawnGang w), x.hand (by decide +kernel), by decide +kernel⟩
  · cases lost
    · exact ⟨w, bare.s, bare.i _, bare.hand (by decide +kernel), by decide +kernel⟩
    · exact ⟨w, u.s, u.i _, u.hand (by decide +kernel), by decide +kernel⟩
  · simp only [List.mem_cons, List.not_mem_nil, or_false] at hn
    rcases hn with rfl | rfl
    · exact ⟨w, (j 1).s, (j 1).i _, (j 1).hand (by decide +kernel), by decide +kernel⟩
    · exact ⟨w, (j 2).s, (j 2).i _, (j 2).hand (by decide +kernel), by decide +kernel⟩
  · simp only [List.mem_cons, List.not_mem_nil, or_false] at hw
    rcases hw with rfl | rfl | rfl <;> exact ⟨w, busy.s, busy.i _, busy.hand (by decide +kernel), by decide +kernel⟩
  · simp only [List.mem_cons, List.not_mem_nil, or_false] at hr
    rcases hr with rfl | rfl
    · exact ⟨w, (b 0).s, (b 0).i _, y 0, (b 0).hand (by decide +kernel), by decide +kernel, rfl⟩
    · exact ⟨w, (b pendingJoin).s, (b pendingJoin).i _, y pendingJoin, (b pendingJoin).hand (by decide +kernel), by decide +kernel, rfl⟩
  · simp only [List.mem_cons, List.not_mem_nil, or_false] at hn
    rcases hn with rfl | rfl | rfl
    · exact ⟨rr true 0 16 24, (m 0).s, (m 0).i _, (m 0).hand (by decide +kernel), by decide +kernel⟩
    · exact ⟨rr true 0 16 24, (m 32).s, (m 32).i _, (m 32).hand (by decide +kernel), by decide +kernel⟩
    · exact ⟨rr true 0 16 24, (m 33).s, (m 33).i _, (m 33).hand (by decide +kernel), by decide +kernel⟩

/-- A transfer of the bench's group, armed. -/
def armedOp : EngOp :=
  op 7 3 .running (.xfer { minor := 0, va := 0, marks := [], spl := false, remote := 0, len := 16, rtype := 0, dev := 0, block := 16,
                           armed := some (0, 0, 0), entry := 0, sent := false, sentAt := 0, sentNo := 0, port := 0, spoiled := false, data := none })

theorem witness_TransferWords :
    (∀ hold ∈ [none, some true, some false], ∃ (w : RM) (s : State) (i : Issue),
      let r := fun k => i.rd i.first (w.a.toNat + k)
      let remote := i.rd2 i.first (w.a.toNat + 2)
      InHand (.xferPutred w) anyLit asIs s i ∧ xferIllegal 1 (r 4).toNat (r 5).toNat (r 7).toNat remote = false ∧ (r 5).getLsbD 13 = true ∧
        RefOk s i true (r 6) ∧ remote.extractLsb' 48 16 = 0 ∧ (r 5).extractLsb' 16 4 = 0 ∧ 128 ∣ remote.toNat ∧ (r 5).getLsbD 15 = true ∧
        (r 0).extractLsb' 30 2 = 0 ∧ (s.spMarks i.t (r 0) (r 4).toNat).isSome = true ∧ 128 ∣ (r 0).toNat ∧ i.subsetHyp = 0 ∧
        s.released i.t.cl (i.t.coreOf i.c.gid) i.c.uid i.c.gid .system = (hold != some false) ∧
        decide (255 ≤ s.counter i.c.uid i.c.gid 3) = (hold == some true) ∧ s.acquiring i = (hold == some false)) ∧
    (∀ full ∈ [true, false], ∃ (w : RM) (s : State) (i : Issue),
      let r := fun k => i.rd i.first (w.a.toNat + k)
      let remote := i.rd2 i.first (w.a.toNat + 2)
      InHand (.xferGet w) anyLit asIs s i ∧ xferIllegal 2 (r 4).toNat (r 5).toNat (r 7).toNat remote = false ∧ (r 5).getLsbD 13 = false ∧
        remote.extractLsb' 48 16 = 0 ∧ 16 ∣ remote.toNat ∧ (r 5).getLsbD 15 = false ∧ (i.rd2 i.first w.a.toNat).extractLsb' 48 16 = 0 ∧
        16 ∣ (i.rd2 i.first w.a.toNat).toNat ∧ i.subsetHyp = 0 ∧ s.counter i.c.uid i.c.gid 3 < 255 ∧ s.acquiring i = false ∧
        s.released i.t.cl (i.t.coreOf i.c.gid) i.c.uid i.c.gid .system = true ∧ i.g.arm.isSome = true ∧
        (s.armedTable i.t.cl (i.t.coreOf i.c.gid)).length = if full then 64 else 63) ∧
    (∀ held ∈ [63, 64], ∃ (w : RM) (s : State) (i : Issue), InHand (.xferArm w) (fun _ x => !x.getLsbD 31) asIs s i ∧
      (i.srcA w i.first).toNat = 2 ^ 31 - 1 ∧ i.subsetHyp = 0 ∧
      (s.armedTable i.t.cl (i.t.coreOf i.c.gid)).length + s.armsPending i.t.cl (i.t.coreOf i.c.gid) i.c.uid i.c.gid = held) ∧
    ∃ (w : RM) (s : State) (i : Issue), InHand (.xferDisarm w) anyLit asIs s i ∧ i.subsetHyp = 0 := by
  let p (x : Option Bool) : Bench := { l := [128, 0, 0x80, 0, 128, 0xE000, 0, 0], e := heldBack 3 x }
  let g (n : Nat) : Bench := { l := [0xFFFFFFF0, 0xFFFF, 0xFFFFFFF0, 0xEFFF, 0x1000000, 0, 0, 0], h := fun g => { g with arm := some { lk := 0, n := 0 } },
                               e := fun s => { s with ops := List.replicate n armedOp } }
  let a (n : Nat) : Bench := { l := [0x7FFFFFFF], e := fun s => { s with ops := List.replicate n armedOp } }
  refine ⟨fun x hx => ?_, fun full _ => ?_, fun n hn => ?_,
    rm true 4 0, (a 1).s, (a 1).i _, (a 1).hand (by decide +kernel), by decide +kernel⟩
  · simp only [List.mem_cons, List.not_mem_nil, or_false] at hx
    refine ⟨rm true 0 16, (p x).s, (p x).i _, (p x).hand ?_, ?_⟩ <;> rcases hx with rfl | rfl | rfl <;>
      first | decide +kernel | (unfold RefOk; decide +kernel)
  · cases full
    · exact ⟨rm true 0 16, (g 63).s, (g 63).i _, (g 63).hand (by decide +kernel), by decide +kernel⟩
    · exact ⟨rm true 0 16, (g 64).s, (g 64).i _, (g 64).hand (by decide +kernel), by decide +kernel⟩
  · refine ⟨rm true 4 16, (a n).s, (a n).i _, (a n).hand ?_, ?_⟩ <;>
      (simp only [List.mem_cons, List.not_mem_nil, or_false] at hn; rcases hn with rfl | rfl <;> decide +kernel)

/-- A loop of the bench's group, its handles read. -/
def loopOp : EngOp :=
  op 7 1 .running (.mloop { slot := 0, cfg := 0, aVa := 0, bVa := 0, aOrg := [], bOrg := [], aInc := 0, bInc := 0, steps := 1, applied := 0,
                            aRaw := some [], bRaw := some [], fetched := [] })

theorem witness_MatrixWords :
    (∀ hold ∈ [none, some true, some false], ∃ (w : RR) (s : State) (i : Issue), InHand (.mma w) anyLit asIs s i ∧ i.whole = true ∧
      i.g.mcfg ≠ 0 ∧ heldAs 1 hold s i = true) ∧
    (∀ k ∈ [0, 1, 2, 3, 4], ∃ (w : RR) (s : State) (i : Issue),
      let r := fun k => i.rd i.first (w.a.toNat + k)
      InHand (.mloop w) anyLit asIs s i ∧ (r 14).toNat = 1 ∧ r 15 = 0 ∧ i.g.mcfg ≠ 0 ∧
        (∀ k ∈ [0, 2], (i.rd2 i.first (w.a.toNat + k)).extractLsb' 48 16 = 0 ∧ (i.rd2 i.first (w.a.toNat + k)).extractLsb' 0 6 = 0) ∧
        decide (4 ≤ s.loops i.c.uid i.c.gid) = (k == 0) ∧ decide (255 ≤ s.counter i.c.uid i.c.gid 1) = (k == 1) ∧
        s.acquiring i = (k == 2) ∧ s.accessing i = (k == 2 || k == 3)) ∧
    (∃ (w : RR) (s : State) (i : Issue),
      let r := fun k => i.rd i.first (w.a.toNat + k)
      let l : Loop :=
        { slot := w.d.toNat, cfg := i.g.mcfg, aVa := i.rd2 i.first w.a.toNat, bVa := i.rd2 i.first (w.a.toNat + 2),
          aOrg := [(r 4).toInt, (r 5).toInt, (r 6).toInt, (r 7).toInt], bOrg := [(r 8).toInt, (r 9).toInt, (r 10).toInt, (r 11).toInt],
          aInc := (r 12).toInt, bInc := (r 13).toInt, steps := (r 14).toNat, applied := 0, aRaw := none, bRaw := none, fetched := [] }
      let op := fun (s : State) => i.op s 1 none false .running (.mloop l)
      let x := s.readHandle (op s) l.aVa.toNat
      let y := x.1.readHandle (op x.1) l.bVa.toNat
      InHand (.mloop w) anyLit asIs s i ∧ (r 14).toNat = 65535 ∧ r 15 = 0 ∧ i.g.mcfg ≠ 0 ∧ s.loops i.c.uid i.c.gid < 4 ∧
        (∀ k ∈ [0, 2], (i.rd2 i.first (w.a.toNat + k)).extractLsb' 48 16 = 0 ∧ (i.rd2 i.first (w.a.toNat + k)).extractLsb' 0 6 = 0) ∧
        s.counter i.c.uid i.c.gid 1 < 255 ∧ s.acquiring i = false ∧ s.accessing i = false ∧ x.2.isSome = true ∧ y.2.isSome = true ∧
        y.1.counter i.c.uid i.c.gid 1 < 255 ∧ y.1.acquiring i = false) ∧
    (∃ (w : RM) (s : State) (i : Issue), InHand (.mcfg w) (fun _ => mcfgOk) asIs s i ∧ mcfgOk (i.srcA w i.first) = true ∧ i.srcA w i.first ≠ 0) ∧
    (∀ hold ∈ [none, some true, some false], ∃ (w : RM) (s : State) (i : Issue),
      let r := fun k => i.rd i.first (w.a.toNat + k)
      let n := ((r 3).extractLsb' 8 6).toNat
      let cols := ((r 3).extractLsb' 0 6).toNat
      let size := 4 * n * cols
      let o := i.op s 1 none false .running (.mtrsm (r 0) (r 1) (r 2) n cols ((r 3).getLsbD 31) 0)
      let x := s.engSpRead o (ownMark i.c.uid (r 0)) 0 64
      InHand (.mtrsm w) anyLit asIs s i ∧ (r 3).extractLsb' 14 17 = 0 ∧ (r 3).extractLsb' 6 2 = 0 ∧ n = 32 ∧ cols = 32 ∧
       (∀ y ∈ [(r 0, factBytes n, 64), (r 1, size, 16), (r 2, size, 16)], y.1.extractLsb' 30 2 = 0 ∧ (s.spMarks i.t y.1 y.2.1).isSome = true ∧ y.2.2 ∣ y.1.toNat) ∧
       rangesMeet (r 1).toNat size (r 2).toNat size = false ∧ rangesMeet (r 1).toNat size (r 0).toNat (factBytes n) = false ∧
       rangesMeet (r 2).toNat size (r 0).toNat (factBytes n) = false ∧ fieldAt x.2 8 1 = 2 ∧ fieldAt x.2 0 1 = n ∧
       heldAs 1 hold s i = true ∧ heldAs 1 hold x.1 i = true) ∧
    (∀ k ∈ [0, 1, 2], ∃ (w : RR) (s : State) (i : Issue),
      let hdr := i.rd i.first w.a.toNat
      let n := (i.srcB w i.first).toNat
      let x := s.engSpRead (i.op s 1 none false .running (.mfact hdr n false)) (ownMark i.c.uid hdr) 0 64
      InHand (.mfactChol w) (fun _ x => decide (1 ≤ x.toNat) && decide (x.toNat ≤ 32)) asIs s i ∧ 1 ≤ n ∧ n ≤ 32 ∧ hdr.extractLsb' 30 2 = 0 ∧
        hdr.extractLsb' 0 6 = 0 ∧ (s.spMarks i.t hdr (factBytes n)).isSome = true ∧ s.factBusy i.c.uid hdr.toNat (factBytes n) = (k == 0) ∧
        s.acquiring i = (k == 1) ∧ fieldAt x.2 8 1 = 2 ∧ decide (255 ≤ s.counter i.c.uid i.c.gid 1) = (k == 2)) ∧
    ∀ status ∈ [0, 1, 2, 3], ∃ (w : RR) (s : State) (i : Issue),
      let hdr := i.rd i.first w.a.toNat
      let n := (i.srcB w i.first).toNat
      let x := s.engSpRead (i.op s 1 none false .running (.mfact hdr n false)) (ownMark i.c.uid hdr) 0 64
      InHand (.mfactChol w) (fun _ x => decide (1 ≤ x.toNat) && decide (x.toNat ≤ 32)) asIs s i ∧ 1 ≤ n ∧ n ≤ 32 ∧ hdr.extractLsb' 30 2 = 0 ∧
        hdr.extractLsb' 0 6 = 0 ∧ (s.spMarks i.t hdr (factBytes n)).isSome = true ∧ s.factBusy i.c.uid hdr.toNat (factBytes n) = false ∧
        fieldAt x.2 8 1 = status ∧ (status = 1 ∨ status = 3 → warmOk n x.2 = true) ∧ s.acquiring i = false ∧
        s.counter i.c.uid i.c.gid 1 < 255 := by
  let a (x : Option Bool) : Bench := { ts := List.range 16, h := fun g => { g with mcfg := 0x4040 }, e := heldBack 1 x }
  let l (k : Nat) : Bench :=
    { l := [0x10000, 0, 0x10FC0] ++ List.replicate 11 0 ++ [1, 0], h := fun g => { g with mcfg := 0x4040 },
      e := fun s => loading (k == 2 || k == 3) (k == 2) { s with
        ops := if k = 0 then List.replicate 4 loopOp else List.replicate (if k = 1 then 255 else 0) (op 7 1 .running (.mzero 0)) } }
  let b : Bench := { l := [0x10000, 0, 0x10FC0] ++ List.replicate 11 0 ++ [65535, 0], h := fun g => { g with mcfg := 0x4040 } }
  let c : Bench := { l := [0x4040] }
  let d (x : Option Bool) : Bench := { l := [0, 8192, 16384, 0x80002020], f := fun t => { t with scratch := [(0, 32), (8, 2)] }, e := heldBack 1 x }
  let stop (k : Nat) : Bench :=
    { l := [0, 0, 0, 0, 0, 0, 0, 0, 1], f := fun t => { t with scratch := [(0, 1), (8, 2)] },
      e := fun s => loading (k == 1) true { s with
        ops := if k = 0 then [op 7 1 .running (.mfact 0 1 false)] else List.replicate (if k = 2 then 255 else 0) (op 7 1 .running (.mzero 0)) } }
  let e (n k : Nat) : Bench := { l := [0, 0, 0, 0, 0, 0, 0, 0, BitVec.ofNat 32 n],
                                 f := fun t => { t with scratch := [(0, BitVec.ofNat 8 n), (1, 1), (2, 7), (8, BitVec.ofNat 8 k)] } }
  have hn : ∀ (P : Nat → Prop), P 0 → P 1 → P 2 → P 3 → ∀ k ∈ [0, 1, 2, 3], P k := by
    intro P h0 h1 h2 h3 k hk
    simp only [List.mem_cons, List.not_mem_nil, or_false] at hk
    rcases hk with rfl | rfl | rfl | rfl <;> assumption
  refine ⟨fun x hx => ?_, fun k hk => ?_,
    ⟨rr true 2 16 0, b.s, b.i _, b.hand (by decide +kernel), by decide +kernel⟩,
    ⟨rm false 0 16, c.s, c.i _, c.hand (by decide +kernel), by decide +kernel⟩,
    fun x hx => ?_, fun k hk => ?_, hn _ ?_ ?_ ?_ ?_⟩
  · simp only [List.mem_cons, List.not_mem_nil, or_false] at hx
    rcases hx with rfl | rfl | rfl
    · exact ⟨rr false 2 16 24, (a none).s, (a none).i _, (a none).hand (by decide +kernel), by decide +kernel⟩
    · exact ⟨rr false 2 16 24, (a (some true)).s, (a (some true)).i _, (a (some true)).hand (by decide +kernel), by decide +kernel⟩
    · exact ⟨rr false 2 16 24, (a (some false)).s, (a (some false)).i _, (a (some false)).hand (by decide +kernel), by decide +kernel⟩
  · refine ⟨rr true 2 16 0, (l k).s, (l k).i _, (l k).hand ?_, ?_⟩ <;>
      (simp only [List.mem_cons, List.not_mem_nil, or_false] at hk; rcases hk with rfl | rfl | rfl | rfl | rfl <;> decide +kernel)
  · refine ⟨rm true 0 16, (d x).s, (d x).i _, (d x).hand ?_, ?_⟩ <;>
      (simp only [List.mem_cons, List.not_mem_nil, or_false] at hx; rcases hx with rfl | rfl | rfl <;> decide +kernel)
  · refine ⟨rr true 0 16 24, (stop k).s, (stop k).i _, (stop k).hand ?_, ?_⟩ <;>
      (simp only [List.mem_cons, List.not_mem_nil, or_false] at hk; rcases hk with rfl | rfl | rfl <;> decide +kernel)
  · exact ⟨rr true 0 16 24, (e 1 0).s, (e 1 0).i _, (e 1 0).hand (by decide +kernel), by decide +kernel⟩
  · exact ⟨rr true 0 16 24, (e 32 1).s, (e 32 1).i _, (e 32 1).hand (by decide +kernel), by decide +kernel⟩
  · exact ⟨rr true 0 16 24, (e 1 2).s, (e 1 2).i _, (e 1 2).hand (by decide +kernel), by decide +kernel⟩
  · exact ⟨rr true 0 16 24, (e 32 3).s, (e 32 3).i _, (e 32 3).hand (by decide +kernel), by decide +kernel⟩

theorem witness_DrainWords :
    (∀ hold ∈ [none, some true, some false], ∃ (w : RM) (s : State) (i : Issue), InHand (.mdrainR w) anyLit asIs s i ∧ i.whole = true ∧
      heldAs 1 hold s i = true) ∧
    (∀ k ∈ [0, 1, 2], ∃ (w : RM) (s : State) (i : Issue), InHand (.mdrainGl w) anyLit asIs s i ∧
      let r := fun k => i.rd i.first (w.a.toNat + k)
      r 6 = 0 ∧ r 7 = 0 ∧ (i.rd2 i.first w.a.toNat).extractLsb' 48 16 = 0 ∧ (i.rd2 i.first w.a.toNat).extractLsb' 0 6 = 0 ∧
        decide (255 ≤ s.counter i.c.uid i.c.gid 1) = (k == 0) ∧ s.acquiring i = (k == 1) ∧ s.accessing i = (k != 0)) ∧
    (∃ (w : RM) (s : State) (i : Issue) (m : List Mark), s.counter i.c.uid i.c.gid 1 < 255 ∧ s.acquiring i = false ∧ InHand (.mdrainSp w) anyLit asIs s i ∧
      let r := fun k => i.rd i.first (w.a.toNat + k)
      (r 1).toNat = 64 ∧ (r 0).extractLsb' 0 4 = 0 ∧ s.spMarks i.t (r 0) (15 * (r 1).toNat + 64) = some m) ∧
    (∃ (w : RM) (s : State) (i : Issue), InHand (.mdrainGl w) anyLit asIs s i ∧
      let r := fun k => i.rd i.first (w.a.toNat + k)
      let body : OpBody := .mdrain w.d.toNat
        (.global (i.rd2 i.first w.a.toNat) [(r 2).toInt, (r 3).toInt, (r 4).toInt, (r 5).toInt] none none 0) [] (List.range (16 * drainRowParts))
      let x := s.readHandle (i.op s 1 none false .running body) (i.rd2 i.first w.a.toNat).toNat
      r 6 = 0 ∧ r 7 = 0 ∧ (i.rd2 i.first w.a.toNat).extractLsb' 48 16 = 0 ∧ (i.rd2 i.first w.a.toNat).extractLsb' 0 6 = 0 ∧
        s.counter i.c.uid i.c.gid 1 < 255 ∧ s.acquiring i = false ∧ s.accessing i = false ∧
        x.1.counter i.c.uid i.c.gid 1 < 255 ∧ x.1.acquiring i = false) ∧
    (∃ (w : RM) (s : State) (i : Issue) (x : Team), InHand (.mdrainPeer w) (fun _ x => !slotRefIllegal x) asIs s i ∧
      slotRefIllegal (i.srcA w i.first) = false ∧ s.refTeam i.t (i.srcA w i.first) = some x ∧
      ((i.srcA w i.first).extractLsb' 0 2).toNat = 3 ∧ 3 < x.record.slots) ∧
    ∃ (w : RM) (s : State) (i : Issue), InHand (.mdrainQ w) anyLit asIs s i ∧ (i.g.boundTo 2).isSome = true := by
  let a (x : Option Bool) : Bench := { ts := List.range 16, e := heldBack 1 x }
  let stop (k : Nat) : Bench :=
    { l := [0xFFFFFFC0, 0xFFFF], e := fun s => loading (k != 0) (k == 1) (crowd 1 (if k = 0 then 255 else 0) s) }
  let b : Bench := { l := [65536 - 1024, 64] }
  let c : Bench := { l := [0xFFFFFFC0, 0xFFFF] }
  let d : Bench := { l := [0x203] }
  let q : Bench := { h := withQueue 3 0x20000000 0 }
  refine ⟨fun x hx => ?_, fun k hk => ?_,
    ⟨rm false 2 16, b.s, b.i (.mdrainSp (rm false 2 16)), [{ start := 0, uid := 2, off := 64512 }], by decide +kernel, by decide +kernel, b.hand (by decide +kernel),
      by decide +kernel⟩,
    ⟨rm false 2 16, c.s, c.i _, c.hand (by decide +kernel), by decide +kernel⟩,
    ⟨rm false 2 16, d.s, d.i _, d.t, d.hand (by decide +kernel), by decide +kernel⟩,
    rm false 0 0, q.s, q.i _, q.hand (by decide +kernel), by decide +kernel⟩
  · simp only [List.mem_cons, List.not_mem_nil, or_false] at hx
    rcases hx with rfl | rfl | rfl
    · exact ⟨rm false 4 2, (a none).s, (a none).i _, (a none).hand (by decide +kernel), by decide +kernel⟩
    · exact ⟨rm false 4 2, (a (some true)).s, (a (some true)).i _, (a (some true)).hand (by decide +kernel), by decide +kernel⟩
    · exact ⟨rm false 4 2, (a (some false)).s, (a (some false)).i _, (a (some false)).hand (by decide +kernel), by decide +kernel⟩
  · refine ⟨rm false 2 16, (stop k).s, (stop k).i _, (stop k).hand ?_, ?_⟩ <;>
      (simp only [List.mem_cons, List.not_mem_nil, or_false] at hk; rcases hk with rfl | rfl | rfl <;> decide +kernel)

theorem witness_CsrWords :
    (∃ (w : RN) (s : State) (i : Issue), InHand (.csrRd w) anyLit asIs s i ∧ w.m = 17) ∧
    (∃ (w : RN) (s : State) (i : Issue), InHand (.csrWr w) (fun _ x => w.m = 17 || csrOk w.m.toNat x) asIs s i ∧ w.m = 17 ∧
      ∀ k ∈ i.c.active, meetOk (if w.l then i.lit.setWidth 64 else i.rd2 k w.a.toNat) = true) ∧
    (∃ (w : RN) (s : State) (i : Issue), InHand (.csrWr w) (fun _ x => w.m = 17 || csrOk w.m.toNat x) asIs s i ∧ w.m ≠ 17 ∧
      csrPerThread w.m.toNat = true ∧ ∀ k ∈ i.c.active, csrOk w.m.toNat (if w.l then i.lit else i.rd k w.a.toNat) = true) ∧
    ∃ (w : RN) (s : State) (i : Issue), InHand (.csrWr w) (fun _ x => w.m = 17 || csrOk w.m.toNat x) asIs s i ∧
      csrPerThread w.m.toNat = false ∧ csrOk w.m.toNat (if w.l then i.lit else i.rd i.first w.a.toNat) = true :=
  let a : Bench := { l := [0xFFFFFFF0, 0xFFFF] }
  let b : Bench := { l := [0x7F] }
  let c : Bench := { l := [0xC] }
  ⟨⟨rn false 4 0 17, a.s, a.i _, a.hand (by decide +kernel), rfl⟩, ⟨rn false 0 16 17, a.s, a.i _, a.hand (by decide +kernel), by decide +kernel⟩,
    ⟨rn false 0 16 15, b.s, b.i _, b.hand (by decide +kernel), by decide +kernel⟩,
    rn false 0 16 10, c.s, c.i _, c.hand (by decide +kernel), by decide +kernel⟩

/-! ## Witnesses: system words and traps -/

/-- A team with no local SRAM on core 1 of cluster 0, whose context words save and restore. -/
def other (saving : Option (Nat × Nat)) : Team :=
  { team (grp []) with uid := 3, core := 1, record := rec8 false, tiles := [], saving := saving }
/-- The address of the save area, the place named, on registers 16 to 19; six pages are translated. -/
def areaBench (stall : Option Stall) (e : State → State) : Bench :=
  { l := [0x10000, 0, 1], h := fun g => { g with stall := stall }, e := fun s => e { s with tlb := [{ probePage 0 with count := 6 }] } }
def begunWith (x : Word) (n : Nat) : Stall := { pc := 0x10000, setPc := 0x10000, begun := true, result := x, waitUntil := n }

/-- The image of that team, but for its zeros after the header's first 80 bytes. -/
noncomputable def imageCells : List Host.Cell :=
  (leBytes 4 0x56534651 ++ leBytes 2 1 ++ [Config.stepping, 0, 0, 0, 0, 0, 1, 0, 0, 0] ++ (rec8 false).bytes ++ leBytes 4 0 ++ leBytes 4 20480).mapIdx
    fun k b => (0x10000 + k, b)

theorem readN_getD : ∀ {n k a : Nat} {m : Memory}, k < n → (Memory.readN m a n).getD k 0 = m.read (a + k)
  | n + 1, 0, _, _, _ => rfl
  | n + 1, k + 1, a, m, h => by
    rw [Memory.readN, List.getD_cons_succ, readN_getD (Nat.lt_of_succ_lt_succ h)]
    congr 1
    omega

theorem readArea_page (s : State) (i : Issue) (va : Nat) :
    (s.readArea i va 4096).2 = Memory.readN (s.normalise (s.areaPa i va .read) 4096).mem (s.areaPa i va .read) 4096 := by
  have : va + 4096 - va = 4096 := by omega
  simp [State.readArea, areaPages, List.range, List.range.loop, State.sliceRead, this]

/-- The state to restore from: the image in memory, the team away, its place free. -/
def ldE (s : State) : State := { s with saved := [(other none, 0)], cores := [{ Core.idle 0 1 with carve := some (0, 0) }] }
noncomputable def ldT (fits : Bool) := areaBench none fun s => { ldE s with
  mem := imageCells, teams := s.teams ++ if fits then [] else [{ other none with uid := 9 }] }

theorem normalise_idle {s : State} (h : s.accUnits = []) (pa n : Nat) : s.normalise pa n = s := by
  rw [State.normalise]
  generalize unitsOf pa n = l
  induction l generalizing s with
  | nil => rfl
  | cons a l ih =>
    have e : s.normaliseUnit a = s := by rw [State.normaliseUnit, h]; rfl
    rw [List.foldl_cons, e]
    exact ih h

theorem image_stepping (fits : Bool) :
    ((ldT fits).s.readArea ((ldT fits).i (.sysCtxld (rm false 4 16))) 0x10000 4096).2.getD 6 0 = Config.stepping := by
  have e : (ldT fits).s.areaPa ((ldT fits).i (.sysCtxld (rm false 4 16))) 0x10000 .read = 0x10000 := by cases fits <;> decide +kernel
  rw [readArea_page, e, readN_getD (by decide), normalise_idle rfl]
  rfl

/-- The operands of a context word are legal (R347). -/
def contextLegal (w : RM) (i : Issue) : Bool :=
  let x := i.rd i.first (w.a.toNat + 2)
  !w.l && x.extractLsb' 13 19 == 0 && i.rd i.first (w.a.toNat + 3) == 0 && (i.rd2 i.first w.a.toNat).extractLsb' 48 16 == 0 &&
    (i.rd2 i.first w.a.toNat).extractLsb' 0 12 == 0

theorem witness_SystemWords :
    (∃ (w : RM) (s : State) (i : Issue), InHand (.sysEret w) anyLit asIs s i ∧
      (∀ k ∈ i.c.active, ∃ th, i.thread? k = some th ∧ th.inHandler = true) ∧ ∀ k ∈ i.c.active, pcOk (i.returnPc k) = true) ∧
    (∃ (w : RM) (s : State) (i : Issue), InHand (.sysL2flush w) (fun _ x => decide (x.toNat < 3)) asIs s i ∧ i.begun = none ∧
      i.srcA w i.first = 2 ∧ s.lastExpiry = s.now) ∧
    (∃ (w : RM) (s : State) (i : Issue), InHand (.sysL2flush w) (fun _ x => decide (x.toNat < 3)) asIs s i ∧ i.begun = none ∧
      i.srcA w i.first = 0) ∧
    (∃ (w : RM) (s : State) (i : Issue), InHand (.sysL2flush w) (fun _ x => decide (x.toNat < 3)) asIs s i ∧ i.begun = none ∧
      i.srcA w i.first = 1 ∧ s.now < s.lastExpiry) ∧
    (∃ (w : RM) (s : State) (i : Issue) (y : Stall), InHand (.sysL2flush w) (fun _ x => decide (x.toNat < 3)) asIs s i ∧ i.begun = some y ∧
      y.waitUntil = s.now) ∧
    (∃ (w : RM) (s : State) (i : Issue) (y : Stall), InHand (.sysL2flush w) (fun _ x => decide (x.toNat < 3)) asIs s i ∧ i.begun = some y ∧
      s.now < y.waitUntil) ∧
    (∃ (w : RM) (s : State) (i : Issue), InHand (.sysTlbinv w) (fun _ _ => false) asIs s i ∧ w.l = false ∧ i.begun = none ∧
      (i.rd i.first w.a.toNat).extractLsb' 2 14 = 0 ∧ ((i.rd i.first w.a.toNat).extractLsb' 0 2).toNat = 0 ∧ i.rd i.first (w.a.toNat + 1) = 0 ∧
      (i.rd2 i.first (w.a.toNat + 2)).extractLsb' 48 16 = 0) ∧
    (∃ (w : RM) (s : State) (i : Issue) (y : Stall), InHand (.sysTlbinv w) (fun _ _ => false) asIs s i ∧ w.l = false ∧ i.begun = some y ∧
      ∀ b ∈ s.tlbBusy, BitVec.ofNat 32 b.id ≠ y.result) ∧
    (∃ (w : RM) (s : State) (i : Issue), InHand (.sysCtxsv w) (fun _ _ => false) asIs s i ∧ i.begun = none ∧ contextLegal w i = true ∧
      s.contextTarget i (i.rd i.first (w.a.toNat + 2)) = none) ∧
    (∃ (w : RM) (s : State) (i : Issue), InHand (.sysCtxsv w) (fun _ _ => false) asIs s i ∧ i.begun = none ∧ contextLegal w i = true ∧
      s.contextTarget i (i.rd i.first (w.a.toNat + 2)) = some (other none) ∧
      s.areaCheck i (i.rd2 i.first w.a.toNat).toNat (other none).record.imageSize .write = .unresolvable) ∧
    (∃ (w : RM) (s : State) (i : Issue), InHand (.sysCtxsv w) (fun _ _ => false) asIs s i ∧ i.begun = none ∧ contextLegal w i = true ∧
      s.contextTarget i (i.rd i.first (w.a.toNat + 2)) = some (other none) ∧
      s.areaCheck i (i.rd2 i.first w.a.toNat).toNat (other none).record.imageSize .write = .usable ∧ s.saverAlive (other none) = false) ∧
    (∃ (w : RM) (s : State) (i : Issue) (y : Stall), InHand (.sysCtxsv w) (fun _ _ => false) asIs s i ∧ i.begun = some y ∧
      y.result.getLsbD 31 = true ∧
      ∃ t, s.contextTarget i (i.rd i.first (w.a.toNat + 2)) = some t ∧ savePending t.uid = y.result ∧ t.saving = some (i.c.uid, i.c.gid) ∧
        s.areaCheck i (i.rd2 i.first w.a.toNat).toNat t.record.imageSize .write = .usable ∧ (s.drainTeam t).canSave t = true ∧
        ((s.drainTeam t).putAway t).saved.getLast?.isSome = true) ∧
    (∃ (w : RM) (s : State) (i : Issue) (y : Stall), InHand (.sysCtxsv w) (fun _ _ => false) asIs s i ∧ i.begun = some y ∧
      y.result.getLsbD 31 = false ∧ y.waitUntil = s.now) ∧
    (∃ (w : RM) (s : State) (i : Issue), InHand (.sysCtxld w) (fun _ _ => false) asIs s i ∧ contextLegal w i = true ∧
      s.areaCheck i (i.rd2 i.first w.a.toNat).toNat 4096 .read = .usable ∧ s.areaPoisoned i (i.rd2 i.first w.a.toNat).toNat 4096 = true) ∧
    ∀ fits ∈ [true, false], ∃ (w : RM) (s : State) (i : Issue),
      let va := (i.rd2 i.first w.a.toNat).toNat
      let x := i.rd i.first (w.a.toNat + 2)
      let h := s.readArea i va 4096
      let r := rec8 false
      let b := h.1.readArea i va r.imageSize
      InHand (.sysCtxld w) (fun _ _ => false) asIs s i ∧ contextLegal w i = true ∧ s.areaCheck i va 4096 .read = .usable ∧
        s.areaPoisoned i va 4096 = false ∧ Record.parse (sliceOf h.2 16 32) = some r ∧
        h.1.imageRefused h.2 r.imageSize i.t.cl (x.extractLsb' 0 8).toNat = false ∧ h.1.areaCheck i va r.imageSize .read = .usable ∧
        h.1.areaPoisoned i va r.imageSize = false ∧ b.1.savedTeam b.2 = some (other none, 0) ∧ (other none).record = r ∧
        b.1.canRestore (other none) (x.extractLsb' 8 5).toNat = fits := by
  let a : Bench := { h := fun g => { g with threads := g.threads.map fun th => { th with inHandler := true, trapa := 0x10028 } } }
  let f (n : Word) (k : Nat) : Bench := { l := [n], e := fun s => { s with sectors := [{ sector := 1, expiry := k, stamp := 0 }] } }
  let g : Bench := { h := fun g => { g with stall := some (begunWith 0 1000) } }
  let v : Bench := { l := [0xFFFF0000, 0, 0xFFFFFFFF, 0xFFFF] }
  let nothing0 := areaBench none id
  let st := areaBench none fun s => { s with teams := s.teams ++ [other none] }
  let run := areaBench (some (begunWith (savePending 3) 0)) fun s => { s with teams := s.teams ++ [other (some (2, 0))] }
  let ended := areaBench (some (begunWith 2 1000)) id
  let soon : Bench := { h := fun g => { g with stall := some (begunWith 0 1001) } }
  let lost : Bench := { l := [0x10000, 0, 1], h := fun g => { g with failed := [(16, 1)], parkPc := 0x10000 },
                        e := fun s => { s with teams := s.teams ++ [other none] } }
  let bad := areaBench none fun s => { s with poisoned := [0x400] }
  let w := rm false 4 16
  refine ⟨⟨rm false 0 0, a.s, a.i _, a.hand (by decide +kernel), ?_, by decide +kernel⟩,
    ⟨rm false 0 16, (f 2 1000).s, (f 2 1000).i _, (f 2 1000).hand (by decide +kernel), by decide +kernel⟩,
    ⟨rm false 0 16, (f 0 1001).s, (f 0 1001).i _, (f 0 1001).hand (by decide +kernel), by decide +kernel⟩,
    ⟨rm false 0 16, (f 1 1001).s, (f 1 1001).i _, (f 1 1001).hand (by decide +kernel), by decide +kernel⟩,
    ⟨rm false 0 16, g.s, g.i _, begunWith 0 1000, g.hand (by decide +kernel), by decide +kernel⟩,
    ⟨rm false 0 16, soon.s, soon.i _, begunWith 0 1001, soon.hand (by decide +kernel), by decide +kernel⟩,
    ⟨rm false 0 16, v.s, v.i _, v.hand (by decide +kernel), by decide +kernel⟩,
    ⟨rm false 0 16, g.s, g.i _, begunWith 0 1000, g.hand (by decide +kernel), by decide +kernel⟩,
    ⟨w, nothing0.s, nothing0.i _, nothing0.hand (by decide +kernel), by decide +kernel⟩,
    ⟨w, lost.s, lost.i _, lost.hand (by decide +kernel), by decide +kernel⟩,
    ⟨w, st.s, st.i _, st.hand (by decide +kernel), by decide +kernel⟩,
    ⟨w, run.s, run.i _, begunWith (savePending 3) 0, run.hand (by decide +kernel), by decide +kernel, by decide +kernel,
      other (some (2, 0)), by decide +kernel⟩,
    ⟨w, ended.s, ended.i _, begunWith 2 1000, ended.hand (by decide +kernel), by decide +kernel⟩,
    ⟨w, bad.s, bad.i _, bad.hand (by decide +kernel), by decide +kernel⟩, fun fits _ => ?_⟩
  · intro k hk
    change k ∈ [0, 5] at hk
    have : k = 0 ∨ k = 5 := by simpa using hk
    rcases this with rfl | rfl <;> exact ⟨_, rfl, by decide +kernel⟩
  · have e : ∀ l : List Byte, l.getD 6 0 = Config.stepping → (l.getD 6 0 != Config.stepping) = false := fun l h => by rw [h, bne_self_eq_false]
    have hv : (((ldT fits).i (.sysCtxld w)).rd2 ((ldT fits).i (.sysCtxld w)).first w.a.toNat).toNat = 0x10000 := by cases fits <;> decide +kernel
    have hr : ((ldT fits).s.readArea ((ldT fits).i (.sysCtxld w)) 0x10000 4096).1.imageRefused
        ((ldT fits).s.readArea ((ldT fits).i (.sysCtxld w)) 0x10000 4096).2 (rec8 false).imageSize 0 1 = false := by
      rw [State.imageRefused, e _ (image_stepping fits)]
      cases fits <;> decide +kernel
    refine ⟨w, (ldT fits).s, (ldT fits).i _, (ldT fits).hand (by cases fits <;> decide +kernel), by cases fits <;> decide +kernel,
      by cases fits <;> decide +kernel, by cases fits <;> decide +kernel, by cases fits <;> decide +kernel, ?_, ?_⟩
    · rw [hv]; exact hr
    · cases fits <;> decide +kernel

theorem witness_SoftwareTraps :
    (∃ (w : RN) (s : State) (i : Issue), CanTrap i ∧ InHand (.trap w) anyLit asIs s i ∧ w.m = 15) ∧
    ∃ (w : RM) (s : State) (i : Issue), CanTrap i ∧ InHand (.brk w) anyLit asIs s i :=
  let a : Bench := {}
  ⟨⟨rn false 0 16 15, a.s, a.i _, canTrap_of (by decide +kernel), a.hand (by decide +kernel), rfl⟩,
    rm false 0 0, a.s, a.i _, canTrap_of (by decide +kernel), a.hand (by decide +kernel)⟩

/-- The issue of a word that is in hand. -/
theorem Bench.issuing (b : Bench) {i : Instr} (hc : b.s.cur = some (cur b.t b.g b.lit b.ts) := by rfl)
    (hs : b.s.team? b.t.uid = some b.t := by rfl) (hf : b.s.free = 0 := by rfl) (hg : b.t.groups[0]? = some b.g := by rfl)
    (hts : b.ts ≠ [] := by exact List.cons_ne_nil _ _) (hn : b.ts.Nodup := by decide) : Issuing b.s (b.i i) :=
  ⟨hc, hs, hg, rfl, hf.symm, hts, hn⟩

theorem witness_IllegalTraps :
    (∃ (word : Instr) (s : State) (i : Issue), word.view ≠ .event ∧ Issuing s i ∧ i.v = word.view ∧ CanTrap i ∧ i.v.legal i.t = false) ∧
    (∃ (word : Instr) (s : State) (i : Issue), word.view ≠ .event ∧ Issuing s i ∧ i.v = word.view ∧ CanTrap i ∧ i.v.legal i.t = true ∧
      i.v.lit = true ∧ literalOk word i i.c.lit = false) ∧
    (∃ (word : Instr) (s : State) (i : Issue), word.view ≠ .event ∧ Issuing s i ∧ i.v = word.view ∧ CanTrap i ∧ i.v.legal i.t = true ∧
      i.v.lit = true ∧ literalOk word i i.c.lit = true ∧ i.v.op = 0x7F ∧ 1 ≤ i.v.minor ∧ (s.slot i.t.slot).xctl.getLsbD 2 = false) ∧
    ∃ (word : Instr) (s : State) (i : Issue), word.view ≠ .event ∧ Issuing s i ∧ i.v = word.view ∧ CanTrap i ∧ i.v.legal i.t = true ∧
      i.v.lit = false ∧ i.v.op = 0x7F ∧ 1 ≤ i.v.minor ∧ (s.slot i.t.slot).xctl.getLsbD 2 = false :=
  let a : Bench := {}
  let b : Bench := { lit := 2, e := fun s => s.mapSlot 0 fun sl => { sl with xctl := 2 } }
  let c : Bench := { lit := 3 }
  ⟨⟨.add (rr false 56 0 0), a.s, a.i (.add (rr false 56 0 0)), nofun, a.issuing, rfl, canTrap_of (by decide +kernel), by decide +kernel⟩,
    ⟨.sysL2flush (rmL false 0), c.s, c.i (.sysL2flush (rmL false 0)), nofun, c.issuing, rfl, canTrap_of (by decide +kernel), by decide +kernel⟩,
    ⟨.sysL2flush (rmL false 0), b.s, b.i (.sysL2flush (rmL false 0)), nofun, b.issuing, rfl, canTrap_of (by decide +kernel), by decide +kernel⟩,
    .sysHalt (rm false 0 0), b.s, b.i (.sysHalt (rm false 0 0)), nofun, b.issuing, rfl, canTrap_of (by decide +kernel), by decide +kernel⟩

/-- Register 16 of every thread in a state. -/
def reg16 (st : RegState) (prod : Nat) (g : Group) : Group :=
  { g with threads := g.threads.map fun th => { th with v := th.v.set 16 { val := 7, st := st, prod := prod } } }

theorem witness_RegisterWaits :
    (∀ word ∈ ([.add (rr false 4 16 24), .add { rr false 4 16 0 with l := true }, .free (rm false 0 16), .cp (rr true 20 16 24)] : List Instr),
      ∃ (s : State) (i : Issue), word.view ≠ .event ∧ Issuing s i ∧ i.v = word.view ∧ i.v.legal i.t = true ∧
        (i.v.lit = true → literalOk word i i.c.lit = true) ∧ s.forbidden i.v i.t = false ∧
        ∃ k ∈ i.c.active, i.check (operandsOf word i i.ops) k = .waiting) ∧
    ∀ row ∈ ([(.add (rr false 4 16 24), 16), (.add { rr false 4 16 0 with l := true }, 16), (.cp (rr true 20 16 24), 24)] : List (Instr × Nat)),
      ∃ (s : State) (i : Issue), row.1.view ≠ .event ∧ Issuing s i ∧ i.v = row.1.view ∧ i.v.legal i.t = true ∧
        (i.v.lit = true → literalOk row.1 i i.c.lit = true) ∧ s.forbidden i.v i.t = false ∧ CanTrap i ∧
        ∀ k ∈ i.c.active, i.check (operandsOf row.1 i i.ops) k = .trap 0x02 (BitVec.ofNat 32 row.2) := by
  let a : Bench := { h := fun g => let g := reg16 .empty 9 g; { g with g := g.g.set 16 { val := 0, st := .empty, prod := 9 } } }
  let b : Bench := { l := [0, 0, 0, 0, 0, 0x40000000], h := fun g => let g := reg16 .absent 0 g; { g with g := g.g.set 24 Reg.absent, absm := 1 } }
  refine ⟨fun word hw => ⟨a.s, a.i word, ?_⟩, fun row hr => ⟨b.s, b.i row.1, ?_⟩⟩
  · simp only [List.mem_cons, List.not_mem_nil, or_false] at hw
    rcases hw with rfl | rfl | rfl | rfl <;>
      exact ⟨nofun, a.issuing, rfl, by decide +kernel, fun _ => by decide +kernel, by decide +kernel, 5, by decide, by decide +kernel⟩
  · simp only [List.mem_cons, List.not_mem_nil, or_false] at hr
    rcases hr with rfl | rfl | rfl <;>
      exact ⟨nofun, b.issuing, rfl, by decide +kernel, fun _ => by decide +kernel, by decide +kernel, canTrap_of (by decide +kernel), by decide +kernel⟩

/-! ## Witnesses: what the device does by itself -/

/-- The bench's state with no word in hand. -/
def idle (f : Team → Team) (h : Group → Group) (e : State → State) : State := e (st (f (team (h (grp [])))) none)
def live (e : State → State) : State := idle id id e

/-- A queued record of `n` teams, the kernel's header beside it. -/
def queued (r : Record) (n : Nat) (pin : Option Nat) : QRec :=
  { id := 7, record := { r with count := n }, hdr := { hdr with regs := 8, accs := 0, minSlots := 0, spmin := 0 }, launch := 1, slot := 0, pushed := 5,
    next := 0, stop := n, prio := 0, raised := false, pin := pin, msg := none, order := 0 }
def withRec (cl : Nat) (q : QRec) (w : List (Nat × Nat)) (s : State) : State :=
  s.mapCluster cl fun c => { c with queue := [q], waits := w }

/-- The bench's team with every thread ended, and the state with it. -/
def endedTeam (f : Team → Team) (e : EngEvent → Bool) : Team :=
  f (team { grp [] with threads := (grp []).threads.map fun th => { th with live := false },
                        events := [{ cls := 0, seq := 3, pivot := false, datum := 5 }].filter e })
def ended (f : Team → Team) (e : EngEvent → Bool) : State := st (endedTeam f e) none

/-- The conditions of a team's exit. -/
def exits (s : State) (t : Team) : Bool :=
  s.team? t.uid == some t && (t.groups.all fun g => g.threads.all fun th => !th.live) && (s.ops.all fun o => o.uid != t.uid || o.cls == 2) &&
    s.storesAcked t.uid

theorem witness_PlacementEvents :
    (∀ gang ∈ [true, false], ∃ (s : State) (cl core : Nat) (q : QRec), s.served cl = some q ∧
      s.fits cl core q.launch q.record q.hdr q.pin = true ∧ q.record.gang = gang ∧
      ((s.placeTeam cl core q q.next).placeAll cl q (q.stop - q.next - 1) (q.next + 1)).isSome = true ∧ s.team? s.nextId = none) ∧
    (∀ back ∈ [true, false], ∃ (s : State) (cl core : Nat) (q : QRec), s.served cl = some q ∧
      s.fits cl core q.launch q.record q.hdr q.pin = true ∧ q.spillAt.isSome = true ∧ (s.readBack cl q).2 = back) ∧
    (∀ back ∈ [true, false], ∃ (s : State) (cl c : Nat) (q : QRec), (s.cluster cl).queue = [] ∧ s.stealable cl = some (c, q) ∧
      q.spillAt.isSome = true ∧ (s.readBack c q).2 = back) ∧
    (∃ (s : State) (cl since n : Nat) (q : QRec), (q.id, since) ∈ (s.cluster cl).waits ∧ s.carveWaiters cl = [q] ∧
      (s.cluster cl).reserved = [] ∧ since + 200000 = s.now ∧ leastBy (fun n => (s.teamsOn cl n).length)
        ((List.range 256).filter fun n => !s.coreOut cl n && (q.pin.isNone || q.pin == some n) &&
          !((s.cluster cl).reserved.any fun r => r.core == n)) = some n) ∧
    (∀ n ∈ [1, 2], ∃ (s : State) (cl c : Nat) (q : QRec), (s.cluster cl).queue = [] ∧ s.stealable cl = some (c, q) ∧ q.stop - q.next = n) ∧
    (∃ (s : State) (t : Team), exits s t = true ∧ t.oldestEvent = none ∧ t.record.join = 0) ∧
    (∃ (s : State) (t : Team), exits s t = true ∧ t.oldestEvent = none ∧ t.record.join ≠ 0 ∧ t.horizon + 2 = s.now) ∧
    ∃ (s : State) (t : Team), exits s t = true ∧ t.oldestEvent.isSome = true := by
  let g (b : Bool) := live fun s => withRec 7 (queued (rec8 b) 2 none) [] s
  let c := live fun s => { withRec 0 (queued (rec8 false) 1 (some 0)) [(7, 1000)] s with
                            now := 201000, cores := [{ Core.idle 0 0 with carve := some (4, 64) }] }
  let spilled : QRec := { queued (rec8 false) 2 none with spillAt := some 0 }
  let sp (cl : Nat) (back : Bool) := live fun s => { (withRec cl spilled [] s).mapSlot 0 fun sl => { sl with spbase := 0x10000, spsize := 64 } with
    tlb := if back then s.tlb else [] }
  let z (n : Nat) := live fun s => withRec 6 (queued (rec8 false) n none) [] s
  let jt : Team → Team := fun t => { t with record := { t.record with join := 0x10300 } }
  have two : ∀ {α : Type} {a b : α} {P : α → Prop}, P a → P b → ∀ k ∈ [a, b], P k := by
    intro α a b P ha hb k hk
    simp only [List.mem_cons, List.not_mem_nil, or_false] at hk
    rcases hk with rfl | rfl <;> assumption
  refine ⟨two ⟨g true, 7, 255, queued (rec8 true) 2 none, by decide +kernel⟩ ⟨g false, 7, 0, queued (rec8 false) 2 none, by decide +kernel⟩,
    two ⟨sp 7 true, 7, 0, spilled, by decide +kernel⟩ ⟨sp 7 false, 7, 0, spilled, by decide +kernel⟩,
    two ⟨sp 6 true, 7, 6, spilled, by decide +kernel⟩ ⟨sp 6 false, 7, 6, spilled, by decide +kernel⟩,
    ⟨c, 0, 1000, 0, queued (rec8 false) 1 (some 0), by decide +kernel⟩,
    two ⟨z 1, 7, 6, queued (rec8 false) 1 none, by decide +kernel⟩ ⟨z 2, 7, 6, queued (rec8 false) 2 none, by decide +kernel⟩,
    ⟨ended id fun _ => false, endedTeam id fun _ => false, by decide +kernel⟩,
    ⟨{ ended jt (fun _ => false) with now := 2 }, endedTeam jt fun _ => false, by decide +kernel⟩,
    ⟨ended id fun _ => true, endedTeam id fun _ => true, by decide +kernel⟩⟩

/-- A record whose header is there, right and not of a gang is pushed where there is room. -/
theorem pushChecked_done {s : State} {cl slot : Nat} {origin : Origin} {r : Record} {failed : Bool} {src : Nat × Nat × Nat} {who : Accessor}
    (h : (match s.headerRead slot r.entry failed src who with
      | .ok (s', some l) => roomy s' slot 64 && (Header.parse l).any fun h => r.against h == 0
      | _ => false) = true) (hg : r.gang = false) : ∃ st, s.pushChecked cl slot origin r failed src who = .done st := by
  rw [State.pushChecked]
  split at h
  · next s' l e =>
    rw [Bool.and_eq_true] at h
    rw [e]
    simp only []
    cases hh : Header.parse l with
    | none => rw [hh] at h; cases h.2
    | some x =>
      rw [hh] at h
      have hx : r.against x = 0 := by simpa using h.2
      obtain ⟨t, ht⟩ := spill_of_roomy h.1
      simp [hx, hg, ht]
  · cases h

def aJoin : JoinPush :=
  { id := 9, slot := 0, cl := 0, core := 0, place := 0, block := 0x10300, owed := false, waiter := none, parked := false, failed := false }
/-- A record of a join block, in place of its 32 bytes from 0x10320 on. -/
def joinBlock (s : State) : State :=
  { s with mem := Memory.writeN (Memory.writeN s.mem 0x10200 head8) 0x10320 (rec8 false).bytes,
           joins := [aJoin] }
def joinState : State := live fun s => (joinBlock s).mapSlot 0 fun sl => { sl with spbase := 0x10000, spsize := 64 }

theorem witness_JoinRecordPush :
    ∃ (s st : State) (j : JoinPush) (pa bits : Nat) (e : TlbEntry) (r : Record), s.joins.find? (fun x => x.id == j.id) = some j ∧ j.parked = false ∧
      j.owed = false ∧ j.failed = false ∧ s.translate (s.slot j.slot) (j.block.toNat + 32) .read = .ok pa bits e ∧ Record.parse ((s.tlbFill e).sliceRead pa 32).2 = some r ∧
      ((s.tlbFill e).sliceRead pa 32).1.pushChecked j.cl j.slot .joined r false j.source (.join j.id) = .done st := by
  obtain ⟨st, h⟩ := pushChecked_done (s := ((joinState.tlbFill (probePage 0)).sliceRead 0x10320 32).1) (cl := 0) (slot := 0) (origin := .joined)
    (r := rec8 false) (failed := false) (src := aJoin.source) (who := .join 9) (by decide +kernel) rfl
  exact ⟨joinState, st, aJoin, 0x10320, 15, probePage 0, rec8 false, by decide +kernel, rfl, rfl, rfl, by decide +kernel, by decide +kernel, h⟩

/-- Every thread of the bench's group changed. -/
def each (f : Thread → Thread) (g : Group) : Group := { g with threads := g.threads.map f }

theorem witness_LaneEvents :
    (∃ (s : State) (g : Group), s.group? 2 0 = some g ∧ g.active = true ∧ g.isWaiting = true ∧ g.stall = none) ∧
    (∃ (s : State) (g : Group) (x : Stall), s.group? 2 0 = some g ∧ g.active = true ∧ g.isWaiting = true ∧ g.stall = some x ∧ x.begun = false) ∧
    (∃ (s : State) (g : Group), s.group? 2 0 = some g ∧ g.active = true ∧ g.isWaiting = false ∧ g.atBoundary = true ∧
      4096 * 1000 ≤ (s.now - g.since) * s.power.clock ∧ (s.now - 1 - g.since) * s.power.clock < 4096 * 1000) ∧
    (∃ (s : State) (t : Team) (g g' : Group), s.team? 2 = some t ∧ t.groups[0]? = some g ∧ s.oldestReady t 0 g = some (3, 0, g')) ∧
    (∃ (s : State) (g : Group), s.group? 2 0 = some g ∧ g.meetingDue = some 0x10000) ∧
    (∃ (s : State) (f : Flight) (d : Nat) (vals : List Word), s.flights.find? (fun x => x.id == f.id) = some f ∧ f.done = true ∧ f.acked = true ∧
      f.bad = false ∧ f.what = .regs d vals) ∧
    (∃ (s : State) (t : Team) (g : Group) (e : TlbEntry), s.team? 2 = some t ∧ t.groups[0]? = some g ∧ s.mayIssue t 0 g = true ∧
      g.issueSubset = some (0x10000, List.range 16) ∧ g.trapDue (List.range 16) = false ∧ g.parkPc ≠ 0x10000 ∧ s.codeLine t 0 g 0x10000 = none ∧ s.translate (s.slot t.slot) 0x10000 .fetch = .ok 0x10000 15 e) ∧
    (∀ va ∈ [(0x10100 : DWord), 0x20000], ∃ (s : State) (t : Team) (g : Group), s.team? 2 = some t ∧ t.groups[0]? = some g ∧
      s.codeLine t 0 g va.toNat = none ∧
      (s.core t.cl (t.coreOf 0)).ahead.contains { slot := t.slot, part := partOf g.lane, va := va.toNat / 256 } = true ∧
      (match s.translate (s.slot t.slot) (va.toNat / 256 * 256) .fetch with | .ok .. => va == 0x10100 | _ => va == 0x20000) = true) ∧
    (∃ (s : State) (t : Team), s.team? t.uid = some t ∧ t.dlin ≠ 0 ∧ t.dlin = s.now) ∧
    (∃ (s : State) (t : Team) (g : Group) (th : Thread) (d : Nat), s.team? 2 = some t ∧ t.groups[0]? = some g ∧ g.threads[15]? = some th ∧ t.hdr.trapv ≠ 0 ∧
      th.dlPend = some d ∧ g.deadlineDue 15 = true) ∧
    ∃ (s : State) (t : Team) (g : Group) (th : Thread), s.team? 2 = some t ∧ t.groups[0]? = some g ∧ g.threads[15]? = some th ∧ t.hdr.trapv ≠ 0 ∧
      g.orphanDue 15 = true := by
  let w := each fun th => { th with wait := .waitc 0 }
  let ws : Group → Group := fun g => { w g with stall := some { begunWith 0 5 with begun := false } }
  let m := each fun th => { th with meet := 0x10000 }
  let pend : Group := { grp [] with active := false }
  let two : State := idle id w fun s => { s with teams := s.teams ++ [{ team pend with uid := 3, place := 1 }] }
  let f : Flight := { flight 50 (.regs 4 [7]) 4 with uid := 2, done := true, acked := true }
  let dl := each fun th => { th with dlPend := some 5 }
  let o := each fun th => { th with orphan := true, hyp := 0x101 }
  let d : Team → Team := fun t => { t with dlin := 1000 }
  let far : State := live fun s => { s with cores := [{ Core.idle 0 0 with ahead := [{ slot := 0, part := 0, va := 0x101 },
                                                                                     { slot := 0, part := 0, va := 0x200 }] }] }
  exact ⟨⟨idle id w id, w (grp []), by decide +kernel⟩, ⟨idle id ws id, ws (grp []), { begunWith 0 5 with begun := false }, by decide +kernel⟩,
    ⟨idle id id fun s => { s with now := 2410 }, grp [], by decide +kernel⟩,
    ⟨two, team (w (grp [])), w (grp []), pend, by decide +kernel⟩, ⟨idle id m id, m (grp []), by decide +kernel⟩,
    ⟨live fun s => { s with flights := [f] }, f, 4, [7], by decide +kernel⟩, ⟨live id, team (grp []), grp [], probePage 0, by decide +kernel⟩,
    (by
      intro va h
      simp only [List.mem_cons, List.not_mem_nil, or_false] at h
      rcases h with rfl | rfl <;> exact ⟨far, team (grp []), grp [], by decide +kernel⟩),
    ⟨idle d id id, d (team (grp [])), by decide +kernel⟩,
    ⟨idle id dl id, team (dl (grp [])), dl (grp []), (dl (grp [])).threads[15]'(by decide +kernel), 5, by decide +kernel⟩,
    ⟨idle id o id, team (o (grp [])), o (grp []), (o (grp [])).threads[15]'(by decide +kernel), by decide +kernel⟩⟩

theorem witness_MemoryEvents :
    (∃ (s : State) (e : SbEntry), (s.core 0 0).sb.find? (fun x => x.id == e.id) = some e ∧ 
      ∀ x ∈ (s.core 0 0).sb.takeWhile (fun x => x.id != e.id), x.before e = false) ∧
    (∃ (s : State) (f : Flight) (b : List Byte), s.flights.find? (fun x => x.id == f.id) = some f ∧ f.tgt = .mem 0x10000 ∧ f.what = .store b ∧
      f.hyp = 0 ∧ f.done = false ∧ mustPrecede (s.olderThan f) [f] = [f]) ∧
    (∀ w ∈ [Access.merge LongAcc.zero, .atomic .add 1 0 none, .cas16 0 1 4, .store [1]], ∀ on ∈ [true, false], ∃ (s : State) (f : Flight),
      s.flights.find? (fun x => x.id == f.id) = some f ∧ f.tgt = .mem 0x10000 ∧ f.what = w ∧ f.hyp ≠ 0 ∧ f.done = false ∧
      mustPrecede (s.olderThan f) [f] = [f] ∧ (s.liveHyp f.slot f.hyp).isSome = on ∧
      (s.tagWrite f.slot f.hyp 0x10000 (leBytes f.size 1)).1.isPoisoned 0x10000 f.size = false ∧ s.isPoisoned 0x10000 f.size = false) ∧
    (∀ room ∈ [true, false], ∃ (s : State) (f : Flight) (h : Nat) (img : LongAcc), s.flights.find? (fun x => x.id == f.id) = some f ∧
      f.tgt = .mem 0x10000 ∧ f.what = .merge img ∧ f.hyp ≠ 0 ∧ f.done = false ∧ mustPrecede (s.olderThan f) [f] = [f] ∧
      s.liveHyp f.slot f.hyp = some h ∧ (s.tagMerge f.slot h 0x10000 img).isSome = room) ∧
    (∀ w ∈ [Access.merge LongAcc.zero, .atomic .add 1 0 none, .cas16 1 0 4, .store [1]], ∃ (s : State) (f : Flight), s.flights.find? (fun x => x.id == f.id) = some f ∧
      f.tgt = .mem 0x10000 ∧ f.what = w ∧ f.hyp = 0 ∧ f.done = false ∧ mustPrecede (s.olderThan f) [f] = [f] ∧ s.publishing 0x10000 f.size = false ∧
      s.isPoisoned 0x10000 f.size = false) ∧
    (∀ gone ∈ [true, false], ∃ (s : State) (f : Flight), s.flights.find? (fun x => x.id == f.id) = some f ∧ f.done = true ∧ f.acked = false ∧
      f.hasDest = gone ∧ (s.team? f.uid).isSome = !gone) ∧
    (∃ (s : State) (a : Acqr), s.acqrs.find? (fun x => x.id == a.id) = some a ∧ a.arrived = true ∧ a.drained = false ∧
      ∀ f ∈ s.flights, f.id ∈ a.cutFlights → f.acked = true) ∧
    (∃ (s : State) (a : Acqr), s.acqrs.find? (fun x => x.id == a.id) = some a ∧ a.arrived = false ∧ a.drained = false) ∧
    (∃ (s : State) (pa : Nat), pa + 1 = 824633720832 ∧ s.isDirty (pa / 64) = true) ∧
    (∃ (s : State) (va : DWord) (e : TlbEntry), (s.slot 0).en = true ∧ va.toNat < 2 ^ 48 ∧ s.translate (s.slot 0) va.toNat .write = .ok 0x10FFF 15 e) ∧
    ∀ k ∈ [0, 1, 2], ∃ (s : State) (m : LatchMsg), s.latchMsgs.find? (fun x => x.id == m.id) = some m ∧
      (s.saved.any fun x => x.1.uid == m.uid) = (k == 1) ∧ ((s.team? m.uid).any fun t => !s.netUp t.cl) = (k == 2) := by
  let e : SbEntry := { id := 9, slot := 0, uid := 2, gid := 0, sector := 0x400, tracked := false, bytes := [(0x10000, 1)], issued := 0 }
  let f : Flight := flight 50 (.store [1]) 1
  let f2 (gone : Bool) : Flight := { flight 50 (if gone then .load 4 4 else .store [1]) 1 with uid := if gone then 3 else 2, done := true }
  let e2 : SbEntry := { e with id := 8, gid := 1, sector := 0x401, bytes := [(0x10040, 1)] }
  let a (v : Bool) : Acqr := { id := 9, uid := 2, gid := 0, pc := 0x10000, cl := 7, core := 255, arrived := v, cutFlights := [50], cutEntries := [],
                               drained := false, reported := false }
  let m (n : Nat) : LatchMsg := { id := 9, uid := n, lk := 3 }
  let tagged (w : Access) (h : Word) : Flight := { flight 50 w 16 with hyp := h }
  exact ⟨⟨live fun s => { s with cores := [{ Core.idle 0 0 with sb := [e2, e] }] }, e, by decide +kernel⟩,
    ⟨live fun s => { s with flights := [f] }, f, [1], by decide +kernel⟩,
    (by
      intro w h on ho
      refine ⟨live fun s => { withHyps 2 .live s with flights := [tagged w (if on then 0x101 else 0x103)] }, tagged w (if on then 0x101 else 0x103), ?_⟩
      simp only [List.mem_cons, List.not_mem_nil, or_false] at h ho
      rcases ho with rfl | rfl <;> rcases h with rfl | rfl | rfl | rfl <;> decide +kernel),
    (by
      intro room hr
      refine ⟨live fun s => { withHyps 2 .live s with vscfg := if room then s.vscfg else 0, flights := [tagged (.merge LongAcc.zero) 0x101] },
        tagged (.merge LongAcc.zero) 0x101, 1, LongAcc.zero, ?_⟩
      simp only [List.mem_cons, List.not_mem_nil, or_false] at hr
      rcases hr with rfl | rfl <;> decide +kernel),
    (by
      intro w h
      simp only [List.mem_cons, List.not_mem_nil, or_false] at h
      refine ⟨live fun s => { s with flights := [flight 50 w 16] }, flight 50 w 16, ?_⟩
      rcases h with rfl | rfl | rfl | rfl <;> decide +kernel),
    (by
      intro gone h
      simp only [List.mem_cons, List.not_mem_nil, or_false] at h
      refine ⟨live fun s => { s with flights := [f2 gone] }, f2 gone, ?_⟩
      rcases h with rfl | rfl <;> decide +kernel),
    ⟨live fun s => { s with acqrs := [a true] }, a true, by decide +kernel⟩, ⟨live fun s => { s with acqrs := [a false] }, a false, by decide +kernel⟩,
    ⟨live fun s => { s with directory := [{ line := 824633720831 / 256, dirty := [3] }] }, 824633720831, by decide +kernel⟩, ⟨live id, 0x10FFF, probePage 0, by decide +kernel⟩,
    (by
      intro k h
      simp only [List.mem_cons, List.not_mem_nil, or_false] at h
      refine ⟨live fun s => { s with latchMsgs := [m (if k = 1 then 3 else 2)], saved := if k = 1 then [(other none, 0)] else [],
                                     linksDown := if k = 2 then [unitCluster 0] else [] }, m (if k = 1 then 3 else 2), ?_⟩
      rcases h with rfl | rfl | rfl <;> decide +kernel)⟩

/-- The state with one command, and with what else it needs. -/
def withOp (o : EngOp) (e : State → State := id) : State := live fun s => e { s with ops := [o] }

/-- A command is on the device, running, and neither parked nor saved. -/
def running (s : State) (o : EngOp) : Bool := s.op? o.id == some o && o.stage == .running && !o.parked && !o.saved

/-- A copy command to or from a team. -/
def copies (out : Bool) (team : Nat) : EngOp := op 9 0 .running (.copy out 0x10000 [{ start := 0, uid := team, off := 0 }] [0, 1])

/-- A skein request of the bench's team, and a gather of it. -/
def askFor : SkeinReq := { launch := 1, sk := 1, k := 0, va := 0x10000, len := 256, off := 0, sent := false, solo := false, fill := none }
def gathered (closed held full : Bool) (deadline : Nat) (members : List Nat) : Gather :=
  { launch := 1, sk := 1, k := 0, va := 0x10000, len := 256, deadline := deadline, members := members, anchor := 0, closed := closed, held := held,
    full := full }

theorem witness_CopyAndSkeinEvents :
    (∀ k ∈ [0, 1, 2], ∃ (s : State) (o : EngOp), s.op? o.id = some o ∧ o.cls = 0 ∧ o.stage = .queued ∧ o.parked = false ∧ o.saved = false ∧
      ((s.copyQueue o.cl o.core).filter fun x => x.stage == .running).length < 8 ∧
      (s.copyQueue o.cl o.core).find? (fun x => x.stage == .queued && !x.parked) = some o ∧
      (if k = 0 then ∃ out va sp left, o.body = .copy out va sp left else ∃ b left, o.body = .tile b left ∧ b.handle.isSome = (k == 1))) ∧
    (∀ k ∈ [0, 1, 2, 3, 4, 5], ∃ (s : State) (o : EngOp) (va : DWord) (sp : List Mark) (left : List Nat) (p : Nat), running s o = true ∧ p ∈ left ∧
      o.body = .copy (decide (3 ≤ k)) va sp left ∧ s.cutOff o sp = (k == 0) ∧ s.spAlive sp (16 * p) = (k != 1) ∧
      (s.engDrain o .write 16 [va.toNat + 16 * p]).engHeld o .write 16 [va.toNat + 16 * p] = (k == 5) ∧
      (match s.engLoad o (va.toNat + 16 * p) 16 with | .ok _ => true | .error _ => decide (4 ≤ k)) = true ∧
      (match s.engXlate o (va.toNat + 16 * p) .write with | .ok .. => k != 4 | _ => k == 4) = true) ∧
    (∃ (s : State) (o : EngOp), s.op? o.id = some o ∧ o.stage = .finished ∧ o.saved = false ∧ (s.classOps o.uid o.gid o.cls).head? = some o) ∧
    (∃ (s : State) (o : EngOp) (va : DWord) (len line : Nat) (left : List Nat), running s o = true ∧ o.body = .prefetch va len left ∧ line ∈ left) ∧
    (∀ k ∈ [0, 1, 2, 3, 4, 5], ∃ (s : State) (o : EngOp) (r : SkeinReq) (t : Team), s.op? o.id = some o ∧ o.body = .skein r ∧ s.team? o.uid = some t ∧
      o.stage = .queued ∧ o.parked = false ∧ o.saved = false ∧ r.sent = false ∧ r.fill = none ∧ r.solo = (k == 4) ∧ (o.hyp != 0) = (k == 3) ∧
      (s.drainRequest o r).requestHeld o r = (k == 5) ∧
      (match (s.drainRequest o r).gather? t.launch r.sk r.k with
        | none => k == 3 || k == 4 || k == 5 ||
            decide (k = 0 ∧ ((s.drainRequest o r).gathers.filter fun g => !g.closed && g.anchor == (s.drainRequest o r).anchorOf o r).length < 64)
        | some g => if k = 1 then !g.closed && g.va == r.va && g.len == r.len else k == 2 && g.closed) = true) ∧
    (∀ k ∈ [0, 1], ∃ (s : State) (g : Gather), s.gather? g.launch g.sk g.k = some g ∧ g.closed = (k == 0) ∧ g.held = (k == 1)) ∧
    (∀ k ∈ [0, 1, 2, 3], ∃ (s : State) (g : Gather) (x : Skein), s.gather? g.launch g.sk g.k = some g ∧ g.closed = false ∧ g.held = false ∧
      s.skein? g.launch g.sk = some x ∧ g.full = (k == 0) ∧ decide (x.n ≤ g.members.length) = (k == 1) ∧
      g.deadline = if k = 2 then s.now else s.now + 1) ∧
    (∀ k ∈ [0, 1, 2], ∃ (s : State) (o : EngOp) (r : SkeinReq) (data : List Byte), s.op? o.id = some o ∧ o.body = .skein r ∧ r.fill = some data ∧
      o.stage ≠ .finished ∧ o.saved = false ∧ s.netUp o.cl = (k != 0) ∧ (s.team? o.uid).isSome = (k != 2)) ∧
    (∃ (s : State) (t : Team) (g : Group), s.team? 2 = some t ∧ t.groups[0]? = some g ∧ (g.queue 0).kind = 5 ∧ (g.queue 0).words.length = 64 ∧
      s.peerFirst (g.queue 0) = true ∧ (∀ x ∈ s.saved, x.1.uid ≠ (g.queue 0).target) ∧ s.team? (g.queue 0).target = none) ∧
    ∃ (s : State) (t d : Team) (g h : Group) (w : Word) (far : Bool) (rest : List (Word × Bool)), s.team? 2 = some t ∧ t.groups[0]? = some g ∧
      (g.queue 0).kind = 5 ∧ (g.queue 0).words = (w, far) :: rest ∧ s.peerFirst (g.queue 0) = true ∧
      (∀ x ∈ s.saved, x.1.uid ≠ (g.queue 0).target) ∧ s.team? (g.queue 0).target = some d ∧ d.inPort (g.queue 0).channel = some (0, 1) ∧
      (s.setQueue 2 0 0 { g.queue 0 with words := rest, stamps := (g.queue 0).stamps.tail }).group? d.uid 0 = some h ∧
      (h.queue 1).words.length = 63 ∧ d.coreOf 0 = t.coreOf 0 := by
  let tc (x : Bool) : TileCmd :=
    { out := false, hva := 0x10000, origin := [0, 0, 0, 0], sp := 0, conv := 0, desc := 0, pitch := 0, raw := none,
      handle := if x then some (Handle.parse []) else none, marks := [], blocks := [] }
  let q (b : OpBody) := op 9 0 .queued b
  let so (r : SkeinReq) (h : Word) : EngOp := { op 9 2 .queued (.skein r) with hyp := h }
  let lf := op 9 2 .running (.skein { askFor with fill := some [1, 2] })
  let fin := op 9 0 .finished (.mzero 0)
  let pf := op 9 2 .running (.prefetch 0x10000 256 [0])
  let qs : Group → Group := fun g => withQueue 1 0x40000005 63 (withQueue 0 0x50000005 1 g)
  let gone : Group → Group := fun g => { g with queues := g.queues.set 0 { bind := 0x50000005, target := 9, words := List.replicate 64 (7, true) } }
  let ask (k : Nat) : EngOp := so { askFor with solo := k == 4 } (if k = 3 then 0x101 else 0)
  refine ⟨fun k hk => ?_, fun k hk => ?_, ⟨withOp fin, fin, by decide +kernel⟩, ⟨withOp pf, pf, 0x10000, 256, 0, [0], by decide +kernel, rfl, by decide⟩,
    fun k hk => ?_, fun k hk => ?_, fun k hk => ?_, fun k hk => ?_,
    ⟨idle id gone id, team (gone (grp [])), gone (grp []), by decide +kernel⟩,
    idle id qs id, team (qs (grp [])), team (qs (grp [])), qs (grp []),
    { qs (grp []) with queues := (qs (grp [])).queues.set 0 { bind := 0x50000005, target := 2, words := [] } }, 7, true, [], by decide +kernel⟩
  · simp only [List.mem_cons, List.not_mem_nil, or_false] at hk
    rcases hk with rfl | rfl | rfl
    · exact ⟨withOp (q (.copy true 0 [] [])), q (.copy true 0 [] []), by decide +kernel, rfl, rfl, rfl, rfl, by decide +kernel, by decide +kernel, _, _, _, _, rfl⟩
    · exact ⟨withOp (q (.tile (tc true) [])), q (.tile (tc true) []), by decide +kernel, rfl, rfl, rfl, rfl, by decide +kernel, by decide +kernel, _, _, rfl, rfl⟩
    · exact ⟨withOp (q (.tile (tc false) [])), q (.tile (tc false) []), by decide +kernel, rfl, rfl, rfl, rfl, by decide +kernel, by decide +kernel, _, _, rfl, rfl⟩
  · let c (k : Nat) := copies (decide (3 ≤ k)) (if k = 0 then 3 else 2)
    let s (k : Nat) : State := withOp (c k) fun s => { s with
      tlb := if k = 4 then [] else s.tlb, linksDown := if k = 0 then [unitCluster 0] else [],
      teams := if k = 1 then [] else if k = 0 then s.teams ++ [other none] else if k = 5 then (confirming s).teams else s.teams,
      flights := if k = 5 then [{ flight 3 (.load 4 0) 4 with uid := 2, tgt := .mem 0x10010 }] else [] }
    refine ⟨s k, c k, 0x10000, _, [0, 1], 1, ?_, by decide, rfl, ?_⟩ <;>
      (simp only [List.mem_cons, List.not_mem_nil, or_false] at hk; rcases hk with rfl | rfl | rfl | rfl | rfl | rfl <;> decide +kernel)
  · let s (k : Nat) : State := withOp (ask k) fun s => { s with
      teams := if k = 5 then (confirming s).teams else s.teams,
      flights := if k = 5 then [{ flight 3 (.load 4 0) 4 with uid := 2 }] else [],
      gathers := if k = 1 ∨ k = 2 then [gathered (k == 2) false false 1000 []] else [] }
    refine ⟨s k, ask k, _, team (grp []), ?_, rfl, ?_, rfl, rfl, rfl, rfl, rfl, rfl, ?_, ?_, ?_⟩ <;>
      (simp only [List.mem_cons, List.not_mem_nil, or_false] at hk; rcases hk with rfl | rfl | rfl | rfl | rfl | rfl <;> decide +kernel)
  · refine ⟨live fun s => { s with gathers := [gathered (k == 0) (k == 1) false 1000 []] }, gathered (k == 0) (k == 1) false 1000 [], ?_, rfl, rfl⟩
    simp only [List.mem_cons, List.not_mem_nil, or_false] at hk
    rcases hk with rfl | rfl <;> decide +kernel
  · let g (k : Nat) : Gather := gathered false false (k == 0) (if k = 2 then 1000 else 1001) (if k = 1 then [9, 10] else [9])
    refine ⟨live fun s => { withSkein (skein 2 []) s with gathers := [g k] }, g k, skein 2 [], ?_⟩
    simp only [List.mem_cons, List.not_mem_nil, or_false] at hk
    rcases hk with rfl | rfl | rfl | rfl <;> decide +kernel
  · let s (k : Nat) : State := withOp lf fun s => { s with linksDown := if k = 0 then [unitCluster 0] else [], teams := if k = 2 then [] else s.teams }
    refine ⟨s k, lf, { askFor with fill := some [1, 2] }, [1, 2], ?_, rfl, rfl, nofun, rfl, ?_⟩ <;>
      (simp only [List.mem_cons, List.not_mem_nil, or_false] at hk; rcases hk with rfl | rfl | rfl <;> decide +kernel)

/-- The factor region of order 1 at 0: all columns written; its pivot taken. -/
def factRegion (s : State) (o : EngOp) : List Byte := (s.engSpRead o (ownMark o.uid 0) 0 (factBytes 1)).2
def columnsDone (s : State) (o : EngOp) : Bool := decide (1 ≤ regionWord (factRegion s o) 4)
def pivotTaken (s : State) (o : EngOp) : Bool :=
  !pivotFlagged (minusDot (regionWord (factRegion s o) (factAt 1 0 0)) (rowBefore (factRegion s o) 1 0 0) (rowBefore (factRegion s o) 1 0 0)).1.datum
    (fp32.read (regionWord (factRegion s o) 16))

/-- Every premise of MatrixEvents beside the command's body: its turn, and what it reads. -/
theorem witness_MatrixEvents :
    (∃ (s : State) (o : EngOp) (a b : List Byte), running s o = true ∧ o.body = .mma 3 0x4040 a b ∧ s.ownTurn o 3 = true) ∧
    (∃ (s : State) (o : EngOp) (l : Loop) (a b : List Byte), running s o = true ∧ o.body = .mloop l ∧ l.fetched = [(a, b)] ∧ s.ownTurn o l.slot = true ∧
      l.steps = l.applied + 1) ∧
    (∃ (s : State) (o : EngOp) (sa sb : List Byte), running s o = true ∧ o.body = .mscale 1 2 sa sb ∧ s.ownTurn o 1 = true ∧ s.ownTurn o 2 = true) ∧
    (∃ (s : State) (o : EngOp), running s o = true ∧ o.body = .mzero 0 ∧ s.ownTurn o 0 = true) ∧
    (∃ (s : State) (o : EngOp) (l : Loop), running s o = true ∧ o.body = .mloop l ∧ l.fetched.length = 3 ∧ l.applied + l.fetched.length + 1 = l.steps ∧
      ((match s.loopHandles o l with
        | .ok (st, l', ha, hb) => (match st.loopBlock o ha l'.aOrg (((l.applied + l.fetched.length : Nat) : Int) * l'.aInc) with
          | .ok (st1, _) => (match st1.loopBlock o hb l'.bOrg (((l.applied + l.fetched.length : Nat) : Int) * l'.bInc) with | .ok _ => true | .error _ => false)
          | .error _ => false)
        | .error _ => false) = true)) ∧
    (∀ dest ∈ ([.regs 4, .scratch [] 64, .queue, .global 0x10000 [0, 0, 0, 0] (some []) none 0, .peer 2 1 none none 9] : List DrainTo),
      ∃ (s : State) (o : EngOp) (left : List Nat), running s o = true ∧ o.body = .mdrain 0 dest [] left ∧ s.ownTurn o 0 = true) ∧
    (∃ (s : State) (o : EngOp), running s o = true ∧ o.body = .mdrain 0 (.global 0x10000 [0, 0, 0, 0] none none 0) [] [0]) ∧
    (∀ cut ∈ [true, false], ∃ (s : State) (o : EngOp) (m : List Mark) (vals : List Word) (left : List Nat), running s o = true ∧
      o.body = .mdrain 0 (.scratch m 64) vals left ∧ vals ≠ [] ∧ 63 ∈ left ∧ s.cutOff o m = cut) ∧
    (∀ k ∈ [0, 1, 2, 3], ∃ (s : State) (o : EngOp) (vals : List LongAcc) (uid : Nat) (arr : Option LatchTarget), running s o = true ∧
      o.body = .mdrain 0 (.peer uid 1 arr (some vals) 9) [] [0] ∧ s.turn o uid 1 9 = true ∧ arr.isSome = (k == 1 || k == 2) ∧
      (k ≠ 0 → k ≠ 3 → (s.drainBefore o).releasedBefore o = (k == 1)) ∧ (uid == o.uid || s.netUp o.cl) = (k != 3)) ∧
    (∃ (s : State) (o : EngOp), running s o = true ∧ o.body = .mfact 0 1 false ∧ columnsDone s o = true) ∧
    (∀ take ∈ [true, false], ∃ (s : State) (o : EngOp), running s o = true ∧ o.body = .mfact 0 1 false ∧ columnsDone s o = false ∧ pivotTaken s o = take) ∧
    ∃ (s : State) (o : EngOp), running s o = true ∧ o.body = .mtrsm 0 128 144 1 1 false 0 := by
  let b (x : OpBody) := op 9 1 .running x
  let lp (n k : Nat) : Loop := { slot := 3, cfg := 0x4040, aVa := 0x10000, bVa := 0x10040, aOrg := [0, 0, 0, 0], bOrg := [0, 0, 0, 0], aInc := 0, bInc := 0,
                                 steps := n, applied := 0, aRaw := none, bRaw := none, fetched := List.replicate k ([], []) }
  let h : List Byte := leBytes 8 0x10400 ++ (List.replicate 4 (leBytes 4 1)).flatten ++ List.replicate 24 0 ++ [1, 0] ++ List.replicate 14 0
  let fs (k : Nat) : Team → Team := fun t => { t with scratch := [(0, 1), (1, 1), (2, 7), (4, BitVec.ofNat 8 k), (66, 0x80), (67, 0x3F)].filter fun x => x.2 != 0 }
  let w (x : OpBody) := withOp (b x)
  let peer (k : Nat) : OpBody :=
    .mdrain 0 (.peer (if k = 3 then 3 else 2) 1 (if k = 1 ∨ k = 2 then some { uid := 2, lk := 4, far := true } else none) (some []) 9) [] [0]
  let sp (k : Nat) (x : OpBody) : State := idle (fs k) id fun s => { s with ops := [b x] }
  exact ⟨⟨w (.mma 3 0x4040 [] []), b (.mma 3 0x4040 [] []), [], [], by decide +kernel⟩,
    ⟨w (.mloop (lp 1 1)), b (.mloop (lp 1 1)), lp 1 1, [], [], by decide +kernel⟩,
    ⟨w (.mscale 1 2 [] []), b (.mscale 1 2 [] []), [], [], by decide +kernel⟩, ⟨w (.mzero 0), b (.mzero 0), by decide +kernel⟩,
    ⟨withOp (b (.mloop (lp 4 3))) fun s => { s with mem := Memory.writeN (Memory.writeN s.mem 0x10000 h) 0x10040 h }, b (.mloop (lp 4 3)), lp 4 3,
      by decide +kernel⟩,
    (by
      intro dest hd
      refine ⟨w (.mdrain 0 dest [] [0]), b (.mdrain 0 dest [] [0]), [0], ?_, rfl, ?_⟩ <;>
        (simp only [List.mem_cons, List.not_mem_nil, or_false] at hd; rcases hd with rfl | rfl | rfl | rfl | rfl <;> decide +kernel)),
    ⟨w (.mdrain 0 (.global 0x10000 [0, 0, 0, 0] none none 0) [] [0]), b (.mdrain 0 (.global 0x10000 [0, 0, 0, 0] none none 0) [] [0]), by decide +kernel⟩,
    (by
      intro cut _
      let m (cut : Bool) : List Mark := if cut then [{ start := 0, uid := 3, off := 0 }] else []
      let o (cut : Bool) := b (.mdrain 0 (.scratch (m cut) 64) [0] [63])
      refine ⟨withOp (o cut) fun s => { s with linksDown := [unitCluster 0] }, o cut, m cut, [0], [63], ?_, rfl, ?_⟩ <;> cases cut <;> decide +kernel),
    (by
      intro k hk
      refine ⟨withOp (b (peer k)) fun s => { s with
          linksDown := if k = 3 then [unitCluster 0] else [], flights := if k = 2 then [{ flight 3 (.store [1]) 1 with uid := 2 }] else [] },
        b (peer k), [], if k = 3 then 3 else 2, if k = 1 ∨ k = 2 then some { uid := 2, lk := 4, far := true } else none, ?_, rfl, ?_⟩ <;>
        (simp only [List.mem_cons, List.not_mem_nil, or_false] at hk; rcases hk with rfl | rfl | rfl | rfl <;> decide +kernel)),
    ⟨sp 1 (.mfact 0 1 false), b (.mfact 0 1 false), by decide +kernel⟩,
    (by
      intro take _
      refine ⟨idle (fun t => if take then fs 0 t else { fs 0 t with scratch := [(0, 1), (1, 1), (2, 7), (66, 0x80), (67, 0xBF)] }) id fun s =>
        { s with ops := [b (.mfact 0 1 false)] }, b (.mfact 0 1 false), ?_⟩
      cases take <;> decide +kernel),
    w (.mtrsm 0 128 144 1 1 false 0), b (.mtrsm 0 128 144 1 1 false 0), by decide +kernel, rfl⟩

/-- A message and a transfer. -/
def aMsg : Message :=
  { id := 9, slot := 0, cl := 0, core := 0, dst := 0, prio := 0, idx := 0, entry := 0x10240, frame := 0, table := 0, words := [1], src := 0,
    parked := false, failed := false }
def aXfer (minor : Nat) (armed : Option (Nat × Nat × Nat)) (aperture : Bool) : EngOp :=
  op 9 3 .running (.xfer
    { minor := minor, va := 0x10000, marks := [], spl := false, remote := if aperture then 0xF00000000000 else 0, len := 16, rtype := 0,
      dev := 0, block := 0, armed := armed, entry := 0, sent := true, sentAt := 0, sentNo := 0, port := 0, spoiled := false, data := none })

/-- The message's header is readable, and the process takes its record. -/
def msgOk (s : State) (m : Message) : Bool :=
  match s.headerRead m.slot m.entry m.failed m.source (.message m.id) with
  | .ok (st, some l) => (Header.parse l).any fun h =>
      sramFits (m.record h).slots (m.record h).sp && (m.record h).against h == 0 && roomy st m.slot 320
  | _ => false

theorem witness_PodEvents :
    (∃ (s : State) (m : Message), s.messages.find? (fun x => x.id == m.id) = some m ∧ m.parked = false ∧
      s.messages.find? (fun x => x.cl == m.cl && x.core == m.core && x.slot == m.slot && x.cluster == m.cluster && x.pin == m.pin &&
        (!x.parked || x.id == m.id)) = some m ∧
      64 ∣ m.entry.toNat ∧ 64 ≤ m.entry.toNat ∧ m.entry.toNat < 2 ^ 48 ∧ msgOk s m = true) ∧
    (∀ k ∈ [0, 1, 2, 3, 4], ∃ (s : State) (o : EngOp) (x : Xfer) (t : Team) (lk n phases : Nat), s.op? o.id = some o ∧ o.xfer? = some x ∧
      s.team? o.uid = some t ∧ x.armed = some (lk, n, phases) ∧ o.stage ≠ .finished ∧ o.saved = false ∧
      (t.latch lk).f = decide (k ≤ 1) ∧ (t.latch lk).low.any (fun b : Int => decide (b ≤ n)) = (k == 1) ∧
      decide ((t.latch lk).phases = phases) = (k != 3) ∧ (t.latch lk).v = true ∧ decide ((t.latch lk).b ≤ n) = (k == 2)) ∧
    (∀ k ∈ [0, 1, 2, 3], ∃ (s : State) (req : RemoteRequest) (sl : Slot), s.podSlot req.job = some sl ∧ req.len = 16 ∧
      req.minor = (if k = 0 then 2 else 0) ∧ req.va.toNat < 2 ^ 48 ∧
      (match { s with nextId := s.nextId + 1 }.translate sl req.va.toNat (if req.minor = 2 then .read else .write) with
        | .ok .. => decide (k ≤ 1)
        | .bad kind _ => if k = 2 then kind == kPerm else k == 3 && kind != kPerm && kind != 0
        | .untracked => false) = true) ∧ (∃ (s : State) (req : RemoteRequest), s.podSlot req.job = none) ∧
    (∀ ap ∈ [true, false], ∃ (s : State) (o : EngOp) (x : Xfer), s.op? o.id = some o ∧ o.xfer? = some x ∧ x.sent = true ∧ o.stage ≠ .finished ∧
      o.saved = false ∧ x.data = none ∧ x.spoiled = false ∧ x.aperture = ap ∧ x.sentAt + 10000000 = s.now) ∧
    (∃ (s : State) (o : EngOp) (x : Xfer), s.op? o.id = some o ∧ o.xfer? = some x ∧ x.sent = true ∧ o.stage ≠ .finished ∧ o.saved = false ∧
      x.data = none ∧ x.spoiled = true) ∧
    ∃ (s : State), s.idIdle 0 2 = true := by
  have two : ∀ {P : Bool → Prop}, P true → P false → ∀ k ∈ [true, false], P k := by
    intro P ha hb k hk
    cases k <;> assumption
  let m := live fun s => { (withCode false 0 s).mapSlot 0 fun sl => { sl with spbase := 0x10000, spsize := 320 } with messages := [aMsg] }
  let x (k : Nat) : Xfer := { minor := 0, va := 0x10000, marks := [], spl := false, remote := 0, len := 16, rtype := 0, dev := 0, block := 0,
                              armed := some (4, k, 0), entry := 0, sent := true, sentAt := 0, sentNo := 0, port := 0, spoiled := false, data := none }
  let y (ap : Bool) : Xfer := { x 0 with minor := 1, armed := none, remote := if ap then 0xF00000000000 else 0 }
  let lt (k : Nat) : Team → Team := fun t => (validLatch 4 id t).onLatch 4 fun l =>
    { l with b := if k = 2 then 5 else 6, f := decide (k ≤ 1), low := if k = 1 then some 5 else none, phases := if k = 3 then 1 else 0 }
  let spoilt : Xfer := { x 0 with armed := none, spoiled := true }
  let spoiltOp := op 9 3 .running (.xfer spoilt)
  let a := aXfer 0 (some (4, 5, 0)) false
  let ls (k : Nat) : State := idle (lt k) id fun s => { s with ops := [a] }
  let o (ap : Bool) := aXfer 1 none ap
  let w (ap : Bool) : State := { withOp (o ap) with now := 10000000 }
  let req : RemoteRequest := { job := 5, minor := 0, rtype := 0, va := 0, len := 16, data := [] }
  let job (k : Nat) : State := live fun s => { s.mapSlot 0 fun sl => { sl with podjob := 0x80000005, ptbase := 0x20000 } with
    tlb := if k ≤ 1 then s.tlb else [],
    mem := if k = 2 then Memory.writeN (Memory.writeN s.mem 0x20000 (leBytes 8 0x21001)) 0x21000 (leBytes 8 0x103) else [] }
  let req' (k : Nat) : RemoteRequest := { job := 5, minor := if k = 0 then 2 else 0, rtype := 0, va := 0x10000, len := 16, data := [] }
  exact ⟨⟨m, aMsg, by decide +kernel⟩,
    (by
      intro k hk
      refine ⟨ls k, a, x 5, lt k (team (grp [])), 4, 5, 0, ?_⟩
      simp only [List.mem_cons, List.not_mem_nil, or_false] at hk
      rcases hk with rfl | rfl | rfl | rfl | rfl <;> decide +kernel),
    (by
      intro k hk
      refine ⟨job k, req' k, { Slot.reset 0 with en := true, xctl := 6, podjob := 0x80000005, ptbase := 0x20000 }, ?_⟩
      simp only [List.mem_cons, List.not_mem_nil, or_false] at hk
      rcases hk with rfl | rfl | rfl | rfl <;> decide +kernel), ⟨live id, req, by decide +kernel⟩,
    two ⟨w true, o true, y true, by decide +kernel⟩ ⟨w false, o false, y false, by decide +kernel⟩,
    ⟨withOp spoiltOp, spoiltOp, spoilt, by decide +kernel⟩, live (withHyps 2 .confirmed), by decide +kernel⟩

/-! ## Witnesses: the host, the ports, the key, the fleet -/

/-- Slot 0 with a launch ring of 16 entries at 0x10400 and a completion ring of 16 at 0x10800. -/
def rings (lqpi cqpi : Nat) (s : State) : State :=
  s.mapSlot 0 fun sl => { sl with lqbase := 0x10400, lqsize := 16, cqbase := 0x10800, cqsize := 16, lqpi := lqpi, cqpi := cqpi, spbase := 0x10000, spsize := 64 }
/-- An entry: the record, cluster 8 (any), the flags, a tag. -/
def entry (flags : Nat) : List Byte := (rec8 false).bytes ++ leBytes 1 8 ++ leBytes 1 flags ++ leBytes 2 0 ++ leBytes 4 77 ++ List.replicate 24 0
def withEntry (flags : Nat) (s : State) : State := { withCode false 0 s with mem := Memory.writeN (withCode false 0 s).mem 0x10400 (entry flags) }

/-- The entry that slot 0 reads next: what it says of SER and the ring, and its push. -/
def entryRead (s : State) (f : State → List Byte → Bool) : Bool :=
  match s.ring 0 ((s.slot 0).lqbase.toNat + 64 * ((s.slot 0).lqci % (s.slot 0).lqsize)) .read with
  | .ok s1 pa => f (s1.sliceRead pa 64).1 (s1.sliceRead pa 64).2
  | _ => false

/-- The push of an entry with a right record, where there is room. -/
theorem pushEntry_done {s : State} {p id : Nat} {l : List Byte} {failed : Bool} {r : Record} (ho : entryOk l = true)
    (hr : Record.parse (l.take 32) = some r) (h : (match s.headerRead p r.entry failed (0, 0, 0) (.heldEntry id) with
      | .ok (s', some l) => roomy s' p 64 && (Header.parse l).any fun h => r.against h == 0
      | _ => false) = true) (hg : r.gang = false) : ∃ st, s.pushEntry p id l failed = .done st := by
  rw [State.pushEntry, ho, hr]
  exact pushChecked_done h hg

/-- The state slot 0 is in after reading its entry. -/
def afterRead : State :=
  let s := { live (fun s => rings 2 0 (withEntry 1 s)) with launches := [] }
  { ((s.tlbFill (probePage 0)).sliceRead 0x10400 64).1 with nextId := 101 }

theorem witness_LaunchEvents :
    (∀ p ∈ [0, 1], ∀ en ∈ [true, false], ∀ good ∈ [true, false], ∃ s : State, s.hostLink = true ∧ (s.slot p).en = en ∧
      s.slotLegal (s.slot p) = good ∧ ((s.teams ++ s.saved.map (·.1)).any fun t => t.slot == p) = (p == 0)) ∧
    (∃ s : State, s.hostLink = true ∧ s.saved ≠ []) ∧
    (∃ s : State, s.hostLink = true ∧ (s.slot 0).en = true ∧ s.saved = []) ∧
    (∃ s : State, s.heldEntries = [] ∧ (s.slot 0).en = true ∧ (s.slot 0).hold = false ∧ (s.slot 0).lqci ≠ (s.slot 0).lqpi ∧ s.ringHeld 0 = false ∧
      (s.slot 0).lqsize + 1 = ((s.slot 0).lqpi + 2 ^ 32 - (s.slot 0).lqci) % 2 ^ 32) ∧
    (∃ s : State, s.heldEntries = [] ∧ (s.slot 0).en = true ∧ (s.slot 0).hold = false ∧ s.ringHeld 0 = false ∧
      ((s.slot 0).lqpi + 2 ^ 32 - (s.slot 0).lqci) % 2 ^ 32 = (s.slot 0).lqsize ∧
      entryRead s (fun s2 l => fieldAt l 33 1 / 4 % 2 == 1 && s2.ringBusy 0) = true) ∧
    (∃ s : State, s.heldEntries = [] ∧ (s.slot 0).en = true ∧ (s.slot 0).hold = false ∧ (s.slot 0).lqci ≠ (s.slot 0).lqpi ∧ s.ringHeld 0 = false ∧
      entryRead s (fun s2 l => fieldAt l 33 1 / 4 % 2 == 0 && !s2.ringBusy 0 && l == entry 1 && s2 == { afterRead with nextId := 100 }) = true) ∧
    (∃ t, afterRead.pushEntry 0 100 (entry 1) false = .done t) ∧
    (∃ s : State, (s.slot 0).hold = false ∧ (s.slot 0).lqci ≠ (s.slot 0).lqpi ∧
      entryRead s (fun s2 l => fieldAt l 33 1 / 4 % 2 == 0 && (match State.pushEntry { s2 with nextId := s2.nextId + 1 } 0 s2.nextId l false with
        | .refused _ 1 => true
        | _ => false)) = true) ∧
    (∃ (s : State) (e : HeldEntry), s.heldEntries.find? (fun e => e.slot == 0 && !s.entryFaulted e.id) = some e) ∧
    (∀ full ∈ [true, false], ∃ (s : State) (l : Launch), s.launch? l.id = some l ∧ s.launchOver l = true ∧ l.origin = .host 0 77 1 ∧
      (((s.slot 0).cqpi + 2 ^ 32 - (s.slot 0).cqci) % 2 ^ 32 == (s.slot 0).cqsize) = full ∧ s.dueBefore l 0 = !full) ∧
    ∀ flags ∈ [0, 1, 3], ∃ (s : State) (l : Launch), s.launch? l.id = some l ∧ s.launchOver l = true ∧ l.origin = .host 0 77 flags ∧ l.status = 0 ∧
      ((s.slot 0).cqpi + 2 ^ 32 - (s.slot 0).cqci) % 2 ^ 32 + 1 = (s.slot 0).cqsize ∧ s.ringHeld 0 = false ∧ s.dueBefore l 0 = false ∧
      (match s.ring 0 ((s.slot 0).cqbase.toNat + 16 * ((s.slot 0).cqpi % (s.slot 0).cqsize)) .write with | .ok _ _ => true | _ => false) = true := by
  let set1 (p : Nat) (en good : Bool) := live fun s => s.mapSlot p fun sl =>
    { sl with en := en, lqbase := 0x10400, lqsize := if good then 16 else 17, cqbase := 0x10500, cqsize := 65536, fbbase := 0x10600, fbsize := 16,
              spbase := 0x20000, spsize := 65536, asid := 5, xctl := 1 }
  let r (n : Nat) (f : Nat) := live fun s => rings n 0 (withEntry f s)
  let ser := { r 16 5 with launches := [{ id := 1, slot := 0, origin := .host 0 3 0, unplaced := 0, resident := 1, status := 0, skeins := [], fhz := 0 }] }
  let l (flags : Nat) : Launch := { id := 1, slot := 0, origin := .host 0 77 flags, unplaced := 0, resident := 0, status := 0, skeins := [], fhz := 998 }
  let e : HeldEntry := { id := 9, slot := 0, bytes := entry 1, failed := false }
  let early : Launch := { l 1 with id := 2, fhz := 0, done := some (5, 1) }
  let late : Launch := { l 1 with done := some (9, 2) }
  let done (flags : Nat) : State := { live (rings 0 15) with launches := [l flags] }
  refine ⟨fun p hp en he good hg => ⟨set1 p en good, ?_⟩, ⟨live fun s => { s with saved := [(other none, 0)] }, by decide +kernel⟩,
    ⟨live id, by decide +kernel⟩, ⟨r 17 1, by decide +kernel⟩, ⟨ser, by decide +kernel⟩,
    ⟨{ r 2 1 with launches := [] }, by decide +kernel⟩,
    pushEntry_done (r := rec8 false) (by decide +kernel) (by decide +kernel) (by decide +kernel) rfl, ⟨{ r 1 8 with launches := [] }, by decide +kernel⟩,
    ⟨live fun s => { s with heldEntries := [e] }, e, by decide +kernel⟩, fun full h => ?_, fun flags h => ?_⟩
  · simp only [List.mem_cons, List.not_mem_nil, or_false] at hp he hg
    rcases hp with rfl | rfl <;> rcases he with rfl | rfl <;> rcases hg with rfl | rfl <;> decide +kernel
  · have : full = true ∨ full = false := by simpa using h
    rcases this with rfl | rfl
    · exact ⟨{ live (rings 0 16) with launches := [l 1] }, l 1, by decide +kernel⟩
    · exact ⟨{ live (rings 0 15) with launches := [early, late] }, late, by decide +kernel⟩
  have : flags = 0 ∨ flags = 1 ∨ flags = 3 := by simpa using h
  rcases this with rfl | rfl | rfl
  · exact ⟨done 0, l 0, by decide +kernel⟩
  · exact ⟨done 1, l 1, by decide +kernel⟩
  · exact ⟨done 3, l 3, by decide +kernel⟩

theorem witness_HostEvents :
    (∃ (s : State) (off n : Nat), s.hostLink = true ∧ off + n = s.w1size ∧ s.w1base + off + n = Config.deviceBytes ∧ n ≠ 0 ∧ s.linkCxl = true) ∧
    (∃ (s : State) (off : Nat), s.hostLink = true ∧ off + 4 ≤ s.w1size ∧ s.w1base + off = Config.deviceBytes) ∧
    (∃ (s : State) (off : Nat), s.hostLink = true ∧ off + 4 ≤ s.w1size ∧ s.w1base + off + 2 = Config.deviceBytes) ∧
    (∃ (s : State) (off : Nat), s.hostLink = true ∧ s.w1size < off + 1 ∧ off = s.w1size) ∧
    (∃ (s : State) (off : Nat), s.hostLink = true ∧ 16 ∣ s.w1base + off ∧ off + 16 ≤ s.w1size ∧ s.w1base + off + 16 = Config.deviceBytes) ∧
    (∃ (s : State) (w : Word), s.hostLink = true ∧ w.extractLsb' 11 21 = 0 ∧ (s.core (w.extractLsb' 8 3).toNat (w.extractLsb' 0 8).toNat).halted = true ∧
      s.power.tripped = false) ∧
    (∃ (s : State) (w : Word), s.hostLink = true ∧ w.extractLsb' 11 21 = 0 ∧ (s.core (w.extractLsb' 8 3).toNat (w.extractLsb' 0 8).toNat).halted = false) ∧
    (∃ (s : State) (f : FaultPend), s.faults.find? (fun f => f.slot == 0 && f.id == 7 && f.written && (7 : Nat) != 0) = some f) ∧
    (∃ (s : State), s.hostLink = true ∧ s.faults.find? (fun f => f.slot == 0 && f.id == 0 && f.written && (0 : Nat) != 0) = none ∧
      ∀ sl ∈ s.slots, ∀ h ∈ sl.hyps, h.st ≠ .live) ∧
    (∃ (s : State) (sl : Slot) (h : Hyp), s.hostLink = true ∧ sl ∈ s.slots ∧ h ∈ sl.hyps ∧ h.st = .live) ∧
    (∀ up ∈ [true, false], ∀ rec' ∈ [true, false], ∃ s : State, s.boot.powered = up ∧ s.boot.recovery = rec') ∧
    ∃ (s : State) (x : Inval), s.tlbBusy.find? s.invalDone = some x ∧ ∀ y ∈ s.tlbBusy, y.id ≠ x.id → y.host = false ∨ y.bound ≠ 0 := by
  let f : FaultPend := { id := 7, slot := 0, page := 16, kind := 1, who := [.group 2 0], written := true, entry := [] }
  let x : Inval := { id := 9, kind := 2, asid := 0, va := 0, bound := 50, host := true }
  let w : State → State := fun s => { s with w1base := Config.deviceBytes - 2 ^ 30, w1size := 2 ^ 30 }
  let z : State → State := fun s => { s with w1base := Config.deviceBytes - 2 ^ 30 + 4, w1size := 2 ^ 30 }
  let h : Hyp := { id := 1, gen := 1, st := .live, parent := 0, depth := 1 }
  exact ⟨⟨live fun s => { w s with linkCxl := true }, 2 ^ 30 - 3, 3, by decide +kernel⟩, ⟨live z, 2 ^ 30 - 4, by decide +kernel⟩,
    ⟨live z, 2 ^ 30 - 6, by decide +kernel⟩, ⟨live id, State.reset.w1size, by decide +kernel⟩, ⟨live w, 2 ^ 30 - 16, by decide +kernel⟩,
    ⟨live fun s => { s with cores := [{ Core.idle 7 255 with halted := true }] }, 0x7FF, by decide +kernel⟩, ⟨live id, 0x7FF, by decide +kernel⟩,
    ⟨live fun s => { s with faults := [f] }, f, by decide +kernel⟩, ⟨live id, by decide +kernel⟩,
    ⟨live fun s => { s with slots := [{ Slot.reset 0 with hyps := [h] }] }, { Slot.reset 0 with hyps := [h] }, h, by decide +kernel⟩,
    (fun up _ rec' _ => ⟨live fun s => { s with boot := { s.boot with powered := up, recovery := rec' } }, rfl, rfl⟩),
    live fun s => { s with tlbBusy := [x] }, x, by decide +kernel⟩

/-- A state with one port, the key with a master. -/
def withPort (st : PortState) (en : Bool) (waves : BitVec 16) (holder : Nat) (e : State → State := id) : State :=
  live fun s => e { s with ports := [{ Port.reset 3 with st := st, en := en, waves := waves }], key := { holder := holder, expires := 2000 } }

theorem witness_PortAndKeyEvents :
    (∀ m ∈ [Master.host, .arpex], ∃ s : State, s.reaches m = true ∧ s.keyHolder = masterCode m ∧ (s.port 3).en = false) ∧
    (∀ m ∈ [Master.host, .arpex], ∃ s : State, s.reaches m = true ∧ s.keyHolder ≠ masterCode m) ∧
    (∃ (s : State) (p : Port), s.ports = [p] ∧ p.st = .training ∧ s.now = p.since + Config.portTraining) ∧
    (∀ st ∈ [PortState.up, .degraded], ∃ (s : State) (p : Port) (u v : Word), s.ports = [p] ∧ p.st = st ∧ (s.port p.num).usable = true ∧
      unitNamed u = some v ∧ unitClass v = 7 ∧ unitPort v = p.num ∧ (s.port (unitPort v)).waves.getLsbD 15 = true ∧ s.hostLink = true) ∧
    (∃ (s : State) (u v : Word) (wave : Nat), unitNamed u = some v ∧ unitClass v = 7 ∧ (s.port (unitPort v)).waves.getLsbD wave = false) ∧
    (∀ wave ∈ [7, 8], ∃ (s : State) (u v : Word), unitNamed u = some v ∧ unitClass v = 6 ∧ (v.toNat, wave) ∉ s.lostWaves) ∧
    (∃ (s : State) (u v : Word), unitNamed u = some v ∧ unitClass v = 6 ∧ (v.toNat, 7) ∈ s.lostWaves) ∧
    (unitNamed 0x90000000 = none ∧ unitNamed 0x30000280 = none ∧ unitNamed 0x3000027F = some 0x3000027F ∧ unitNamed 0x8FFFFFFF = some 0x80000000) ∧
    (∀ k ∈ [0, 1, 2], ∃ s : State, s.boot.powered = true ∧ s.hostLink = true ∧ s.keyHolder = k) ∧
    ∃ s : State, s.boot.recovery = false ∧ s.key.holder ≠ 0 ∧ s.key.expires = s.now := by
  have hm : ∀ {P : Master → Prop}, P .host → P .arpex → ∀ k ∈ [Master.host, .arpex], P k := fun ha hb k _ => by cases k <;> assumption
  refine ⟨hm ⟨withPort .off false 0 1, by decide +kernel⟩ ⟨withPort .off false 0 2, by decide +kernel⟩,
    hm ⟨withPort .off false 0 2, by decide +kernel⟩ ⟨withPort .off false 0 0, by decide +kernel⟩,
    ⟨withPort .training true 0 0 fun s => { s with now := Config.portTraining }, { Port.reset 3 with st := .training, en := true }, by decide +kernel⟩,
    fun st h => ?_, ⟨live id, 0x70000003, 0x70000003, 15, by decide +kernel⟩, fun wave _ => ⟨live id, 0x60000000, 0x60000000, by decide +kernel, by decide +kernel, nofun⟩,
    ⟨live fun s => { s with lostWaves := [(0x60000000, 7)] }, 0x60000000, 0x60000000, by decide +kernel⟩, by decide +kernel, fun k h => ?_,
    ⟨withPort .off false 0 1 fun s => { s with now := 2000 }, by decide +kernel⟩⟩
  · have : st = .up ∨ st = .degraded := by simpa using h
    rcases this with rfl | rfl
    · exact ⟨withPort .up true 0xFFFF 0, { Port.reset 3 with st := .up, en := true, waves := 0xFFFF }, 0x70000003, 0x70000003, by decide +kernel⟩
    · exact ⟨withPort .degraded true 0xFFF7 0, { Port.reset 3 with st := .degraded, en := true, waves := 0xFFF7 }, 0x70000003, 0x70000003, by decide +kernel⟩
  · have : k = 0 ∨ k = 1 ∨ k = 2 := by simpa using h
    rcases this with rfl | rfl | rfl
    · exact ⟨withPort .off false 0 0, by decide +kernel⟩
    · exact ⟨withPort .off false 0 1, by decide +kernel⟩
    · exact ⟨withPort .off false 0 2, by decide +kernel⟩

/-- An image whose first 16 bytes are these, all else 0. -/
def img (magic format svn len : Nat) : FlashImage := ⟨leBytes 4 magic ++ leBytes 4 format ++ leBytes 4 svn ++ leBytes 4 len⟩

/-- Whether an image of right form passes the checks of its keys rests on the fused hashes, which no word of the spec gives
(log 13): each image comes under exactly one of the outcomes, whatever they are. -/
theorem witness_BootEvents :
    (∃ s : State, s.boot.booted = false ∧ bootReason s.boot.image s.boot.torn s.boot.minSvn = 1) ∧
    (∀ x ∈ [img 0x57465857 1 63 4096, img 0x57465856 2 63 4096, img 0x57465856 1 64 4096, img 0x57465856 1 63 4095, img 0x57465856 1 63 0x4001000],
      imageFormOk x = false) ∧
    (∀ x ∈ [img 0x57465856 1 63 4096, img 0x57465856 1 0 0], imageFormOk x = true) ∧
    (∀ (x : FlashImage) (torn : Bool) (n : Nat), imageFormOk x = true →
      imageKeysOk x = false ∨ imageKeysOk x = true ∧ (imageRsaOk x = false ∨ imageRsaOk x = true ∧ (imageSlhOk x = false ∨ imageSlhOk x = true ∧
        (imageSvn x < n ∨ n ≤ imageSvn x ∧ ((torn = true ∨ imageBodyOk x = false) ∨ torn = false ∧ imageBodyOk x = true))))) ∧
    (∃ (s : State) (m : Master), s.reaches m = true ∧ s.keyHolder = masterCode m) ∧
    ∀ k ∈ [0, 2], ∃ s : State, s.boot.powered = true ∧ s.boot.recovery = false ∧ s.keyHolder = k := by
  refine ⟨⟨State.reset, by decide +kernel⟩, by decide +kernel, by decide +kernel, fun x torn n _ => ?_,
    ⟨withPort .off false 0 2, .arpex, by decide +kernel⟩, fun k h => ?_⟩
  · cases imageKeysOk x <;> cases imageRsaOk x <;> cases imageSlhOk x <;> cases torn <;> cases imageBodyOk x <;> simp <;> omega
  · have : k = 0 ∨ k = 2 := by simpa using h
    rcases this with rfl | rfl
    · exact ⟨withPort .off false 0 0, by decide +kernel⟩
    · exact ⟨withPort .off false 0 2, by decide +kernel⟩

theorem witness_FleetEvents :
    (∃ (s : State) (u v : Word), unitNamed u = some v ∧ ((s.unit v).times.filter fun t => s.now < t + 86400000000000).length = 2) ∧
    (∃ (s : State) (u v : Word), unitNamed u = some v ∧ unitClass v = 7 ∧ (s.unit v).times = []) ∧
    (∃ (s : State) (u v : Word), unitNamed u = some v ∧ unitClass v = 6 ∧ (v.toNat, 7) ∈ s.lostWaves) ∧
    (∀ u ∈ ([0x20000000, 0x27000000, 0x60000000, 0x80000000] : List Word), ∃ (s : State) (v : Word), unitNamed u = some v ∧
      (unitClass v = 2 ∨ unitClass v = 8 ∨ unitClass v = 6 ∧ (v.toNat, 7) ∉ s.lostWaves)) ∧
    (∃ (s : State) (x : UnitLog), x ∈ s.units ∧ unitNamed x.word = some x.word ∧ x.lasting = true ∧ x.times = [5]) ∧
    (∃ s : State, s.boot.powered = true ∧ (0x380043C, 0x1FFFF) ∈ s.power.sensors) ∧ (∃ s : State, s.boot.powered = false) ∧
    (∀ k ∈ [0, 1, 2, 3], ∃ (s : State) (watts : Nat), s.power.sensors.find? (fun x => x.1 == 0x3803000) = some (0x3803000, watts) ∧
      decide (s.power.pcap < watts % 65536) = (k == 1) ∧ decide (3520 < watts / 65536) = (k == 2) ∧ s.power.hotNow = (k == 3) ∧
      s.power.throttled = (k == 3)) ∧
    unitNamed 0 = none ∧ (∃ (s : State) (u : Word), (s.unit u).lasting = true) ∧ (∃ (s : State) (pa : Nat), pa / 64 ∈ s.poisoned) ∧ (∃ s : State, s.errlog.length = 1023) ∧
    (∃ (s : State) (pa : Nat), pa / 64 ∉ s.poisoned) ∧
    (∀ m ∈ [Master.host, .arpex], ∃ s : State, s.reaches m = true ∧ s.keyHolder = masterCode m ∧ s.podcfg.getLsbD 31 = false ∧ ∀ p ∈ s.ports, p.st = .off) ∧
    (∃ s : State, s.boot.powered = true ∧ s.keyHolder = 2) ∧ isKeyRegister 0 = false ∧
    (∃ s : State, s.power.clock = 425 ∧ s.power.throttled = false) ∧ (∃ s : State, s.power.clock = 1700 ∧ s.power.throttled = true) ∧
    (∃ s : State, s.power.hotNow = true) ∧
    ∃ s : State, s.power.tripped = false ∧ (0x3800000, 0) ∈ s.power.hot ∧ s.now = 1000000 := by
  have hm : ∀ {P : Master → Prop}, P .host → P .arpex → ∀ k ∈ [Master.host, .arpex], P k := fun ha hb k _ => by cases k <;> assumption
  let p (h : Power → Power) (n : Nat) := live fun s => { s with power := h s.power, now := n }
  exact ⟨⟨live fun s => { s with units := [{ word := 0x10000000, times := [999, 1], lasting := false, retired := false }] }, 0x10000000,
      0x10000000, by decide +kernel⟩, ⟨live id, 0x70000003, 0x70000003, by decide +kernel⟩,
    ⟨live fun s => { s with lostWaves := [(0x60000000, 7)] }, 0x60000000, 0x60000000, by decide +kernel⟩,
    (by
      intro u hu
      refine ⟨live id, (unitNamed u).getD 0, ?_⟩
      simp only [List.mem_cons, List.not_mem_nil, or_false] at hu
      rcases hu with rfl | rfl | rfl | rfl <;> decide +kernel),
    ⟨live fun s => { s with units := [{ word := 0x10000000, times := [5], lasting := true, retired := false }] },
      { word := 0x10000000, times := [5], lasting := true, retired := false }, by decide +kernel⟩,
    ⟨p (fun q => { q with sensors := [(0x380043C, 0x1FFFF)] }) 0, by decide +kernel⟩,
    ⟨live fun s => { s with boot := { s.boot with powered := false } }, by decide +kernel⟩,
    (by
      intro k hk
      refine ⟨p (fun q => { q with pcap := 3200, throttled := k == 3, hot := if k = 3 then [(0x3800000, 0)] else [],
                                   sensors := [(0x3803000, if k = 1 then 3201 else if k = 2 then 3200 + 65536 * 3521 else 3200 + 65536 * 3520),
                                               (0x3800000, if k = 3 then 1600 else 0)] }) 0,
        if k = 1 then 3201 else if k = 2 then 3200 + 65536 * 3521 else 3200 + 65536 * 3520, ?_⟩
      simp only [List.mem_cons, List.not_mem_nil, or_false] at hk
      rcases hk with rfl | rfl | rfl | rfl <;> decide +kernel), by decide +kernel,
    ⟨live fun s => { s with units := [{ word := 0x10000000, times := [], lasting := true, retired := false }] }, 0x10000000, by decide +kernel⟩,
    ⟨live fun s => { s with poisoned := [0] }, 0, by decide +kernel⟩, ⟨live fun s => { s with errlog := List.replicate 1023 [] }, by decide +kernel⟩,
    ⟨live id, 0, by decide +kernel⟩, hm ⟨withPort .off false 0 1, by decide +kernel⟩ ⟨withPort .off false 0 2, by decide +kernel⟩,
    ⟨withPort .off false 0 2, by decide +kernel⟩, by decide +kernel, ⟨p (fun q => { q with clock := 425 }) 0, by decide +kernel⟩,
    ⟨p (fun q => { q with throttled := true }) 0, by decide +kernel⟩,
    ⟨p (fun q => { q with hot := [(0x3800000, 0)], sensors := [(0x3800000, 1600)] }) 0, by decide +kernel⟩,
    p (fun q => { q with hot := [(0x3800000, 0)] }) 1000000, by decide +kernel⟩

/-- The worked example of one block that comes with the standard (FIPS 180-4). -/
theorem test_sha384_abc : sha384 ([0x61, 0x62, 0x63] : List Byte) =
    0xCB00753F45A35E8BB5A03D699AC65007272C32AB0EDED1631A8B605A43FF5BED8086072BA1E7CC2358BAECA134C825A7#384 := by decide +kernel

/-- The worked example of one block that comes with the standard (FIPS 180-4). -/
theorem test_sha256_abc : sha256 ([0x61, 0x62, 0x63] : List Byte) =
    beBytes 32 0xBA7816BF8F01CFEA414140DE5DAE2223B00361A396177A9CB410FF61F20015AD := by decide +kernel

/-! ## Witnesses: the machine as a whole -/

/-- What the first step of a state looks at before it issues group 0 of the team `uid`. -/
def firstLook (s0 : State) (uid : Nat) : Option (Team × Group × DWord × List Nat × CodeLine) :=
  match s0.team? uid with
  | none => none
  | some t => match t.groups[0]? with
    | none => none
    | some g => match g.issueSubset with
      | none => none
      | some (pc, ts) => match s0.codeLine t 0 g pc.toNat with
        | none => none
        | some l => if s0.mayIssue t 0 g = true ∧ (s0.dueTraps uid 0 g ts).isNone = true then some (t, g, pc, ts, l) else none

/-- The word that step issues. -/
def firstWord (s0 : State) (x : Team × Group × DWord × List Nat × CodeLine) : Word :=
  (leWords 4 (s0.packetBytes x.1 x.2.1 x.2.2.2.2 x.2.2.1 (x.2.1.sameBytes (packetOf x.2.2.1) x.2.2.2.1)).2).getD (slotOf x.2.2.1) 0

/-- A state from which the word `word` issues next. -/
def Fetches (s s0 : State) (word : Word) : Prop :=
  ∃ (uid gid : Nat) (rest : List Sched) (t : Team) (g : Group) (pc : DWord) (ts : List Nat) (l : CodeLine) (s1 : State) (bytes : List Byte),
    s.schedule = .issue uid gid :: rest ∧ s0 = { s with schedule := rest } ∧ s0.team? uid = some t ∧ t.groups[gid]? = some g ∧
    s0.mayIssue t gid g = true ∧ g.issueSubset = some (pc, ts) ∧ s0.dueTraps uid gid g ts = none ∧
    s0.codeLine t gid g pc.toNat = some l ∧ s0.packetBytes t g l pc (g.sameBytes (packetOf pc) ts) = (s1, bytes) ∧ word = (leWords 4 bytes).getD (slotOf pc) 0 ∧
    word.getLsbD 31 = false

theorem fetches_of {s s0 : State} {uid : Nat} {rest : List Sched} {word : Word} (hs : s.schedule = .issue uid 0 :: rest)
    (h0 : s0 = { s with schedule := rest }) (h : (firstLook s0 uid).map (firstWord s0) = some word) (hw : word.getLsbD 31 = false) :
    Fetches s s0 word := by
  cases hl : firstLook s0 uid with
  | none => rw [hl] at h; cases h
  | some x =>
    rw [hl] at h
    obtain ⟨t, g, pc, ts, l⟩ := x
    have hx : word = firstWord s0 (t, g, pc, ts, l) := (Option.some.inj h).symm
    rw [firstLook] at hl
    split at hl
    · cases hl
    · split at hl
      · cases hl
      · split at hl
        · cases hl
        · split at hl
          · cases hl
          · split at hl
            · rename_i _ _ ht _ _ hg _ _ _ hi _ _ hc hm
              cases hl
              exact ⟨uid, 0, rest, t, g, pc, ts, l, _, _, hs, h0, ht, hg, hm.1, hi, Option.isNone_iff_eq_none.mp hm.2, hc, rfl, hx, hw⟩
            · cases hl

/-- The word `w` placed after reset. -/
def placed (w : Nat) : State := State.reset.withFetchWord 32 w

theorem witness_StepRunsDecoded :
    (∃ s s0 word i, Fetches s s0 word ∧ decodeWord word = some i) ∧ (∃ s s0 word, Fetches s s0 word ∧ decodeWord word = none) ∧
    (∃ (s : State) (c : Cur) (i : Instr), s.cur = some c ∧ decodeWord c.word = some i) ∧
    (∃ (s : State) (c : Cur), s.cur = some c ∧ decodeWord c.word = none) ∧
    ∃ (s : State) (i : Instr) (rest : List Sched), s.schedule = .op i :: rest ∧ i.view = .event :=
  ⟨⟨_, _, _, .nop (rm false 0 0), fetches_of (s := placed 0) (uid := 2) (rest := []) (word := 0) (by decide +kernel) rfl (by decide +kernel) rfl, by decide +kernel⟩,
    ⟨_, _, _, fetches_of (s := placed 2) (uid := 2) (rest := []) (word := 2) (by decide +kernel) rfl (by decide +kernel) rfl, by decide +kernel⟩,
    ⟨st (team (grp [])) (some (cur (team (grp [])) (grp []) 0 [0])), _, .nop (rm false 0 0), rfl, by decide +kernel⟩,
    ⟨st (team (grp [])) (some { cur (team (grp [])) (grp []) 0 [0] with word := 2 }), _, rfl, by decide +kernel⟩,
    { State.reset with schedule := [.op .powerLoss] }, _, _, rfl, rfl⟩

theorem witness_DecodeEncode :
    ∃ (i : Instr) (w : Word), i.view.ok = true ∧ i.view ≠ .event ∧ encode i = some w ∧ decodeWord w = some i :=
  ⟨.add (rr false 4 16 24), 0x00888300, by decide +kernel⟩

theorem witness_SettledKept : ∃ s t : State, s.Settled ∧ step s = .next t := by
  have h : (match step State.reset with | .next _ => true | _ => false) = true := by decide +kernel
  refine ⟨State.reset, ?_⟩
  cases e : step State.reset with
  | next t => exact ⟨t, ⟨rfl, nofun⟩, rfl⟩
  | fault f => rw [e] at h; cases h
  | refused r => rw [e] at h; cases h

theorem witness_HomeSliceWrites :
    (∃ (s t : State) (pa : Nat) (bytes : List Byte) (c : Nat), Memory.wf s.mem = true ∧ bytes ≠ [] ∧ pa + bytes.length = 2 ^ 51 ∧
      s.commit pa bytes = (t, c)) ∧
    (∃ (s t : State) (pa size : Nat) (old : List Byte) (c : Nat), Memory.wf s.mem = true ∧ size ≠ 0 ∧ pa + size = 2 ^ 51 ∧
      s.sliceAtomic .cas pa size 1 1 = (t, old, c)) ∧
    (∃ (s t : State) (pa : Nat) (img : LongAcc) (c : Nat), Memory.wf s.mem = true ∧ img.seg.length = 20 ∧ pa % 128 = 0 ∧
      pa + 128 = 2 ^ 51 ∧ s.sliceMerge pa img = (t, c)) ∧
    ∃ (s : State) (a : Nat), a < 2 ^ 51 ∧ a / 128 ∉ s.accUnits :=
  ⟨⟨State.reset, _, 2 ^ 51 - 1, [7], _, rfl, nofun, rfl, rfl⟩, ⟨State.reset, _, 2 ^ 51 - 4, 4, _, _, rfl, nofun, rfl, rfl⟩,
    ⟨State.reset, _, 2 ^ 51 - 128, LongAcc.zero, _, rfl, rfl, rfl, rfl, rfl⟩, State.reset, 0, by decide, nofun⟩

/-! ## Decoding: words assembled in the spec (R208 to R230 and the examples of the instruction sections) -/

theorem test_decode_integer :
    decodeWord 0x0F861FF8 = some (.addi (ri 3 3 1020)) ∧
    decodeWord 0x00861801 = some (.add { rr false 3 3 0 with l := true }) ∧
    decodeWord 0x40A8A0E0 = some (.add (rr true 20 20 7)) ∧
    decodeWord 0x413CF0C0 = some (.sub (rr true 30 30 6)) ∧
    decodeWord 0x418E3001 = some (.mullo { rr true 7 6 0 with l := true }) ∧
    decodeWord 0x480C2801 = some (.shr { rr true 6 5 0 with l := true }) := by decide +kernel

theorem test_decode_move :
    decodeWord 0x11001920 = some (.movtg (rn false 0 3 9)) ∧
    decodeWord 0x00100080 = some (.wtime (rm false 8 0)) ∧
    decodeWord 0x50100001 = some (.movl { rm true 8 0 with l := true }) := by decide +kernel

theorem test_decode_control :
    decodeWord 0x17040002 = some (.bnz (bw 2 2)) ∧
    decodeWord 0x57180002 = some (.bnz { bw 12 2 with u := true }) ∧
    decodeWord 0x186DFFFB = some (.call (bw 54 131067)) ∧
    decodeWord 0x18EC0000 = some (.jmpi (bw 54 0)) ∧
    decodeWord 0x19800000 = some (.exit (bw 0 0)) ∧
    decodeWord 0x140C2141 = some (.xdown { rr false 6 4 10 with l := true }) := by decide +kernel

theorem test_decode_float_and_accumulator :
    decodeWord 0x26043820 = some (.cvtF32F16Hi (rm false 2 7)) ∧
    decodeWord 0x26984001 = some (.ncvtP { rr false 12 8 0 with l := true }) ∧
    decodeWord 0x2C004008 = some (.lst { mw 0 8 with o := 1 }) ∧
    decodeWord 0x2C845110 = some (.lld { mw 2 10 with sz := 1, o := 2 }) := by decide +kernel

theorem test_decode_memory :
    decodeWord 0x32804200 = some (.acas16 (rr false 0 8 16)) ∧
    decodeWord 0x33804040 = some (.cachePfl (rm false 0 8)) ∧
    decodeWord 0x33800020 = some (.cacheDrain (rm false 0 0)) ∧
    decodeWord 0x74102001 = some (.pfr { rr true 8 4 0 with l := true }) ∧
    decodeWord 0x74804800 = some (.acqr (rm true 0 9)) ∧
    decodeWord 0x2F064200 = some (.stg { mw 3 8 with sz := 2 }) ∧
    decodeWord 0x2F8A5261 = some (.lds { mw 5 10 with sz := 2, o := 12, l := true }) ∧
    decodeWord 0x300852A1 = some (.sts { mw 4 10 with sz := 2, o := 20, l := true }) := by decide +kernel

theorem test_decode_sync :
    decodeWord 0x77100001 = some (.sknDecl { rm true 8 0 with l := true }) ∧
    decodeWord 0x779E0040 = some (.latchArrive (rm true 15 0)) ∧
    decodeWord 0x77840081 = some (.latchWait { rm true 2 0 with l := true }) ∧
    decodeWord 0x778C18A0 = some (.latchTest (rm true 6 3)) ∧
    decodeWord 0x7782A000 = some (.latchInit (rm true 1 20)) := by decide +kernel

theorem test_decode_queue :
    decodeWord 0x78800001 = some (.qopBind { rm true 0 0 with l := true }) ∧
    decodeWord 0x39860040 = some (.qpop (rn false 3 0 2)) ∧
    decodeWord 0x790048A0 = some (.qpush (rn true 0 9 5)) ∧
    decodeWord 0x7A006001 = some (.amsg { rr true 0 12 0 with l := true }) ∧
    decodeWord 0x7A902000 = some (.spawn (rm true 8 4)) ∧
    decodeWord 0x7A903040 = some (.spawnJoin (rm true 8 6)) ∧
    decodeWord 0x7B008020 = some (.xferPutred (rm true 0 16)) ∧
    decodeWord 0x7B060061 = some (.xferArm { rm true 3 0 with l := true }) := by decide +kernel

theorem test_decode_hypothesis :
    decodeWord 0x7B900000 = some (.hypNew (rm true 8 0)) ∧
    decodeWord 0x7B924020 = some (.hypEnter (rm true 9 8)) ∧
    decodeWord 0x7B960040 = some (.hypLeave (rm true 11 0)) ∧
    decodeWord 0x7B946060 = some (.hypConfirm (rm true 10 12)) := by decide +kernel

theorem test_decode_matrix :
    decodeWord 0x3C024318 = some (.mma { rr false 1 8 24 with ka := true, kb := true }) ∧
    decodeWord 0x7D000A00 = some (.mscale (rr true 0 1 16)) ∧
    decodeWord 0x3DA01000 = some (.mdrainR (rm false 16 2)) ∧
    decodeWord 0x7D804020 = some (.mdrainSp (rm true 0 8)) ∧
    decodeWord 0x7D864040 = some (.mdrainGl (rm true 3 8)) ∧
    decodeWord 0x7D820061 = some (.mdrainPeer { rm true 1 0 with l := true }) ∧
    decodeWord 0x3E820000 = some (.mzero (rm false 1 0)) ∧
    decodeWord 0x7E806040 = some (.mtrsm (rm true 0 12)) ∧
    decodeWord 0x7E8A0060 = some (.mstat (rm true 5 0)) := by decide +kernel

theorem test_decode_system :
    decodeWord 0x3F060140 = some (.csrRd (rn false 3 0 10)) ∧
    decodeWord 0x3F000149 = some (.csrWr { rn false 0 0 10 with l := true }) ∧
    decodeWord 0x3F002228 = some (.csrWr (rn false 0 4 17)) := by decide +kernel

/-- A scope of a fence (R230), an atomic's operation and size (R215), a branch's offset (R212). -/
theorem test_decode_fence_atomic_branch :
    decodeWord 0x33000480 = some (.fenceRel (fw 4)) ∧ decodeWord 0x33000080 = none ∧
    decodeWord 0x308A4155 = some (.atgCas { aw 5 8 10 with sz := true }) ∧
    decodeWord 0x327E5056 = some (.atsIncWrap (aw 63 10 2)) ∧ decodeWord 0x308A415B = none ∧
    decodeWord 0x1681FFFF = some (.br (bw 0 0x1FFFF)) ∧ decodeWord 0x16820000 = none := by decide +kernel

/-- The fates of the words of R235's example. -/
theorem test_decode_fates :
    decodeWord 0x1A000060 = some (.trap (rn false 0 0 3)) ∧ decodeWord 0x3F800020 = some (.sysCtxsv (rm false 0 0)) ∧
    decodeWord 0x3F8000C0 = none ∧ decodeWord 0x7C000000 = none ∧
    (decodeWord 0x3F000500).any (fun i => i.view.legal (team (grp []))) = false := by decide +kernel

/-! ## Well-formedness: one ill-formed instruction for each check -/

theorem test_ill_formed_words :
    Instr.wf (.not { rm false 4 16 with ea := false, l := true, a := 1 }) = false ∧   -- A beside a literal (R210)
    Instr.wf (.nop (rm false 1 0)) = false ∧                                          -- a reserved field (R208)
    Instr.wf (.mma (rr true 0 16 24)) = false ∧                                       -- a U the row does not take (R227)
    Instr.wf (.add { rr false 4 16 1 with l := true }) = false ∧                      -- B beside a literal (R209)
    Instr.wf (.lseg (rn false 4 0 20)) = false ∧                                      -- the segment index (R289)
    Instr.wf (.csrWr (rn false 0 16 0)) = false ∧                                     -- a read-only csr (R342)
    Instr.wf (.fenceAcq (fw 6)) = false ∧                                             -- a scope (R230)
    Instr.wf (.stg { mw 4 16 with sz := 5 }) = false ∧                                -- a size no store has (R213)
    Instr.wf (.latchInit (rm false 15 16)) = false ∧                                  -- latch 15 is the join latch (R315)
    Instr.wf (.mov64 (rm false 5 16)) = false ∧                                       -- a pair's alignment (R216)
    Instr.wf (.add (rr false 56 16 17)) = false ∧                                     -- a U = 0 destination above 55 (R216)
    Instr.wf (.lclr (rm false 4 0)) = false ∧                                         -- an accumulator number (R282)
    Instr.wf (.qpop (rn false 4 0 8)) = false ∧                                       -- a queue number (R330)
    Instr.wf (.add (rr false 4 16 17)) = true := by decide +kernel

theorem test_ill_formed_operations :
    ([.teamPlacement 8 0, .teamPlacement 0 256, .carveReservation 8, .steal 8, .priorityRaise 8 0, .storeBufferEntryDrain 8 0 0,
      .storeBufferEntryDrain 0 256 0, .slotEnable 64, .slotHold 64 true, .slotTeardown 64, .launchDoorbell 64 0, .launchEntryTake 64,
      .completionConsumed 64 0, .fbciWrite 64 0, .fackRetry 64 0, .fackFail 64 0, .dlnow 64] : List Instr).all (fun i => !i.wf) = true ∧
    ([.portEnable .host 16, .portDisable .host 16, .portTrained 16 0, .portTrainingTimeout 16, .wavelengthLost 0 16, .linkRetryExhausted 16,
      .porterrClear 16] : List Instr).all (fun i => !i.wf) = true ∧
    Instr.wf (.teamPlacement 7 255) = true ∧ Instr.wf (.dlnow 63) = true := by decide +kernel

/-! ## Meanings: values that the spec works out -/

/-- The state after the word on the bench. -/
noncomputable def after (i : Instr) (b : Bench) : Option State :=
  match exec i b.s with
  | .next t => some t
  | _ => none

/-- A thread of the bench's group. -/
def thr (o : Option State) (k : Nat) : Option Thread :=
  match o with
  | none => none
  | some s => match s.group? 2 0 with
    | none => none
    | some g => g.threads[k]?

/-- Register `n` of thread `k`, when it is FULL. -/
def vreg (o : Option State) (k n : Nat) : Option Word :=
  match thr o k with
  | none => none
  | some th => match th.v[n]? with
    | none => none
    | some r => if r.st = .full ∧ r.prod = 0 then some r.val else none

/-- Sticky flags of a thread. -/
def fstOf (o : Option State) (k : Nat) : Option Word := (thr o k).map (·.fst)

/-- One accumulator of every thread set to some segments. -/
def withAcc (segs : List (Nat × Int)) (g : Group) : Group :=
  { g with threads := g.threads.map fun th =>
      { th with acc := th.acc.map fun c => { c with acc := { LongAcc.zero with seg := segs.foldl (fun l x => l.set x.1 x.2) LongAcc.zero.seg } } } }

/-- The example of R244. -/
theorem test_bfe_s : vreg (after (.bfeS { rr false 4 16 0 with l := true }) { l := [0xA0000000], lit := 0x0C1C }) 5 4 = some 0xFFFFFFFA := by
  decide +kernel

/-- Results are taken modulo 2^32 (R236). -/
theorem test_add_wraps : vreg (after (.add (rr false 4 16 24)) { l := [0xFFFFFFFF, 0, 0, 0, 0, 0, 0, 0, 2] }) 5 4 = some 1 := by
  decide +kernel

/-- A thread that does not issue writes nothing. -/
theorem test_add_only_active : vreg (after (.add (rr false 4 16 24)) { l := [0xFFFFFFFF, 0, 0, 0, 0, 0, 0, 0, 2] }) 1 4 = some 0 := by
  decide +kernel

/-- A shift by 32 or more (R243). -/
theorem test_shift_past_width :
    vreg (after (.shl (rr false 4 16 24)) { l := [0xFFFFFFFF, 0, 0, 0, 0, 0, 0, 0, 32] }) 5 4 = some 0 ∧
    vreg (after (.sar (rr false 4 16 24)) { l := [0x80000000, 0, 0, 0, 0, 0, 0, 0, 40] }) 5 4 = some 0xFFFFFFFF := by decide +kernel

/-- The group of the example of R254 and R255: threads 0 to 7 hold 10 t, the others 100 + t, 9 is EMPTY, 12 has exited. -/
def votes : Bench :=
  let val := fun t => BitVec.ofNat 32 (if t < 8 then 10 * t else 100 + t)
  let reg := fun t => if t = 9 then Reg.mk (val t) .empty 7 else Reg.mk (val t) .full 0
  { ts := [0, 1, 2, 3, 4, 5, 6, 7],
    h := fun g => { g with threads := g.threads.mapIdx fun t th => { th with live := t != 12, v := th.v.set 4 (reg t) } } }

theorem test_xdown :
    (List.range 8).map (vreg (after (.xdown { rr false 5 4 6 with l := true }) { votes with lit := 0xFFFFFFFF }) · 5) =
      [60, 70, 108, 0, 110, 111, 0, 113].map some ∧
    (List.range 8).map (vreg (after (.xdown { rr false 6 4 10 with l := true }) { votes with lit := 0xFFFFFFFF }) · 6) =
      [110, 111, 0, 113, 114, 115, 0xFFFFFFFF, 0xFFFFFFFF].map some := by decide +kernel

theorem test_sum_add : (List.range 8).map (vreg (after (.sumAdd (rm false 7 4)) votes) · 7) = List.replicate 8 (some 280) := by
  decide +kernel

/-- The example of fusion: the product rounds, the fused sum does not (R276). -/
theorem test_fmul : vreg (after (.fmul (rr false 4 16 16)) { l := [0x3F800800] }) 5 4 = some 0x3F801000 ∧
    fstOf (after (.fmul (rr false 4 16 16)) { l := [0x3F800800] }) 5 = some flagNX := by decide +kernel
theorem test_ffma :
    let r4 := fun (g : Group) => { g with threads := g.threads.map fun th => { th with v := th.v.set 4 (Reg.mk 0xBF801000 .full 0) } }
    vreg (after (.ffma (rr false 4 16 16)) { l := [0x3F800800], h := r4 }) 5 4 = some 0x33800000 := by decide +kernel

/-- The example of R280: v12 and the flags. -/
theorem test_ncvt_p :
    vreg (after (.ncvtP { rr false 4 16 0 with l := true }) { l := [0x40A80000, 0xC0A80000, 0x43960000, 0x0DA24260], lit := 0x7F04 }) 5 4 =
      some 0x007FD252 ∧
    fstOf (after (.ncvtP { rr false 4 16 0 with l := true }) { l := [0x40A80000, 0xC0A80000, 0x43960000, 0x0DA24260], lit := 0x7F04 }) 5 =
      some (flagOF ||| flagUF ||| flagNX) := by decide +kernel

/-- The table of one value in every mode (R113): 5.25 and -5.25 into n8p4sx. -/
theorem test_n8_modes :
    ([.rne, .rz, .rp, .rd, .rna] : List RMode).map (fun m =>
      (N8.convert ⟨4, false, false, false⟩ m false (.fin false 21 (-2)), N8.convert ⟨4, false, false, false⟩ m false (.fin true 21 (-2)))) =
    [((0x52, flagNX), (0xD2, flagNX)), ((0x52, flagNX), (0xD2, flagNX)), ((0x53, flagNX), (0xD2, flagNX)), ((0x52, flagNX), (0xD3, flagNX)),
      ((0x53, flagNX), (0xD3, flagNX))] := by decide +kernel

/-- The table of the hard cases (R113). -/
theorem test_n8_hard_cases :
    let sx : N8 := ⟨4, false, false, false⟩
    let sf : N8 := ⟨4, false, true, false⟩
    let zx : N8 := ⟨4, true, false, false⟩
    let un := flagUF ||| flagNX
    sx.convert .rne false (.fin true 0 0) = (0x00, 0) ∧ sx.convert .rne false (.fin true 1 (-12)) = (0x00, un) ∧
    sx.convert .rd false (.fin true 1 (-12)) = (0x81, un) ∧ zx.convert .rne false (.fin true 1 (-20)) = (0x00, un) ∧
    zx.convert .rd false (.fin true 1 (-20)) = (0xFF, flagIV) ∧ zx.convert .rd true (.fin true 1 (-20)) = (0x00, flagSAT ||| flagNX) ∧
    zx.convert .rz false (.fin true 1 (-12)) = (0xFF, flagIV) ∧ sx.convert .rne false (.fin false 230 0) = (0x7E, flagNX) ∧
    sx.convert .rne false (.fin false 235 0) = (0x7F, flagOF ||| flagNX) ∧ sx.convert .rz false (.fin false 235 0) = (0x7E, flagNX) ∧
    sx.convert .rd false (.fin false 300 0) = (0x7E, flagOF ||| flagNX) ∧
    sf.convert .rne false (.fin false 300 0) = (0x80, flagIV ||| flagOF ||| flagNX) ∧
    sf.convert .rne true (.fin false 300 0) = (0x7F, flagSAT ||| flagNX) ∧ sf.convert .rne false (.inf false) = (0x80, flagIV) ∧
    sf.convert .rne true (.inf false) = (0x7F, flagSAT) ∧ zx.convert .rne false (.nan false) = (0xFF, 0) := by decide +kernel

/-- The example of carry resolution: 3 - 2^-149 in the five modes (R118, R121). -/
theorem test_lrnd_modes :
    ([0, 1, 2, 3, 4] : List Word).map (fun m =>
      let o := after (.lrndF32 (rm false 4 0)) { h := fun g => { withAcc [(10, 3), (5, -2048)] g with round := m } }
      (vreg o 5 4, fstOf o 5)) =
    [0x40400000, 0x403FFFFF, 0x40400000, 0x403FFFFF, 0x40400000].map fun x => (some x, some flagNX) := by decide +kernel

/-- The example of a negative value in spill form (R119, R123). -/
theorem test_negative_spill_image :
    ({ LongAcc.zero with seg := LongAcc.zero.seg.set 10 (-1) }).resolve.image =
      List.replicate 50 0 ++ (List.replicate 9 [0xFF, 0xFF, 0xFF, 0xFF, 0x00]).flatten ++ List.replicate 5 0xFF ++ List.replicate 28 0 := by
  decide +kernel

/-- The example of status over value (R120, R121): +∞, 2^100 and -∞. -/
theorem test_status_over_value :
    let c : LongAcc := { seg := LongAcc.zero.seg.set 13 16, nan := false, pinf := true, ninf := true }
    c.round fp32 .rne false = (0x7FC00000, 0) ∧ c.roundS32 .rne false = (0, flagIV) := by decide +kernel

/-- The group dot product: what `lgred` merges and `lrnd` rounds (R287, R288). -/
theorem test_dot_product :
    let held : List LongAcc := ([[(13, 16)], [(10, 3)], [(13, -16)], [(9, 0x40000000)]] : List (List (Nat × Int))).map fun l =>
      { LongAcc.zero with seg := l.foldl (fun l x => l.set x.1 x.2) LongAcc.zero.seg }
    let sum := held.foldl LongAcc.merge LongAcc.zero
    sum.seg = (LongAcc.zero.seg.set 9 0x40000000).set 10 3 ∧ sum.round fp32 .rne false = (0x40500000, 0) := by decide +kernel

/-- One word of memory, four threads (R304): the old values 5, 6, 0, 1 and the last new one 2. -/
theorem test_inc_wrap :
    AtomOp.incWrap.apply 4 5 6 0 = some 6 ∧ AtomOp.incWrap.apply 4 6 6 0 = some 0 ∧ AtomOp.incWrap.apply 4 0 6 0 = some 1 ∧
    AtomOp.incWrap.apply 4 1 6 0 = some 2 := by decide +kernel

/-- A call in slot 1 of a packet writes the next packet's address and skips the rest (R263). -/
theorem test_call :
    let b : Bench := { e := fun s => { s with cur := s.cur.map fun c => { c with pc := 0x10004 } } }
    let o := after (.call (bw 20 4)) b
    vreg o 5 20 = some 0x10010 ∧ vreg o 5 21 = some 0 ∧ (thr o 5).map (·.pc) = some 0x10040 := by decide +kernel

end Sys2Proof.Tests
end

/-! PROOFS. Words that only compute, EXIT, and the traps a word takes before or in place of its body (O9, O13, O39, O40,
O42). -/

namespace Sys2Proof.Machine

open Sys2Proof

/-! ## Cross-thread reads (R38, R253, R254) -/

/-- A cross-thread word with signed numbers of threads (R253). -/
theorem computes_crossRead_signed {word : Instr} {src : Int → Int → Int} {w : RR}
    (hx : ∀ s, exec word s = issueWord word.view (compute (crossRead true src w)) s) :
    Computes word fun _ i =>
      { out := fun k => [(w.d.toNat, i.other w.a.toNat (if w.l then i.lit else 0)
          (src k (if w.l then w.b.toNat else (i.rd k w.b.toNat).toInt)))] } :=
  computes_of_compute hx (fun _ _ => by simp [crossRead]) fun _ _ _ _ => rfl

/-- The number of a thread of XXOR is a natural number (R254). -/
theorem computes_xxor (w : RR) : Computes (.xxor w) fun _ i =>
    { out := fun k => [(w.d.toNat, i.other w.a.toNat (if w.l then i.lit else 0)
        ((k ^^^ (if w.l then w.b.toNat else (i.rd k w.b.toNat).toNat) : Nat) : Int))] } := by
  refine computes_of_compute (fun _ => rfl) (fun _ _ => by simp [crossRead]) fun s i _ _ => ?_
  have he : ∀ k, (if w.l then (w.b.toNat : Int) else ((i.rd k w.b.toNat).toNat : Int)).toNat =
      if w.l then w.b.toNat else (i.rd k w.b.toNat).toNat := fun k => by split <;> rfl
  simp only [Done.effect, compute, crossRead, Bool.false_eq_true, ↓reduceIte, he, Int.toNat_natCast]

/-! ## EXIT (R45, R265) -/

/-- A thread with no enabled flag reports nothing (R45). -/
theorem report_none {i : Issue} {k : Nat} {th : Thread} (ht : i.thread? k = some th) (hf : th.fst &&& i.g.fstm = 0) :
    i.report k = none := by
  simp only [Issue.report, ht, hf, ↓reduceIte]

/-- EXIT of threads that report nothing notes its own address and ends them. -/
theorem exitDone_eq {s : State} {i : Issue} (hn : i.ts ≠ []) (h : ∀ k ∈ i.ts, i.report k = none) :
    exitDone s i = { nothing (s.mapGroup i.c.uid i.c.gid fun g => { g with lastExit := i.c.pc }) with
      trap := i.report, each := true, edit := fun _ th => th.exited } := by
  have hany : (i.ts.any fun t => (i.report t).isNone) = true := by
    obtain ⟨k, hk⟩ := List.exists_mem_of_ne_nil _ hn
    exact List.any_eq_true.2 ⟨k, hk, by rw [h k hk]; rfl⟩
  simp only [exitDone, hany, ↓reduceIte]

/-- A landing is one of every effect that makes the same group. -/
theorem Lands.congr {st s' : State} {i : Issue} {ops : List Opd} {e e' : Effect} (h : Lands st s' i ops e)
    (he : ∀ stamp held helds g, e.group i ops stamp held helds g = e'.group i ops stamp held helds g) : Lands st s' i ops e' := by
  obtain ⟨f, held, helds, hf, hs⟩ := h
  exact ⟨f, held, helds, fun g => (hf g).trans (he _ _ _ _), hs⟩

/-- Every thread of a uniform word reads with the lowest one (R219). -/
theorem Issue.one_uniform {i : Issue} (h : i.v.u = true) (k : Nat) : i.one k = i.first := if_pos h

/-! ## Traps of a word that does not reach its body (R42, R234, R235) -/

/-- One trap of all the running threads. -/
theorem deliver_allTraps_lands {s : State} {i : Issue} (h : Issuing s i) (hc : CanTrap i) (cause : Nat) (datum : Word) :
    TrapLands s (s.deliver i.c (i.c.allTraps cause datum)) i fun _ => (cause, datum) :=
  deliver_lands (fun _ => (cause, datum)) h.team h.group rfl h.once h.some hc.1 hc.2

section
variable {s : State} {i : Issue} {litOk : Issue → Word → Bool} {pick : Issue → List Opd → List Opd} {body : State → Issue → Done}

/-- A word that is not legal, or whose literal fails its check, traps ILLEGAL. -/
theorem runWord_illegal (h : Issuing s i) (hl : i.v.legal i.t = false ∨ i.v.lit = true ∧ litOk i i.c.lit = false) :
    runWord i.v litOk pick body s i.c i.t i.g = s.deliver i.c (i.c.allTraps cIllegal i.c.word) := by
  simp only [runWord]
  rw [h.eq, if_pos (by simpa using hl)]

/-- A legal word whose literal passes goes on to the check of its privilege. -/
theorem runWord_legal (h : Issuing s i) (hl : i.v.legal i.t = true) (hlit : i.v.lit = true → litOk i i.c.lit = true) :
    runWord i.v litOk pick body s i.c i.t i.g =
      if s.forbidden i.v i.t then s.deliver i.c (i.c.allTraps cPriv i.c.word) else runBody i (pick i i.ops) body s := by
  simp only [runWord]
  rw [h.eq, if_neg (by rw [hl]; simpa using hlit)]
  rfl

/-- A word with an operand that a running thread must wait for waits. -/
theorem runBody_waits {ops : List Opd} (h : ∃ k ∈ i.c.active, i.check ops k = .waiting) :
    runBody i ops body s = s.waitAll i.c .reg := by
  obtain ⟨k, hk, hw⟩ := h
  rw [runBody]
  exact if_pos (List.any_eq_true.2 ⟨_, List.mem_map_of_mem hk, by rw [hw]; rfl⟩)

/-- A word whose registers trap in every running thread traps. -/
theorem runBody_traps {ops : List Opd} {why : Nat → Nat × Word} (hs : i.c.active ≠ [])
    (h : ∀ k ∈ i.c.active, i.check ops k = .trap (why k).1 (why k).2) (hu : i.v.u = true → ∀ j k, why j = why k) :
    runBody i ops body s =
      s.deliver i.c (i.c.active.map fun k => { thread := k, cause := (why k).1, datum := (why k).2 }) := by
  have hw : ((i.c.active.map fun t => (t, i.check ops t)).any fun x => x.2 == .waiting) = false := by
    rw [List.any_eq_false]
    intro x hx
    obtain ⟨k, hk, rfl⟩ := List.mem_map.1 hx
    simp [h k hk]
  have he : ((i.c.active.map fun t => (t, i.check ops t)).filterMap fun x =>
      x.2.trap?.map fun y => ({ thread := x.1, cause := y.1, datum := y.2 } : TrapRec)) =
      i.c.active.map fun k => { thread := k, cause := (why k).1, datum := (why k).2 } := by
    rw [List.filterMap_map, ← List.filterMap_eq_map]
    exact List.filterMap_congr fun k hk => by simp [h k hk, Ready.trap?]
  have hn : ¬ (i.c.active.map fun k => ({ thread := k, cause := (why k).1, datum := (why k).2 } : TrapRec)) = [] := by simpa using hs
  rw [runBody]
  simp only [hw, he, Bool.false_eq_true, ↓reduceIte, if_neg hn]
  by_cases hv : i.v.u = true
  · rw [if_pos hv]
    obtain ⟨k, l, hc⟩ := List.exists_cons_of_ne_nil hs
    simp only [Cur.allTraps, hc, List.map_cons]
    exact congrArg _ (congrArg _ (List.map_congr_left fun j _ => by rw [hu hv j k]))
  · rw [if_neg hv, if_pos]
    rw [List.filter_eq_nil_iff]
    intro k hk
    simp only [Bool.not_eq_true', Bool.not_eq_false, List.any_map, List.any_eq_true]
    exact ⟨k, hk, by simp⟩

end

/-- Settles O9: each word is a `compute` of `crossRead`, with the number of the thread signed or not. -/
theorem crossReads : Obligations.CrossReads := by
  intro row hrow w
  refine ⟨?_, computes_xxor w⟩
  simp only [List.mem_cons, List.not_mem_nil, or_false] at hrow
  rcases hrow with rfl | rfl | rfl
  all_goals exact computes_crossRead_signed fun _ => rfl

/-- Settles O13: no thread reports, so each one exits. -/
theorem exitEndsThreads : Obligations.ExitEndsThreads := by
  intro w s i hv hcl hp
  have h : InHand (.exit w) anyLit asIs s i := ⟨hv, hcl⟩
  have hr : ∀ k ∈ i.c.active, i.report k = none := fun k hk => by
    obtain ⟨th, ht, hf⟩ := hp k hk
    exact report_none ht hf
  have hd := exitDone_eq (s := s) (by rw [h.2.threads]; exact h.2.some) (by rw [h.2.threads]; exact hr)
  obtain ⟨s', hs, hl⟩ := ends_of (body := exitDone) (fun _ => rfl) h (by rw [hd]; rfl) (by rw [hd]; exact hr)
    (by rw [hd]; exact apart_res _ _ _ _ _ _ _ _ _ _ fun _ => by simp [nothing]) (by rw [hd]) rfl
  exact ⟨s', hs, hl.congr fun _ _ _ _ => by rw [hd]; rfl⟩

/-- Settles O39: the body of each word traps every running thread. -/
theorem softwareTraps : Obligations.SoftwareTraps := by
  intro s i hc
  refine ⟨fun w h => ?_, fun w h => ?_⟩
  · exact traps_of (fun _ => rfl) h hc _ rfl (fun _ _ _ => rfl)
      (fun hu _ j k => by simp only [Issue.one_uniform hu]) h.2.team h.2.group rfl fun _ => rfl
  · exact traps_of (fun _ => rfl) h hc _ rfl (fun _ _ _ => rfl) (fun _ _ _ _ => rfl) h.2.team h.2.group rfl fun _ => rfl

/-- Settles O40: the checks before the body, of legality and of privilege, trap the whole subset. -/
theorem illegalTraps : Obligations.IllegalTraps := by
  intro word s i hw h hv hc
  obtain ⟨body, hx⟩ := exec_word word hw
  refine ⟨fun hl => ?_, fun hl hlit hop hm hp => ?_⟩
  · refine ⟨_, ?_, deliver_allTraps_lands h hc cIllegal i.c.word⟩
    rw [hx, h.run, ← hv, runWord_illegal h hl]
  · have hf : s.forbidden i.v i.t = true := by
      simp only [State.forbidden, hop, hm, hp, beq_self_eq_true, decide_true, Bool.not_false, Bool.and_self]
    refine ⟨_, ?_, deliver_allTraps_lands h hc cPriv i.c.word⟩
    rw [hx, h.run, ← hv, runWord_legal h hl hlit, if_pos hf]

/-- Settles O42: the check of the registers decides before the body of the word runs. -/
theorem registerWaits : Obligations.RegisterWaits := by
  intro word s i hw h hv hl hlit hf
  obtain ⟨body, hx⟩ := exec_word word hw
  have he : exec word s = .next (runBody i (operandsOf word i i.ops) body s) := by
    rw [hx, h.run, ← hv, runWord_legal h hl hlit, hf]
    rfl
  refine ⟨fun hwait => ?_, fun hc why ht hu => ⟨_, he, ?_⟩⟩
  · rw [Waits, he, runBody_waits hwait]
    rfl
  · rw [runBody_traps h.some ht hu]
    exact deliver_lands why h.team h.group rfl h.once h.some hc.1 hc.2

end Sys2Proof.Machine

/-! PROOFS. The six words of sys (O38). -/

namespace Sys2Proof.Machine

open Sys2Proof

/-! ## SYS_ERET (R42, R346) -/

/-- A thread in a handler with a legal target returns without a trap. -/
theorem eretTrap_none {i : Issue} {k : Nat} (h : ∃ th, i.thread? k = some th ∧ th.inHandler = true)
    (hpc : pcOk (i.returnPc k) = true) : i.eretTrap k = none := by
  obtain ⟨th, ht, hh⟩ := h
  simp only [Issue.eretTrap, ht, Option.map_some, Option.getD_some, hh, hpc, Bool.not_true, Bool.false_eq_true, ↓reduceIte]

/-- No thread of a return traps when each of them alone would not. -/
theorem eretDone_trap_none {s : State} {i : Issue} {l : List Nat} (hl : i.ts = l) (h : ∀ k ∈ l, i.eretTrap k = none) :
    ∀ k ∈ l, (eretDone s i).trap k = none := by
  intro k hk
  have hs : i.ts.findSome? i.eretTrap = none := by rw [hl]; exact List.findSome?_eq_none_iff.2 h
  simp only [eretDone, hs, h k hk, ite_self]

/-- The parts of a return name no register. -/
theorem apart_eretDone (s : State) (i : Issue) : (eretDone s i).Apart i :=
  { thread := by simp [eretDone, nothing], accs := by simp [eretDone, nothing],
    group := by cases i.v.u <;> simp [eretDone, nothing] }

/-! ## SYS_L2FLUSH (R348) -/

section
variable {w : RM} {s : State} {i : Issue}

/-- A flush that has begun and whose time has come ends. -/
theorem l2flushDone_begun {y : Stall} (hb : i.begun = some y) :
    l2flushDone w s i = if s.now < y.waitUntil then stallFor s i 0 y.waitUntil else nothing (s.flushAcc true) := by
  simp only [l2flushDone, hb]

/-- A flush of a known kind that begins. -/
theorem l2flushDone_first (hb : i.begun = none) (hx : (i.srcA w i.first).toNat < 3) :
    l2flushDone w s i = if i.srcA w i.first = 0 then nothing (s.flushAcc false)
      else if s.lastExpiry ≤ s.now then nothing (s.flushAcc true) else stallFor (s.flushAcc true) i 0 s.lastExpiry := by
  simp only [l2flushDone, hb, Nat.not_le.2 hx, ↓reduceIte]

/-! ## SYS_TLBINV (R348) -/

theorem addInval_now (s : State) (kind asid va : Nat) : (s.addInval kind asid va false).now = s.now := rfl

/-- An invalidation of a legal block begins and stalls. -/
theorem tlbinvDone_first (hb : i.begun = none) (hl : w.l = false) (hx : (i.rd i.first w.a.toNat).extractLsb' 2 14 = 0)
    (hk : ((i.rd i.first w.a.toNat).extractLsb' 0 2).toNat ≠ 3) (h1 : i.rd i.first (w.a.toNat + 1) = 0)
    (hva : ((i.rd i.first w.a.toNat).extractLsb' 0 2).toNat = 0 → (i.rd2 i.first (w.a.toNat + 2)).extractLsb' 48 16 = 0) :
    tlbinvDone w s i = stallFor (s.addInval ((i.rd i.first w.a.toNat).extractLsb' 0 2).toNat
      ((i.rd i.first w.a.toNat).extractLsb' 16 16).toNat (i.rd2 i.first (w.a.toNat + 2)).toNat false) i
      (BitVec.ofNat 32 s.nextId) (s.now + 1) := by
  simp only [tlbinvDone, hb]
  rw [if_neg (by simp only [Nat.add_zero, hl, hx, hk, h1, ne_eq, not_true_eq_false, Bool.false_eq_true, or_self, not_false_eq_true]), if_neg (fun h => h.2 (hva h.1)), invalStall, addInval_now]
  rfl

/-- An invalidation that is running no more ends its word. -/
theorem tlbinvDone_over {y : Stall} (hb : i.begun = some y) (h : ∀ b ∈ s.tlbBusy, BitVec.ofNat 32 b.id ≠ y.result) :
    tlbinvDone w s i = nothing s := by
  have ha : (s.tlbBusy.any fun b => BitVec.ofNat 32 b.id == y.result) = false :=
    List.any_eq_false.2 fun b hb => by simpa using h b hb
  simp only [tlbinvDone, hb, ha, Bool.false_eq_true, ↓reduceIte]

/-! ## SYS_CTXSV and SYS_CTXLD (R347) -/

/-- The block and the address of a context word are as R347 asks. -/
structure ContextLegal (w : RM) (i : Issue) : Prop where
  literal : w.l = false
  block : (i.rd i.first (w.a.toNat + 2)).extractLsb' 13 19 = 0
  last : i.rd i.first (w.a.toNat + 3) = 0
  high : (i.rd2 i.first w.a.toNat).extractLsb' 48 16 = 0
  aligned : (i.rd2 i.first w.a.toNat).extractLsb' 0 12 = 0

/-- A legal context word passes its checks. -/
theorem ContextLegal.checked_eq (h : ContextLegal w i) (k : Done) : checked s (contextChecks w i) k = k := by
  refine Machine.checked_eq fun x hx => ?_
  simp only [contextChecks, List.mem_cons, List.not_mem_nil, or_false] at hx
  rcases hx with rfl | rfl | rfl
  · simp [h.literal, h.block, h.last]
  · simp [h.high]
  · simp [h.aligned]

/-- A save that begins. -/
theorem ctxsvDone_first (hb : i.begun = none) (hl : ContextLegal w i) :
    ctxsvDone w s i =
      match s.contextTarget i (i.rd i.first (w.a.toNat + 2)) with
      | none => contextGive w s 1
      | some t =>
        match s.areaCheck i (i.rd2 i.first w.a.toNat).toNat t.record.imageSize .write with
        | .unresolvable => contextGive w s 2
        | .faults l => { st := s.park i .write false l, hold := some .park }
        | .usable => stallFor (s.mapTeam t.uid fun t => if s.saverAlive t then t else { t with saving := some (i.c.uid, i.c.gid) }) i
            (savePending t.uid) (s.now + 1) := by
  simp only [ctxsvDone, hb, hl.checked_eq] <;> rfl

/-- A save that has stopped its team, whose area is usable and whose team has come to rest, writes the image. -/
theorem ctxsvDone_save {y : Stall} {t : Team} (hb : i.begun = some y) (hy : y.result.getLsbD 31 = true)
    (ht : s.contextTarget i (i.rd i.first (w.a.toNat + 2)) = some t) (hp : savePending t.uid = y.result)
    (hs : t.saving = some (i.c.uid, i.c.gid))
    (ha : s.areaCheck i (i.rd2 i.first w.a.toNat).toNat t.record.imageSize .write = .usable)
    (hc : (s.drainTeam t).canSave t = true) :
    ctxsvDone w s i = saveTeam (s.drainTeam t) i t (i.rd2 i.first w.a.toNat).toNat := by
  simp only [ctxsvDone, hb, hy, ht, Option.filter, hp, hs, ha, hc, beq_self_eq_true, Bool.not_true, Bool.false_eq_true, ↓reduceIte,
    ne_eq, not_true_eq_false]

/-- A save that has written its image and whose time has come gives its status. -/
theorem ctxsvDone_written {y : Stall} (hb : i.begun = some y) (hy : y.result.getLsbD 31 = false) (hn : y.waitUntil ≤ s.now) :
    ctxsvDone w s i = contextGive w s y.result := by
  simp only [ctxsvDone, hb, hy, Bool.not_false, ↓reduceIte, Nat.not_lt.2 hn]

/-- The image of the team last put away is written. -/
theorem saveTeam_eq {t kept : Team} {since va waitUntil : Nat} {st : State} (hk : (s.putAway t).saved.getLast? = some (kept, since))
    (hw : (s.putAway t).writeArea i va ((s.putAway t).image kept) = (st, waitUntil)) :
    saveTeam s i t va = stallFor st.tookFree i 0 waitUntil := by
  simp only [saveTeam, hk, hw]

/-- A restore whose header cannot be read without an error of memory kills its own team (R439). -/
theorem ctxldDone_poisoned (hl : ContextLegal w i) (ha : s.areaCheck i (i.rd2 i.first w.a.toNat).toNat 4096 .read = .usable)
    (hp : s.areaPoisoned i (i.rd2 i.first w.a.toNat).toNat 4096 = true) : ctxldDone w s i = nothing (s.killTeam i.c.uid cEcc 0) := by
  simp only [ctxldDone, hl.checked_eq, ha, hp, ↓reduceIte]

/-- A restore of a good image takes the saved team back when there is room for it. -/
theorem ctxldDone_good {r : Record} {t : Team} {since : Nat} {h b : State × List Byte} (hl : ContextLegal w i)
    (ha : s.areaCheck i (i.rd2 i.first w.a.toNat).toNat 4096 .read = .usable)
    (hp : s.areaPoisoned i (i.rd2 i.first w.a.toNat).toNat 4096 = false)
    (hh : s.readArea i (i.rd2 i.first w.a.toNat).toNat 4096 = h) (hr : Record.parse (sliceOf h.2 16 32) = some r)
    (hi : h.1.imageRefused h.2 r.imageSize i.t.cl ((i.rd i.first (w.a.toNat + 2)).extractLsb' 0 8).toNat = false)
    (ha2 : h.1.areaCheck i (i.rd2 i.first w.a.toNat).toNat r.imageSize .read = .usable)
    (hp2 : h.1.areaPoisoned i (i.rd2 i.first w.a.toNat).toNat r.imageSize = false)
    (hb : h.1.readArea i (i.rd2 i.first w.a.toNat).toNat r.imageSize = b) (ht : b.1.savedTeam b.2 = some (t, since))
    (hrec : t.record = r) :
    ctxldDone w s i =
      if b.1.canRestore t ((i.rd i.first (w.a.toNat + 2)).extractLsb' 8 5).toNat then
        contextGive w (b.1.takeBack ((t.restore b.2).mapThreads (b.1.slot t.slot).resumed)
          ((i.rd i.first (w.a.toNat + 2)).extractLsb' 8 5).toNat) 0
      else contextGive w b.1 1 := by
  simp only [ctxldDone, hl.checked_eq, ha, hp, hh, hr, hi, ha2, hp2, hb, ht, hrec, Bool.false_eq_true, ↓reduceIte, ne_eq,
    not_true_eq_false, Bool.not_eq_true']
  cases b.1.canRestore t ((i.rd i.first (w.a.toNat + 2)).extractLsb' 8 5).toNat <;> rfl

end

/-! ## The words -/

/-- A context word that gives a status ends. -/
theorem ends_contextGive {w : RM} {word : Instr} {litOk : Issue → Word → Bool} {body : State → Issue → Done} {s st : State} {i : Issue}
    {x : Word} (hx : ∀ s, exec word s = issueWith word.view litOk asIs body s) (h : InHand word litOk asIs s i)
    (hb : body s i = contextGive w st x) : Ends word asIs s i st { out := fun _ => [(w.d.toNat, x)] } :=
  ends_gives hx h hb

/-- Settles O38: one lemma per way a word of sys ends, in the order of the words. -/
theorem systemWords : Obligations.SystemWords := by
  intro w s i
  refine ⟨fun h hh hpc => ?_, fun h => ends_nothing (fun _ => rfl) h rfl, fun h => ⟨fun hb hx => ⟨fun h0 => ?_, fun h0 he => ?_, fun h0 he => ?_⟩,
    fun y hb => ⟨fun hy => ?_, fun hy => ?_⟩⟩, fun h hl => ⟨fun hb hx hk h1 hva => ?_, fun y hb hy => ?_⟩, ?_, ?_⟩
  · have ht : ∀ k ∈ i.c.active, i.eretTrap k = none := fun k hk => eretTrap_none (hh k hk) (hpc k hk)
    exact ends_of (body := eretDone) (fun _ => rfl) h rfl (eretDone_trap_none h.2.threads ht) (apart_eretDone s i) rfl rfl
  · exact ends_nothing (fun _ => rfl) h (by rw [l2flushDone_first hb hx, if_pos h0])
  · exact ends_nothing (fun _ => rfl) h (by rw [l2flushDone_first hb hx, if_neg h0, if_pos he])
  · exact stalls_of (fun _ => rfl) h (by rw [l2flushDone_first hb hx, if_neg h0, if_neg (Nat.not_le.2 he)])
  · exact ends_nothing (fun _ => rfl) h (by rw [l2flushDone_begun hb, if_neg (Nat.not_lt.2 hy)])
  · exact stalls_of (fun _ => rfl) h (by rw [l2flushDone_begun hb, if_pos hy])
  · exact stalls_of (fun _ => rfl) h (tlbinvDone_first hb hl hx hk h1 hva)
  · exact ends_nothing (fun _ => rfl) h (tlbinvDone_over hb hy)
  · refine fun h => ⟨fun hb hl => ?_, fun y hb => ⟨fun hy t ht hp hs ha hc kept since st waitUntil hk hw => ?_, fun hy hn => ?_⟩⟩
    · obtain ⟨l1, l2, l3, l4, l5⟩ := hl
      have hd := ctxsvDone_first (s := s) hb ⟨l1, l2, l3, l4, l5⟩
      refine ⟨fun hn => ?_, fun t ht => ⟨fun ha => ?_, fun ha _ => ?_⟩⟩
      · exact ends_contextGive (fun _ => rfl) h (by rw [hd, hn])
      · exact ends_contextGive (fun _ => rfl) h (by rw [hd, ht]; simp only [ha])
      · exact stalls_of (fun _ => rfl) h (by rw [hd, ht]; simp only [ha])
    · exact stalls_of (fun _ => rfl) h ((ctxsvDone_save hb hy ht hp hs ha hc).trans (saveTeam_eq hk hw))
    · exact ends_contextGive (fun _ => rfl) h (ctxsvDone_written hb hy hn)
  · rintro h ⟨l1, l2, l3, l4, l5⟩ ha
    refine ⟨fun hp => ends_nothing (fun _ => rfl) h (ctxldDone_poisoned ⟨l1, l2, l3, l4, l5⟩ ha hp), ?_⟩
    intro hd r hp hr hi ha2 hp2 b t since ht hrec
    have hd := ctxldDone_good ⟨l1, l2, l3, l4, l5⟩ ha hp rfl hr hi ha2 hp2 rfl ht hrec
    exact ⟨fun hc => ends_contextGive (fun _ => rfl) h (by rw [hd, if_pos hc]),
      fun hc => ends_contextGive (fun _ => rfl) h (by rw [hd, hc]; rfl)⟩

end Sys2Proof.Machine

/-! PROOFS. SPAWN, SPAWN_GANG, SPAWN_JOIN and AMSG (O33). -/

namespace Sys2Proof.Machine

open Sys2Proof

/-! ## Releases and reads of the issuing thread (R188, R190) -/

section
variable {s : State} {i : Issue}

/-- A release that must wait is tried again. -/
theorem releaseWord_waits {cls : ScopeClass} (h : ¬ MayRelease s i cls) (k : Done) :
    releaseWord i s cls k = retry (s.beginRelease i.t.cl (i.t.coreOf i.c.gid) i.c.uid i.c.gid cls) i := by
  simp only [releaseWord]
  exact if_neg h

/-- A read that passes goes on with what it brought. -/
theorem readOr_reads {s1 : State} {va : DWord} {size pa : Nat} {acc : AccessKind} {atom : AtomKind} {l : List Byte}
    (h : s.reads i va size acc atom = some (s1, pa, l)) (fail : Nat → Word → Done) (k : State → Nat → List Byte → Done) :
    readOr i s va size acc atom fail k = k s1 pa l := by
  simp only [State.reads] at h
  split at h
  · rename_i pa' bits e hc
    split at h
    · cases h
    · rename_i hn
      simp only [not_or] at hn
      obtain ⟨ha, hp, hpo⟩ := hn
      cases h
      simp only [readOr, hc, ha, hp, hpo, Bool.false_eq_true, or_self, ↓reduceIte]
  · cases h

/-- The same for a read whose failures are traps of the word. -/
theorem readWord_reads {s1 : State} {va : DWord} {size pa : Nat} {acc : AccessKind} {atom : AtomKind} {l : List Byte}
    (h : s.reads i va size acc atom = some (s1, pa, l)) (k : State → Nat → List Byte → Done) :
    readWord i s va size acc atom k = k s1 pa l := readOr_reads h _ k

/-- A read that cannot be resolved ends as the word says. -/
theorem readOr_unresolvable {va : DWord} {size : Nat} {d : Done} (h : s.unresolvable i va size)
    (k : State → Nat → List Byte → Done) : readOr i s va size .read .plain (fun _ _ => d) k = d := by
  obtain ⟨c, x, hc⟩ := h
  simp only [readOr, hc]

end

/-! ## SPAWN and SPAWN_GANG (R188, R327) -/

/-- The status of a spawn in its register. -/
def spawnGive (w : RM) (s : State) (x : Word) : Done := { nothing s with res := fun _ => [(w.d.toNat, x)] }

/-- What a spawn does with a record and the header that is read for it. -/
def spawnRecord (gang : Bool) (w : RM) (s : State) (i : Issue) (r : Record) (h : Header) : Done :=
  if r.against h ≠ 0 ∨ r.gang ≠ gang ∨ (gang ∧ !s.gangFits r h) then spawnGive w s 2
  else if gang then
    let x := s.newLaunch i.t.slot .spawned r.count
    match (List.range Config.clusters).findSome? fun cl => x.1.placeAll cl (x.1.queueRec i.t.slot x.2 r h none none 0) r.count 0 with
    | some s => spawnGive w s 0
    | none => spawnGive w s 1
  else match s.spill i.t.slot 64 with
    | (s, false) => retry s i
    | (s, true) => spawnGive w (s.push i.t.cl i.t.slot .spawned r h none none 0) 0

section
variable {gang : Bool} {w : RM} {s s1 s2 : State} {i : Issue} {pa pa2 : Nat} {l hl : List Byte} {r : Record} {h : Header}

/-- A spawn whose block is no record gives 2. -/
theorem spawnDone_noRecord (hr : MayRelease s i .device)
    (h1 : s.reads i (i.rd2 i.first w.a.toNat) 32 .read .plain = some (s1, pa, l)) (hp : Record.parse l = none) :
    spawnDone gang w s i = spawnGive w s1 2 := by
  simp only [spawnDone, releaseWord_eq hr, readWord_reads h1, hp, spawnGive]

/-- A spawn whose header no table can map gives 2 (log 41). -/
theorem spawnDone_unmapped (hr : MayRelease s i .device)
    (h1 : s.reads i (i.rd2 i.first w.a.toNat) 32 .read .plain = some (s1, pa, l)) (hp : Record.parse l = some r)
    (hu : s1.unresolvable i (r.entry - 64) 64) : spawnDone gang w s i = spawnGive w s1 2 := by
  simp only [spawnDone, releaseWord_eq hr, readWord_reads h1, hp, readOr_unresolvable hu, spawnGive]

/-- A spawn whose header is none gives 2. -/
theorem spawnDone_noHeader (hr : MayRelease s i .device)
    (h1 : s.reads i (i.rd2 i.first w.a.toNat) 32 .read .plain = some (s1, pa, l)) (hp : Record.parse l = some r)
    (h2 : s1.reads i (r.entry - 64) 64 .read .plain = some (s2, pa2, hl)) (hh : Header.parse hl = none) :
    spawnDone gang w s i = spawnGive w s2 2 := by
  simp only [spawnDone, releaseWord_eq hr, readWord_reads h1, hp, readOr_reads h2, hh, spawnGive]

/-- A spawn that reads its record and its header goes on with them. -/
theorem spawnDone_record (hr : MayRelease s i .device)
    (h1 : s.reads i (i.rd2 i.first w.a.toNat) 32 .read .plain = some (s1, pa, l)) (hp : Record.parse l = some r)
    (h2 : s1.reads i (r.entry - 64) 64 .read .plain = some (s2, pa2, hl)) (hh : Header.parse hl = some h) :
    spawnDone gang w s i = spawnRecord gang w s2 i r h := by
  simp only [spawnDone, releaseWord_eq hr, readWord_reads h1, hp, readOr_reads h2, hh] <;> rfl

/-- A record that its header refuses, or that is not of the word's kind, gives 2. -/
theorem spawnRecord_refused (hb : r.against h ≠ 0 ∨ r.gang ≠ gang ∨ (gang = true ∧ s.gangFits r h = false)) :
    spawnRecord gang w s i r h = spawnGive w s 2 := if_pos (by simpa using hb)

/-- A gang that fits is placed whole in the first cluster that takes it. -/
theorem spawnRecord_gang (ha : r.against h = 0) (hg : r.gang = true) (hf : s.gangFits r h = true) :
    spawnRecord true w s i r h =
      match (List.range Config.clusters).findSome? fun cl => (s.newLaunch i.t.slot .spawned r.count).1.placeAll cl
        ((s.newLaunch i.t.slot .spawned r.count).1.queueRec i.t.slot (s.newLaunch i.t.slot .spawned r.count).2 r h none none 0)
          r.count 0 with
      | some s => spawnGive w s 0
      | none => spawnGive w s 1 := by
  simp only [spawnRecord]
  rw [if_neg (by simp [ha, hg, hf]), if_pos trivial]

/-- A record that is no gang is pushed once its entry has found a place. -/
theorem spawnRecord_push (ha : r.against h = 0) (hg : r.gang = false) :
    spawnRecord false w s i r h =
      match s.spill i.t.slot 64 with
      | (s, false) => retry s i
      | (s, true) => spawnGive w (s.push i.t.cl i.t.slot .spawned r h none none 0) 0 := by
  simp only [spawnRecord]
  rw [if_neg (by simp [ha, hg]), if_neg Bool.false_ne_true]

/-! ## SPAWN_JOIN (R188, R189) -/

/-- A join that begins decrements the count and stalls for the record when it was the last one. -/
theorem spawnJoinDone_first (hb : i.begun = none) (hr : MayRelease s i .device)
    (h1 : s.reads i (i.rd2 i.first w.a.toNat) 64 .readWrite .dev = some (s1, pa, l)) :
    spawnJoinDone w s i =
      if (s1.decrementAt pa).2 = 1 then
        stallFor ((s1.decrementAt pa).1.addJoin i.t (i.t.coreOf i.c.gid) (i.rd2 i.first w.a.toNat) false (some (i.c.uid, i.c.gid))) i
          pendingJoin (s1.now + 1)
      else spawnGive w (s1.decrementAt pa).1 0 := by
  simp only [spawnJoinDone, hb, releaseWord_eq hr, readWord_reads h1]
  rfl

/-- A join that has begun gives its status once it has one. -/
theorem spawnJoinDone_begun {y : Stall} (hb : i.begun = some y) :
    spawnJoinDone w s i = if y.result = pendingJoin then stallFor s i pendingJoin (s.now + 1) else spawnGive w s y.result := by
  simp only [spawnJoinDone, hb]
  rfl

/-- A join that begins waits for its release. -/
theorem spawnJoinDone_waits (hb : i.begun = none) (hr : ¬ MayRelease s i .device) :
    spawnJoinDone w s i = retry (s.beginRelease i.t.cl (i.t.coreOf i.c.gid) i.c.uid i.c.gid .device) i := by
  simp only [spawnJoinDone, hb, releaseWord_waits hr]

/-! ## AMSG (R190, R191, R326) -/

/-- The message that AMSG sends, of `len` bytes from `sp`, with the words of its table entry. -/
def amsgMessage (w : RR) (s : State) (i : Issue) (le lf : List Byte) : Message :=
  let sp := i.rd i.first w.a.toNat
  let m := i.rd i.first (w.a.toNat + 1)
  let len := (m.extractLsb' 0 9).toNat
  let idx := (m.extractLsb' 16 8).toNat
  let core := i.t.coreOf i.c.gid
  { id := s.nextId, slot := i.t.slot, cl := i.t.cl, core := core, dst := i.srcB w i.first,
    prio := (m.extractLsb' 24 2).toNat, idx := idx, entry := BitVec.ofNat 64 (leNat (le.take 8)),
    frame := BitVec.ofNat 64 (leNat (lf.take 8)), table := i.t.hdr.handlers,
    words := leWords (len / 4) (s.spReadRange [{ start := 0, uid := i.c.uid, off := sp.toNat }] 0 len),
    src := BitVec.ofNat 32 (idx + 256 * core + 2 ^ 16 * i.t.cl + 2 ^ 19 * i.t.place + 2 ^ 24 * (len / 4)),
    parked := false, failed := false }

/-- The operands of AMSG are as R191 asks. -/
structure AmsgLegal (w : RR) (s : State) (i : Issue) : Prop where
  high : (i.rd i.first (w.a.toNat + 1)).extractLsb' 26 6 = 0
  mid : (i.rd i.first (w.a.toNat + 1)).extractLsb' 9 7 = 0
  least : 4 ≤ ((i.rd i.first (w.a.toNat + 1)).extractLsb' 0 9).toNat
  most : ((i.rd i.first (w.a.toNat + 1)).extractLsb' 0 9).toNat ≤ 256
  whole : ((i.rd i.first (w.a.toNat + 1)).extractLsb' 0 9).toNat % 4 = 0
  dest : destOk (i.srcB w i.first) = true
  spHigh : (i.rd i.first w.a.toNat).extractLsb' 30 2 = 0
  range : (s.spMarks i.t (i.rd i.first w.a.toNat) ((i.rd i.first (w.a.toNat + 1)).extractLsb' 0 9).toNat).isSome
  aligned : (i.rd i.first w.a.toNat).extractLsb' 0 4 = 0
  table : i.t.hdr.handlers ≠ 0

/-- The body of AMSG after its checks. -/
def amsgBody (w : RR) (s : State) (i : Issue) : Done :=
  let idx := ((i.rd i.first (w.a.toNat + 1)).extractLsb' 16 8).toNat
  let bad : Nat × Word := (cQueue, BitVec.ofNat 32 idx)
  releaseWord i s .device (readWord i s i.t.hdr.handlers 8 .read .plain fun s _ l =>
    if fieldAt l 0 4 = 0 ∨ 256 < fieldAt l 0 4 ∨ fieldAt l 4 4 ≠ 0 ∨ fieldAt l 0 4 ≤ idx then allTrap s bad.1 bad.2
    else
      let slot := i.t.hdr.handlers + BitVec.ofNat 64 (8 + 16 * idx)
      readWord i s slot 8 .read .plain fun s _ le =>
        readWord i s (slot + 8) 8 .read .plain fun s _ lf =>
          if leNat (le.take 8) = 0 then allTrap s bad.1 bad.2
          else if outboundMessages ≤ (s.messages.filter fun x => x.cl == i.t.cl && x.core == i.t.coreOf i.c.gid).length then retry s i
          else nothing { s with messages := s.messages ++ [amsgMessage w s i le lf], nextId := s.nextId + 1 })

/-- An AMSG with legal operands passes its checks. -/
theorem AmsgLegal.amsgDone_eq {w : RR} (h : AmsgLegal w s i) : amsgDone w s i = amsgBody w s i := by
  refine Machine.checked_eq fun x hx => ?_
  simp only [List.mem_cons, List.not_mem_nil, or_false] at hx
  rcases hx with rfl | rfl | rfl | rfl
  · simp only [h.high, h.mid, Nat.not_lt.2 h.least, Nat.not_lt.2 h.most, h.whole, h.dest, bne_self_eq_false, decide_false, Bool.not_true,
      Bool.or_self]
  · simp only [h.spHigh, isNone_of_isSome h.range, bne_self_eq_false, Bool.or_self]
  · simp only [h.aligned, bne_self_eq_false]
  · simpa using h.table

/-- An AMSG whose reads pass and whose index lies in its table sends its message, or waits for room. -/
theorem amsgBody_sends {w : RR} {s3 : State} {p1 p2 p3 : Nat} {le lf : List Byte} (hr : MayRelease s i .device)
    (h1 : s.reads i i.t.hdr.handlers 8 .read .plain = some (s1, p1, l))
    (h2 : s1.reads i (i.t.hdr.handlers + BitVec.ofNat 64 (8 + 16 * ((i.rd i.first (w.a.toNat + 1)).extractLsb' 16 8).toNat)) 8 .read .plain =
      some (s2, p2, le))
    (h3 : s2.reads i (i.t.hdr.handlers + BitVec.ofNat 64 (8 + 16 * ((i.rd i.first (w.a.toNat + 1)).extractLsb' 16 8).toNat) + 8) 8
      .read .plain = some (s3, p3, lf))
    (hi : ((i.rd i.first (w.a.toNat + 1)).extractLsb' 16 8).toNat < fieldAt l 0 4) (hc : fieldAt l 0 4 ≤ 256) (h4 : fieldAt l 4 4 = 0)
    (he : leNat (le.take 8) ≠ 0) :
    amsgBody w s i =
      if 32 ≤ (s3.messages.filter fun x => x.cl == i.t.cl && x.core == i.t.coreOf i.c.gid).length then retry s3 i
      else nothing { s3 with messages := s3.messages ++ [amsgMessage w s3 i le lf], nextId := s3.nextId + 1 } := by
  rw [amsgBody, releaseWord_eq hr, readWord_reads h1]
  have hn : ¬ (fieldAt l 0 4 = 0 ∨ 256 < fieldAt l 0 4 ∨ fieldAt l 4 4 ≠ 0 ∨
      fieldAt l 0 4 ≤ ((i.rd i.first (w.a.toNat + 1)).extractLsb' 16 8).toNat) := by omega
  simp only [if_neg hn]
  rw [readWord_reads h2, readWord_reads h3, if_neg he]
  rfl

end

/-! ## The words -/

/-- A spawn that gives a status ends. -/
theorem ends_spawnGive {w : RM} {word : Instr} {body : State → Issue → Done} {s st : State} {i : Issue} {x : Word}
    (hx : ∀ s, exec word s = issueWith word.view anyLit asIs body s) (h : InHand word anyLit asIs s i)
    (hb : body s i = spawnGive w st x) : Ends word asIs s i st { out := fun _ => [(w.d.toNat, x)] } :=
  ends_gives hx h hb

/-- SPAWN and SPAWN_GANG are one body. -/
theorem exec_spawn (gang : Bool) (w : RM) (s : State) :
    exec (if gang then .spawnGang w else .spawn w) s =
      issueWith (if gang then Instr.spawnGang w else .spawn w).view anyLit asIs (spawnDone gang w) s := by
  cases gang <;> rfl

/-- Settles O33: each way a word ends is one of the equations of its body. -/
theorem spawnWords : Obligations.SpawnWords := by
  intro s i
  refine ⟨fun w => ⟨fun gang h => ⟨fun hr => ?_, fun s1 pa l hr h1 => ⟨fun hp => ?_, fun r hp => ⟨fun hu => ?_, fun s2 pa2 hl h2 =>
    ⟨fun hh => ?_, fun hd hh => ⟨fun hb => ?_, fun ha hg => ⟨fun hgang hf => ?_, fun hgang s3 => ⟨fun hs => ?_, fun hs => ?_⟩⟩⟩⟩⟩⟩⟩,
    fun h => ⟨fun hb hr => ?_, fun hb s1 pa l hr h1 => ⟨fun hd => ?_, fun hd => ?_⟩, fun y hb => ⟨fun hy => ?_, fun hy => ?_⟩⟩⟩, fun w => ?_⟩
  · exact retries_of (exec_spawn gang w) h (by rw [spawnDone, releaseWord_waits hr])
  · exact ends_spawnGive (exec_spawn gang w) h (spawnDone_noRecord hr h1 hp)
  · exact ends_spawnGive (exec_spawn gang w) h (spawnDone_unmapped hr h1 hp hu)
  · exact ends_spawnGive (exec_spawn gang w) h (spawnDone_noHeader hr h1 hp h2 hh)
  · exact ends_spawnGive (exec_spawn gang w) h ((spawnDone_record hr h1 hp h2 hh).trans (spawnRecord_refused hb))
  · subst hgang
    have hd' := (spawnDone_record (w := w) hr h1 hp h2 hh).trans (spawnRecord_gang ha hg hf)
    intro x
    split <;> rename_i hx
    · exact ends_spawnGive (exec_spawn true w) h (by rw [hd', hx])
    · exact ends_spawnGive (exec_spawn true w) h (by rw [hd', hx])
  · subst hgang
    exact ends_spawnGive (exec_spawn false w) h (by rw [spawnDone_record hr h1 hp h2 hh, spawnRecord_push ha hg, hs])
  · subst hgang
    exact retries_of (exec_spawn false w) h (by rw [spawnDone_record hr h1 hp h2 hh, spawnRecord_push ha hg, hs])
  · exact retries_of (fun _ => rfl) h (spawnJoinDone_waits hb hr)
  · exact ends_spawnGive (fun _ => rfl) h (by rw [spawnJoinDone_first hb hr h1, if_neg hd])
  · exact stalls_of (fun _ => rfl) h (by rw [spawnJoinDone_first hb hr h1, if_pos hd])
  · exact ends_spawnGive (fun _ => rfl) h (by rw [spawnJoinDone_begun hb, if_neg hy])
  · exact stalls_of (fun _ => rfl) h (by rw [spawnJoinDone_begun hb, if_pos hy])
  · intro sp m dst len idx core slot h hm1 hm2 hl1 hl2 hl3 hd hsp hr1 ha ht
    have hb := AmsgLegal.amsgDone_eq ⟨hm1, hm2, hl1, hl2, hl3, hd, hsp, hr1, ha, ht⟩
    refine ⟨fun hr => retries_of (fun _ => rfl) h (by rw [hb, amsgBody, releaseWord_waits hr]), ?_⟩
    intro s1 p1 l s2 p2 le s3 p3 lf hr h1 h2 h3 hi hc h4 he
    have hs := hb.trans (amsgBody_sends hr h1 h2 h3 hi hc h4 he)
    exact ⟨fun hf => retries_of (fun _ => rfl) h (by rw [hs, if_pos hf]),
      fun hf => ends_nothing (fun _ => rfl) h (by rw [hs, if_neg (Nat.not_le.2 hf)]; rfl)⟩

end Sys2Proof.Machine

/-! PROOFS. A step of the schedule runs what the decoder gives (O56). -/

namespace Sys2Proof.Machine

open Sys2Proof

/-! ## The meaning of a word, by the decoder (R218) -/

/-- The lookup answers for a word what the decoder says of its row. -/
theorem lookWord_eq (w : Word) : lookWord w = (candidate w).map fun i => Entry.make i.view w (exec i) := rfl

/-- A word that decodes is run as its instruction. -/
theorem runOne_decoded {s : State} {c : Cur} {i : Instr} (hc : s.cur = some c) (hd : decodeWord c.word = some i) :
    lookWord.runOne s = exec i s := by
  rw [decodeWord] at hd
  split at hd
  · cases hd
  · rename_i j hj
    split at hd
    · rename_i hl
      cases hd
      simp only [Lookup.runOne, hc, lookWord_eq, hj, Option.map_some]
      exact if_pos hl
    · cases hd

/-- A word that decodes to nothing traps ILLEGAL. -/
theorem runOne_undecoded {s : State} {c : Cur} (hc : s.cur = some c) (hd : decodeWord c.word = none) :
    lookWord.runOne s = .next (s.deliver c (c.allTraps cIllegal c.word)) := by
  rw [decodeWord] at hd
  split at hd
  · rename_i hj
    simp only [Lookup.runOne, hc, lookWord_eq, hj, Option.map_none]
  · rename_i j hj
    split at hd
    · cases hd
    · rename_i hl
      simp only [Lookup.runOne, hc, lookWord_eq, hj, Option.map_some]
      exact if_neg hl

/-! ## A word alone in its set (R206, R207) -/

/-- A word without C is alone in its set. -/
theorem chainFrom_alone {pc : DWord} {words : List Word} {k n : Nat} (h : (words.getD k 0).getLsbD 31 = false) :
    chainFrom pc words (n + 1) k = [{ pc := packetOf pc + BitVec.ofNat 64 (4 * k), word := words.getD k 0 }] := by
  simp only [chainFrom, h, Bool.false_eq_true, false_and, ↓reduceIte]

/-- A word alone in its set breaks no condition of R207. -/
theorem broken_alone (look : Lookup) (width : Nat) (hinged : Bool) {x : Slotted} (h : x.word.getLsbD 31 = false) :
    look.broken width hinged [] [x] = none := by
  simp only [Lookup.broken, View.breaksSet, h, List.isEmpty_nil, Bool.not_true, Bool.and_false, List.any_nil, Bool.or_self,
    Bool.false_eq_true, ↓reduceIte]

/-- A packet whose word at the slot is alone in its set issues that word. -/
theorem issuePacket_alone (look : Lookup) {s : State} {t : Team} {gid : Nat} {g : Group} {pc : DWord} {ts : List Nat}
    {bytes : List Byte} {x : Slotted} (hx : chainFrom pc (leWords 4 bytes) 3 (slotOf pc) = [x]) (h : x.word.getLsbD 31 = false) :
    look.issuePacket s t gid g pc ts bytes =
      look.runOne (s.inHand t.uid gid ts pc ((leWords 4 bytes).getD 3 0) g s.nextId x) := by
  simp only [Lookup.issuePacket, hx, broken_alone look _ _ h]

/-! ## One issue (R31, R34, R376) -/

/-- The number of a team found. -/
theorem State.uid_of_team? {s : State} {uid : Nat} {t : Team} (h : s.team? uid = some t) : t.uid = uid := by
  simpa using List.find?_some h

/-- A group that may issue, with no trap due and its packet's line at hand, issues the packet. -/
theorem issue_packet (look : Lookup) {s : State} {uid gid : Nat} {t : Team} {g : Group} {pc : DWord} {ts : List Nat} {l : CodeLine}
    (ht : s.team? uid = some t) (hg : t.groups[gid]? = some g) (hm : s.mayIssue t gid g = true) (hs : g.issueSubset = some (pc, ts))
    (hd : s.dueTraps uid gid g ts = none) (hl : s.codeLine t gid g pc.toNat = some l) :
    look.issue s uid gid =
      match look.issuePacket ((s.packetBytes t g l pc (g.sameBytes (packetOf pc) ts)).1.beginIssue t gid g pc
          (g.sameBytes (packetOf pc) ts) (s.packetBytes t g l pc (g.sameBytes (packetOf pc) ts)).2) t gid g pc
          (g.sameBytes (packetOf pc) ts) (s.packetBytes t g l pc (g.sameBytes (packetOf pc) ts)).2 with
      | .next s => .next (s.afterIssue t gid g l)
      | o => o := by
  simp only [Lookup.issue, ht, hg, hm, hs, hd, hl, Bool.not_true, Bool.false_eq_true, ↓reduceIte] <;> rfl

/-- A step that the schedule gives to a group. -/
theorem step_issue {s s0 : State} {uid gid : Nat} {rest : List Sched} (h : s.schedule = .issue uid gid :: rest)
    (h0 : s0 = { s with schedule := rest }) : step s = settled (lookWord.issue s0 uid gid) := by
  simp only [step, Lookup.step, h, Lookup.runEntry, h0]

/-- A step that the schedule gives to an operation of the device. -/
theorem step_op {s : State} {i : Instr} {rest : List Sched} (h : s.schedule = .op i :: rest) (hi : i.view = .event) :
    step s = settled (exec i { s with schedule := rest }) := by
  simp only [step, Lookup.step, h, Lookup.runEntry, isOperation, hi, beq_self_eq_true, ↓reduceIte]

/-- Settles O56: the step is unfolded as far as the word in hand, and the lookup is the decoder. -/
theorem stepRunsDecoded : Obligations.StepRunsDecoded := by
  refine ⟨?_, fun s c hc => ⟨fun i => runOne_decoded hc, runOne_undecoded hc⟩, fun s i rest => step_op⟩
  rintro s uid gid rest hsched s0 t g pc ts l s1 bytes word h0 ht hg hm hs hd hl ts' rfl hb rfl hc s2 st rfl hst
  have hstep : step s = settled (match lookWord.runOne st with
      | .next r => .next (r.afterIssue t gid g l)
      | o => o) := by
    rw [step_issue hsched h0, issue_packet lookWord ht hg hm hs hd hl, hb, issuePacket_alone lookWord (chainFrom_alone hc) hc, hst, State.uid_of_team? ht] <;> rfl
  have hcur := congrArg State.cur hst
  refine ⟨fun i hi => ?_, fun hn => ⟨_, hcur, ?_⟩⟩
  · rw [hstep, runOne_decoded hcur hi] <;> rfl
  · rw [hstep, runOne_undecoded hcur hn]
    rfl

end Sys2Proof.Machine

/-! PROOFS. Placement, carves, stealing, priorities, the exit of teams and join records (O43). -/

namespace Sys2Proof.Machine

open Sys2Proof

/-! ## A team at its place (R23, R29) -/

/-- Making a core ready changes cores only. -/
theorem State.prepareCore_keeps {β : Type} (P : State → β) (hP : ∀ s cl n f, P (State.mapCore s cl n f) = P s)
    (s : State) (cl core launch slots sp d : Nat) : P (s.prepareCore cl core launch slots sp d) = P s := by
  have hCarve : P (s.recarve cl core slots sp) = P s := by
    rw [State.recarve]
    split
    · exact hP ..
    · rfl
  rw [State.prepareCore]
  dsimp only
  split
  · rw [hP, hCarve]
  · rw [foldl_keep P _ (fun st n => by split <;> simp only [hP]), hP, hCarve]

/-- A group is added at the end of its team, its threads at the entry with R29's first values. -/
theorem State.addGroup_team? {s : State} {uid : Nat} {t : Team} (q : QRec) (k : Nat) (ht : s.team? uid = some t) :
    ∃ g, g.threads = List.replicate q.hdr.groupWidth (Thread.placed q.hdr q.record.entry) ∧
      (s.addGroup uid q k).team? uid = some { t with groups := t.groups ++ [g] } := by
  have hMap : ∀ (g : Group) (n : Nat),
      State.team? { s.mapTeam uid (fun t => { t with groups := t.groups ++ [g] }) with nextId := n } uid =
        some { t with groups := t.groups ++ [g] } := fun g n =>
    (State.team?_mapTeam s uid (fun t => { t with groups := t.groups ++ [g] }) fun _ => rfl).trans (by rw [ht, Option.map_some])
  simp only [State.addGroup, ht]
  refine ⟨_, ?_, hMap _ _⟩
  split
  · split <;> rfl
  · rfl

/-- Groups added one after another stand in their team in that order. -/
theorem State.addGroups_team? {uid : Nat} (q : QRec) : ∀ (ks : List Nat) {s : State} {t : Team}, s.team? uid = some t →
    ∃ gs : List Group, gs.length = ks.length ∧
      (∀ g ∈ gs, g.threads = List.replicate q.hdr.groupWidth (Thread.placed q.hdr q.record.entry)) ∧
      (ks.foldl (fun s k => s.addGroup uid q k) s).team? uid = some { t with groups := t.groups ++ gs }
  | [], _, t, ht => ⟨[], rfl, by simp, by simpa using ht⟩
  | k :: ks, _, t, ht => by
    obtain ⟨g, hg, hAdd⟩ := State.addGroup_team? q k ht
    obtain ⟨gs, hLen, hgs, hFold⟩ := State.addGroups_team? q ks hAdd
    refine ⟨g :: gs, by rw [List.length_cons, hLen, List.length_cons], List.forall_mem_cons.2 ⟨hg, hgs⟩, ?_⟩
    rw [List.foldl_cons, hFold, List.append_assoc, List.singleton_append]

/-- A team that is appended under a number nothing has is found under it. -/
theorem State.team?_append {s : State} {t : Team} (n : Nat) (h : s.team? t.uid = none) :
    State.team? { s with teams := s.teams ++ [t], nextId := n } t.uid = some t := by
  rw [State.team?] at h ⊢
  rw [List.find?_append, h]
  simp

/-- A placed team stands at its core with its index, its groups and their threads (R23, R29). -/
theorem State.placeTeam_team? {s : State} (cl core : Nat) (q : QRec) (idx : Nat) (h : s.team? s.nextId = none) :
    ∃ t, (s.placeTeam cl core q idx).team? s.nextId = some t ∧ t.cl = cl ∧ t.core = core ∧
      t.launch = q.launch ∧ t.record = q.record ∧ t.tmid = idx ∧ t.groups.length = q.record.groups ∧
      ∀ g ∈ t.groups, g.threads = List.replicate q.hdr.groupWidth (Thread.placed q.hdr q.record.entry) := by
  unfold State.placeTeam
  extract_lets place s₁ s₂ uid team s₃ s₄
  have hKeep : ∀ {β : Type} (P : State → β), (∀ s cl n f, P (State.mapCore s cl n f) = P s) → P s₂ = P s := by
    intro β P hP
    simp only [s₂, s₁]
    split <;> simp only [State.prepareCore_keeps P hP]
  have hId : uid = s.nextId := hKeep State.nextId fun s cl n f => State.mapCore_nextId ..
  have hTeams : s₂.teams = s.teams := hKeep State.teams fun s cl n f => State.mapCore_teams ..
  have hFree : s₂.team? team.uid = none := by
    rw [State.team?, hTeams]
    exact (congrArg s.team? hId).trans h
  obtain ⟨gs, hLen, hgs, hFold⟩ := State.addGroups_team? q (List.range q.record.groups) (State.team?_append (uid + 1) hFree)
  refine ⟨{ team with groups := team.groups ++ gs }, hId ▸ hFold, rfl, rfl, rfl, rfl, rfl, ?_, hgs⟩
  rw [← List.length_range (n := q.record.groups), ← hLen]
  rfl

/-- A record that the spill space does not hold is there at once (R400). -/
theorem State.readBack_unspilled {s : State} {q : QRec} (cl : Nat) (h : q.spillAt = none) : s.readBack cl q = (s, true) := by
  simp only [State.readBack, h]

/-- TEAM_PLACEMENT waits while the record it serves is not read back (R400). -/
theorem State.teamPlacement_waits {s st : State} {cl core : Nat} {q : QRec} (hq : s.served cl = some q)
    (hf : s.fits cl core q.launch q.record q.hdr q.pin = true) (hr : s.readBack cl q = (st, false)) :
    s.teamPlacement cl core = st := by
  simp only [State.teamPlacement, hq, hf, hr, Bool.not_true, Bool.false_eq_true, ↓reduceIte]

/-- TEAM_PLACEMENT of a record that is no gang places its next team (R23). -/
theorem State.teamPlacement_team {s st : State} {cl core : Nat} {q : QRec} (hq : s.served cl = some q)
    (hf : s.fits cl core q.launch q.record q.hdr q.pin = true) (hr : s.readBack cl q = (st, true)) (hg : q.record.gang = false) :
    s.teamPlacement cl core = ((st.placeTeam cl core q q.next).mapRec cl q.id fun q =>
      if q.next + 1 < q.stop then some { q with next := q.next + 1 } else none).releaseDomains := by
  simp only [State.teamPlacement, hq, hf, hr, hg, Bool.not_true, Bool.false_eq_true, ↓reduceIte]

/-- TEAM_PLACEMENT of a gang places all of it (R28). -/
theorem State.teamPlacement_gang {s st st' : State} {cl core : Nat} {q : QRec} (hq : s.served cl = some q)
    (hf : s.fits cl core q.launch q.record q.hdr q.pin = true) (hr : s.readBack cl q = (st, true)) (hg : q.record.gang = true)
    (hAll : (st.placeTeam cl core q q.next).placeAll cl q (q.stop - q.next - 1) (q.next + 1) = some st') :
    s.teamPlacement cl core = (st'.mapRec cl q.id fun _ => none).releaseDomains := by
  simp only [State.teamPlacement, hq, hf, hr, hg, hAll, Bool.not_true, Bool.false_eq_true, ↓reduceIte]

/-! ## Carves (R25) -/

/-- A record is due a core when it has waited 200 us for its carve and none is kept for it. -/
theorem State.carveDue_iff (s : State) (cl : Nat) (q : QRec) :
    s.carveDue cl q = true ↔ (∃ since, (q.id, since) ∈ (s.cluster cl).waits ∧ since + 200000 ≤ s.now) ∧
      ∀ r ∈ (s.cluster cl).reserved, r.record ≠ q.id := by
  simp only [State.carveDue, Config.carveAfter, Bool.and_eq_true, Bool.not_eq_true', List.any_eq_true, List.any_eq_false,
    beq_iff_eq, Prod.exists]
  refine and_congr_left fun _ => ⟨?_, ?_⟩
  · rintro ⟨_, since, hMem, rfl, hTime⟩
    exact ⟨since, hMem, of_decide_eq_true hTime⟩
  · rintro ⟨since, hMem, hTime⟩
    exact ⟨q.id, since, hMem, rfl, decide_eq_true hTime⟩

/-- The core kept for a record is the one with the fewest teams. -/
theorem State.reserveCore_eq {s : State} {cl n : Nat} {q : QRec}
    (h : leastBy (fun n => (s.teamsOn cl n).length) ((List.range 256).filter fun n =>
      !s.coreOut cl n && (q.pin.isNone || q.pin == some n) && !((s.cluster cl).reserved.any fun r => r.core == n)) = some n) :
    s.reserveCore cl q = s.mapCluster cl fun c =>
      { c with reserved := c.reserved ++ [{ core := n, slots := q.record.slots, sp := q.record.sp, record := q.id }] } := by
  simp only [State.reserveCore, Config.coresPerCluster, h]

/-! ## Stealing (R22) -/

/-- What `leastBy` gives is one of the list. -/
theorem mem_of_leastBy {α : Type} {key : α → Nat} : ∀ {l : List α} {x : α}, leastBy key l = some x → x ∈ l
  | a :: l, x, h => by
    rw [leastBy] at h
    split at h
    · cases h
      exact List.mem_cons_self
    · rename_i y hy
      split at h
      · cases h
        exact List.mem_cons_self
      · cases h
        exact List.mem_cons_of_mem _ (mem_of_leastBy hy)

/-- A record that may be stolen stands in the queue of its cluster. -/
theorem State.mem_of_stealable {s : State} {cl c : Nat} {q : QRec} (h : s.stealable cl = some (c, q)) :
    q ∈ (s.cluster c).queue := by
  obtain ⟨_, -, hLevel⟩ := List.exists_of_findSome?_eq_some h
  obtain ⟨c', -, hCluster⟩ := List.exists_of_findSome?_eq_some hLevel
  obtain ⟨_, hLeast, hPair⟩ := Option.map_eq_some_iff.1 hCluster
  cases hPair
  exact List.mem_of_mem_filter (mem_of_leastBy hLeast)

/-- A cluster whose queue holds something is one of the device's. -/
theorem State.cluster_mem_of_queue {s : State} {c : Nat} {q : QRec} (h : q ∈ (s.cluster c).queue) :
    s.cluster c ∈ s.clusters := by
  rw [State.cluster] at h ⊢
  cases hFind : s.clusters.find? fun x => x.num == c with
  | none =>
    rw [hFind] at h
    cases h
  | some x => exact List.mem_of_find?_eq_some hFind

/-- A cluster with an empty queue goes on to steal what may be stolen (R22). -/
theorem State.steal_open {s : State} {cl c : Nat} {q : QRec} (he : (s.cluster cl).queue = []) (h : s.stealable cl = some (c, q)) :
    ¬(!(s.cluster cl).queue.isEmpty ∨ (s.clusters.all fun c => c.queue.isEmpty)) := by
  have hMem := State.mem_of_stealable h
  rintro (hFull | hNone)
  · simp [he] at hFull
  · have hEmpty := List.all_eq_true.1 hNone _ (State.cluster_mem_of_queue hMem)
    rw [List.isEmpty_iff.1 hEmpty] at hMem
    cases hMem

/-- STEAL waits while the record is not read back (R400). -/
theorem State.steal_waits {s st : State} {cl c : Nat} {q : QRec} (he : (s.cluster cl).queue = [])
    (h : s.stealable cl = some (c, q)) (hr : s.readBack c q = (st, false)) : s.steal cl = st := by
  simp only [State.steal, if_neg (State.steal_open he h), h, hr]

/-- STEAL moves `k` indices: the upper half, or the one left (R22). -/
theorem State.steal_moves {s st : State} {cl c k : Nat} {q : QRec} (he : (s.cluster cl).queue = [])
    (h : s.stealable cl = some (c, q)) (hk : k = if q.stop - q.next = 1 then 1 else (q.stop - q.next) / 2)
    (hr : s.readBack c q = (st, true)) :
    s.steal cl =
      { (st.mapRec c q.id fun q' => if k = q.stop - q.next then none else some { q' with stop := q'.stop - k }).mapCluster cl fun x =>
          { x with queue := x.queue ++ [{ q with id := st.nextId, next := q.stop - k, spillAt := none }] } with
        nextId := st.nextId + 1 } := by
  simp only [State.steal, if_neg (State.steal_open he h), h, hr, ← hk]
  rfl

/-! ## Priorities (R21) -/

/-- PRIORITY_RAISE marks the records of its number that have waited more than 1 ms. -/
theorem State.raisePriority_eq (s : State) (cl rid : Nat) : s.raisePriority cl rid = s.mapCluster cl fun c =>
    { c with queue := c.queue.map fun q =>
        if q.id = rid ∧ q.raised = false ∧ q.prio < 3 ∧ q.pushed + 1000000 < s.now then { q with raised := true } else q } := by
  have hRec : ∀ q : QRec, (if q.id = rid then
      some (if !q.raised ∧ q.prio < 3 ∧ q.pushed + Config.raiseAfter < s.now then { q with raised := true } else q) else some q) =
      some (if q.id = rid ∧ q.raised = false ∧ q.prio < 3 ∧ q.pushed + 1000000 < s.now then { q with raised := true } else q) := by
    intro q
    by_cases hId : q.id = rid <;> simp [hId, Config.raiseAfter]
  simp only [State.raisePriority, State.mapRec, hRec, List.filterMap_eq_map']

/-! ## The exit of a team (R17, R18, R447) -/

/-- A team is over when no thread of it is live. -/
theorem Team.over_iff (t : Team) : t.over = true ↔ ∀ g ∈ t.groups, ∀ th ∈ g.threads, th.live = false := by
  simp only [Team.over, List.all_eq_true, Bool.not_eq_true']

/-- The counters that hold an exit are at zero when every command left is of class 2. -/
theorem State.countersZero_iff (s : State) (uid : Nat) : s.countersZero uid = true ↔ ∀ o ∈ s.ops, o.uid = uid → o.cls = 2 := by
  simp [State.countersZero]

/-- TEAM_EXIT frees a team that is over and whose stores are acknowledged; a join block waits for the horizon (R17, R18). -/
theorem State.teamExit_releases {s : State} {t : Team} (ht : s.team? t.uid = some t) (ho : t.over = true)
    (hc : s.countersZero t.uid = true) (ha : s.storesAcked t.uid = true) (he : t.oldestEvent = none)
    (hj : t.record.join = 0 ∨ t.horizon + 2 ≤ s.now) : s.teamExit t.uid = (s.releaseTeam t false).joinExit t := by
  have hGo : ¬(t.record.join ≠ 0 ∧ s.now < t.horizon + Config.skew) := by
    rintro ⟨hBlock, hSoon⟩
    rcases hj with h | h
    · exact hBlock h
    · exact Nat.not_lt.2 h hSoon
  simp only [State.teamExit, ht, ho, hc, ha, he, if_neg hGo, Bool.not_true, Bool.false_eq_true, or_self, ↓reduceIte]

/-- TEAM_EXIT kills a team with an engine event that was not reported (R447). -/
theorem State.teamExit_kills {s : State} {t : Team} {e : EngEvent} {va : DWord} (ht : s.team? t.uid = some t)
    (ho : t.over = true) (hc : s.countersZero t.uid = true) (ha : s.storesAcked t.uid = true)
    (he : t.oldestEvent = some (e, va)) : s.teamExit t.uid = s.killTeam t.uid (if e.pivot then cPivot else cLatchFault) va := by
  simp only [State.teamExit, ht, ho, hc, ha, he, Bool.not_true, Bool.false_eq_true, or_self, ↓reduceIte]

/-- A team without a join block decrements none. -/
theorem State.joinExit_none {t : Team} (s : State) (h : t.record.join = 0) : s.joinExit t = s := if_pos h

/-! ## Join records (R15, R17) -/

/-- A join record refused: its word waits for the status, or the driver is told (R15). -/
def State.refuseJoin (s : State) (j : JoinPush) (reason : Nat) : State :=
  if j.waiter.isSome then s.endJoin j 2
  else (s.endJoin j 2).noteFault j.slot (j.block.toNat + 32) kRefused reason j.source

/-- How the push of a join record ends, by its check. -/
def State.endJoinPush (s : State) (j : JoinPush) (rec : Record) : State :=
  match s.pushChecked j.cl j.slot .joined rec false j.source (.join j.id) with
  | .done st => st.endJoin j 1
  | .refused st reason => st.refuseJoin j reason
  | .held st => if st.faults.any fun f => f.who.contains (.join j.id) then st.parkJoin j else st

section
variable {s : State} {j : JoinPush} {pa bits : Nat} {e : TlbEntry}

/-- JOIN_RECORD_PUSH of a block that holds no record refuses it. -/
theorem State.joinRecordPush_unparsed (hj : s.joins.find? (fun x => x.id == j.id) = some j) (hp : j.parked = false)
    (ho : j.owed = false) (hf : j.failed = false)
    (ht : s.translate (s.slot j.slot) (j.block.toNat + 32) .read = .ok pa bits e)
    (hr : Record.parse ((s.tlbFill e).sliceRead pa 32).2 = none) :
    s.joinRecordPush j.id = ((s.tlbFill e).sliceRead pa 32).1.refuseJoin j 1 := by
  simp only [State.joinRecordPush, hj, hp, ho, hf, ht, hr, Bool.false_eq_true, ↓reduceIte, State.refuseJoin]

/-- JOIN_RECORD_PUSH of a block that holds a record checks and pushes it. -/
theorem State.joinRecordPush_parsed {rec : Record} (hj : s.joins.find? (fun x => x.id == j.id) = some j) (hp : j.parked = false)
    (ho : j.owed = false) (hf : j.failed = false)
    (ht : s.translate (s.slot j.slot) (j.block.toNat + 32) .read = .ok pa bits e)
    (hr : Record.parse ((s.tlbFill e).sliceRead pa 32).2 = some rec) :
    s.joinRecordPush j.id = ((s.tlbFill e).sliceRead pa 32).1.endJoinPush j rec := by
  simp only [State.joinRecordPush, hj, hp, ho, hf, ht, hr, Bool.false_eq_true, ↓reduceIte, State.endJoinPush] <;> rfl

end

/-- Settles O43, each operation by the lemmas above on the step it takes. -/
theorem placementEvents : Obligations.PlacementEvents := by
  unfold Obligations.PlacementEvents
  refine ⟨fun s cl core q hq hf => ⟨State.readBack_unspilled cl, ?_, ?_, ?_, State.placeTeam_team? cl core q q.next⟩,
    fun s cl => ⟨rfl, fun q => ⟨s.carveDue_iff cl q, fun n => State.reserveCore_eq⟩⟩,
    fun s cl c q he h k hk => ⟨?_, ?_⟩, fun s cl rid => congrArg Host.Outcome.next (s.raisePriority_eq cl rid), ?_, ?_⟩
  · exact fun st hr => congrArg Host.Outcome.next (State.teamPlacement_waits hq hf hr)
  · exact fun st hr hg => congrArg Host.Outcome.next (State.teamPlacement_team hq hf hr hg)
  · exact fun st st' hr hg hAll => congrArg Host.Outcome.next (State.teamPlacement_gang hq hf hr hg hAll)
  · exact fun st hr => congrArg Host.Outcome.next (State.steal_waits he h hr)
  · exact fun st hr => congrArg Host.Outcome.next (State.steal_moves he h hk hr)
  · intro s t ht hLive hOps hAcked
    have hOver := t.over_iff.2 hLive
    have hZero := (s.countersZero_iff t.uid).2 hOps
    refine ⟨fun hNone hJoin => ?_, fun hNone _ hLate => ?_, fun e va hSome => ?_⟩
    · refine congrArg Host.Outcome.next ((State.teamExit_releases ht hOver hZero hAcked hNone (.inl hJoin)).trans ?_)
      exact State.joinExit_none _ hJoin
    · exact congrArg Host.Outcome.next (State.teamExit_releases ht hOver hZero hAcked hNone (.inr hLate))
    · exact congrArg Host.Outcome.next (State.teamExit_kills ht hOver hZero hAcked hSome)
  · intro s j pa bits e hj hp ho hf ht r refuse
    refine ⟨fun hr => ?_, fun rec hr => ?_⟩
    · exact congrArg Host.Outcome.next (State.joinRecordPush_unparsed hj hp ho hf ht hr)
    · exact congrArg Host.Outcome.next (State.joinRecordPush_parsed hj hp ho hf ht hr)

end Sys2Proof.Machine

/-! PROOFS. The operations of a lane: the clause of O44 on DEADLINE_TRAP names each thread's own PC, the model that of the
thread found. The counterexample is a state in which two teams carry one placement number. -/

namespace Sys2Proof.Machine

open Sys2Proof

/-! ## Two teams of one placement number, each with a deadline due -/

/-- The header of the counterexample's kernel: one thread to the group, a vector at 0x1000. -/
def twinHeader : Header :=
  { regs := 1, accs := 0, minSlots := 1, fusion := 0, hingedReq := false, width := 1, absm := false, round := 0, lease := 0,
    spmin := 0, fstm := 0, skeins := 0, trapv := 0x1000, handlers := 0, dspan := 0 }

/-- A record of one group whose team begins at `entry`. -/
def twinRecord (entry : DWord) : Record :=
  { entry := entry, frame := 0, join := 0, slots := 1, hinged := false, width := 1, groups := 1, sp := 0, gang := false,
    prio := 0, count := 1 }

/-- A thread as placed at `pc`, with a DEADLINE pending. -/
def dueThread (pc : DWord) : Thread := { Thread.placed twinHeader pc with dlPend := some 0 }

/-- The group of that one thread. -/
def dueGroup (pc : DWord) : Group :=
  { Group.placed twinHeader (twinRecord pc) 0 0 0 true with threads := [dueThread pc] }

/-- A team of placement number 1 whose one group is due. -/
def dueTeam (pc : DWord) : Team :=
  { uid := 1, launch := 0, slot := 0, cl := 0, core := 0, place := 0, record := twinRecord pc, hdr := twinHeader, tmid := 0,
    groups := [dueGroup pc], scratch := [], gen := 0, latches := [], tiles := [], dlin := 0, amsrc := 0, skeins := [],
    saving := none }

/-- Two teams with the placement number 1, at 0x100 and at 0x200. -/
def twinTeams : State := { State.reset with teams := [dueTeam 0x100, dueTeam 0x200] }

/-- The trap address of the first thread of the second team. -/
def secondTrapa (s : State) : Option DWord :=
  (s.teams[1]?).bind fun t => (t.groups[0]?).bind fun g => (g.threads[0]?).map Thread.trapa

/-- DEADLINE_TRAP saves the PC of the thread it found, also in the second team of that number. -/
theorem secondTrapa_deadlineTrap : secondTrapa (twinTeams.deadlineTrap 1 0 0) = some 0x100 := rfl

/-- DEADLINE_TRAP as O44 words it: every thread saves its own PC. -/
def ownTrapa (s : State) : State :=
  { s.mapGroup 1 0 (fun g => (g.mapThread 0 fun th =>
      Traps twinHeader.trapv 0x0B (BitVec.ofNat 32 (s.now - 0)) th.pc (s.nextId + 1)
        { th with dlPend := none, atEret := false }).afterPops g) with
    nextId := s.nextId + 1 }

/-- There the thread of the second team saves 0x200. -/
theorem secondTrapa_ownTrapa : secondTrapa (ownTrapa twinTeams) = some 0x200 := rfl

/-- Refutes O44, by its clause on DEADLINE_TRAP. The clause binds the saved address to the PC of every thread that
`State.mapGroup` changes, while the model saves the PC of the one thread it found by its number. The two differ in a state
where two teams carry the same placement number, which the clause does not exclude: both threads leave for the handler with
0x100 in `trapa` in the model, the second with 0x200 in the statement. -/
theorem not_laneEvents : ¬ Obligations.LaneEvents := by
  unfold Obligations.LaneEvents
  rintro ⟨-, -, -, -, -, -, hTraps⟩
  have hClause : exec (.deadlineTrap 1 0 0) twinTeams = .next (ownTrapa twinTeams) :=
    (hTraps twinTeams 1 0 0 (dueTeam 0x100) (dueGroup 0x100) (dueThread 0x100) rfl rfl rfl (by decide)).1 0 rfl rfl
  have hNext : twinTeams.deadlineTrap 1 0 0 = ownTrapa twinTeams := Host.Outcome.next.inj hClause
  have hTrapa := congrArg secondTrapa hNext
  rw [secondTrapa_deadlineTrap, secondTrapa_ownTrapa] at hTrapa
  exact absurd hTrapa (by decide)

end Sys2Proof.Machine

/-! PROOFS. Enabling a slot: the clause of O49 gives every slot of the number the fault count and the hypotheses of the one
found, the model leaves each its own. The counterexample is a state that lists one slot number twice. -/

namespace Sys2Proof.Machine

open Sys2Proof

/-! ## Two slots of one number -/

/-- A disabled slot 0 whose fields are legal, with its next fault number. -/
def legalSlot (fault : Nat) : Slot :=
  { Slot.reset 0 with lqsize := 16, cqsize := 16, spsize := 65536, xctl := 1, fbsize := 16, nextFault := fault }

/-- The reset state with a resident team of slot 0 and two slots of that number. -/
def twinSlots : State :=
  { State.reset with
    teams := [{
      uid := 1, launch := 0, slot := 0, cl := 0, core := 0, place := 0
      record := { entry := 0, frame := 0, join := 0, slots := 1, hinged := false, width := 1, groups := 0, sp := 0,
                  gang := false, prio := 0, count := 1 }
      hdr := { regs := 1, accs := 0, minSlots := 1, fusion := 0, hingedReq := false, width := 1, absm := false, round := 0,
               lease := 0, spmin := 0, fstm := 0, skeins := 0, trapv := 0, handlers := 0, dspan := 0 }
      tmid := 0, groups := [], scratch := [], gen := 0, latches := [], tiles := [], dlin := 0, amsrc := 0, skeins := []
      saving := none }]
    slots := [legalSlot 1, legalSlot 5] }

/-- The next fault number of the second slot. -/
def secondFault (s : State) : Option Nat := (s.slots[1]?).map Slot.nextFault

/-- The host's link carries traffic after reset, and the first slot of number 0 may be enabled. -/
theorem twinSlots_enables : twinSlots.hostLink = true ∧ (twinSlots.slot 0).en = false ∧
    twinSlots.slotLegal (twinSlots.slot 0) = true := ⟨rfl, rfl, rfl⟩

/-- Enabling slot 0 leaves the second slot its own fault count. -/
theorem secondFault_slotEnable : secondFault (twinSlots.slotEnable 0) = some 5 := rfl

/-- A slot enabled as O49 words it: with the fault count and the hypotheses of `found`. -/
def Slot.enabledAs (found sl : Slot) : Slot :=
  { sl with en := true, hold := false, err := 0, lqpi := 0, lqci := 0, cqci := 0, cqpi := 0, fbpi := 0, fbci := 0,
            nextFault := found.nextFault, failPages := [], hyps := found.hyps }

/-- There the second slot has the fault count of the first. -/
theorem secondFault_enabledAs :
    secondFault (twinSlots.mapSlot 0 (Slot.enabledAs (twinSlots.slot 0))) = some 1 := rfl

/-- Refutes O49, by its clause on enabling a slot. Where teams of the process are there, the clause gives every slot that
`State.mapSlot` changes the fault count and hypotheses of the slot that `State.slot` finds, while the model leaves each slot
its own. The two differ in a state that lists one slot number twice, which the clause does not exclude: the second slot
keeps its fault count 5 in the model and has the first one's 1 in the statement. -/
theorem not_launchEvents : ¬ Obligations.LaunchEvents := by
  unfold Obligations.LaunchEvents
  rintro ⟨hSlot, -⟩
  obtain ⟨hLink, hOff, hLegal⟩ := twinSlots_enables
  have hEnable := (hSlot twinSlots 0 hLink).1 hOff hLegal
  have hNext : twinSlots.slotEnable 0 = twinSlots.mapSlot 0 (Slot.enabledAs (twinSlots.slot 0)) :=
    Host.Outcome.next.inj (hEnable : exec (.slotEnable 0) twinSlots = _)
  have hFault := congrArg secondFault hNext
  rw [secondFault_slotEnable, secondFault_enabledAs] at hFault
  exact absurd hFault (by decide)

end Sys2Proof.Machine

/-! PROOFS. The pod ports and the control key (O51). -/

namespace Sys2Proof.Machine

open Sys2Proof

/-! ## Key operations of a master (R436) -/

section
variable {s : State} {m : Master} {f : State → State}

/-- A "key" operation of the holder is carried out. -/
theorem State.withKey_holder (hr : s.reaches m = true) (hk : s.keyHolder = masterCode m) : s.withKey m f = f s := if_pos ⟨hr, hk⟩

/-- A "key" operation of a master that is not reached or does not hold the key is ignored. -/
theorem State.withKey_ignored (h : s.reaches m = false ∨ s.keyHolder ≠ masterCode m) : s.withKey m f = s := by
  refine if_neg fun ⟨hr, hk⟩ => ?_
  rcases h with h | h
  · rw [h] at hr
    exact Bool.false_ne_true hr
  · exact h hk

end

/-! ## Training, and what a port loses (R428) -/

/-- PORT_TRAINED decides a port that trains and whose 50 ms are not over by the wavelengths up (R428). -/
theorem State.portTrained_eq (s : State) (n : Nat) (w : BitVec 16) : s.portTrained n w = s.mapPort n fun p =>
    if p.st = .training ∧ s.now ≤ p.since + 50000000 then
      { p with waves := w, st := if wavesUp w = 16 then .up else if wavesUp w = 15 then .degraded else .down }
    else p := by
  refine congrArg (s.mapPort n) (funext fun p => ?_)
  have hLate : (p.st ≠ .training ∨ p.since + Config.portTraining < s.now) ↔ ¬(p.st = .training ∧ s.now ≤ p.since + 50000000) := by
    rw [not_and_or, Nat.not_le]
    rfl
  rw [if_congr hLate rfl rfl, ite_not]

/-- A port without one of its wavelengths, the one that is up taken away (R428). -/
theorem Port.lose_eq (p : Port) (wave : Nat) : p.lose wave =
    if p.waves.getLsbD wave then
      { p with waves := p.waves &&& ~~~((1 : BitVec 16) <<< wave),
               st := if p.st = .up then .degraded else if p.st = .degraded then .down else p.st }
    else p := by
  cases h : p.waves.getLsbD wave <;> simp [Port.lose, h]

/-- The unit word of each of the 16 ports is one the log writes: of class 7, with the number of the port (R438). -/
theorem unitNamed_portWord : ∀ n < 16,
    unitNamed (portWord n) = some (portWord n) ∧ unitClass (portWord n) = 7 ∧ unitPort (portWord n) = n := by decide

/-- Exhausted retry takes a usable port DOWN and is logged as an uncorrectable event of it (R428, R440). -/
theorem State.retryExhausted_usable {s : State} {n : Nat} (hn : n < 16) (h : (s.port n).usable = true) :
    s.retryExhausted n = (s.portDown n).noteHard (portWord n) 0 := by
  obtain ⟨hName, hClass, hPort⟩ := unitNamed_portWord n hn
  simp only [State.retryExhausted, h, State.uncorrectable, hName, State.strike, State.strikeLink, hClass, hPort, ↓reduceIte,
    ErrorSite.address]

/-- A port that is not usable has no retry to exhaust. -/
theorem State.retryExhausted_unusable {s : State} {n : Nat} (h : (s.port n).usable = false) : s.retryExhausted n = s :=
  if_neg (by simp [h])

/-! ## Wavelengths (R7, R63, R428) -/

section
variable {s : State} {u v : Word} {wave : Nat}

/-- An event that names no unit does nothing. -/
theorem State.waveLost_unnamed (h : unitNamed u = none) : s.waveLost u wave = s := by
  simp only [State.waveLost, h]

/-- A wavelength that is not up cannot be lost. -/
theorem State.waveLost_down (h : unitNamed u = some v) (hw : s.waveUp v wave = false) : s.waveLost u wave = s := by
  simp only [State.waveLost, h, hw, Bool.false_eq_true, ↓reduceIte]

/-- The loss of a wavelength that is up is an uncorrectable event of its unit. -/
theorem State.waveLost_up (h : unitNamed u = some v) (hw : s.waveUp v wave = true) :
    s.waveLost u wave = (s.loseWave v wave).noteHard v 0 := by
  simp only [State.waveLost, h, hw, ↓reduceIte]

/-- The wavelengths of a port. -/
theorem State.waveUp_port (h : unitClass v = 7) : s.waveUp v wave = (s.port (unitPort v)).waves.getLsbD wave := if_pos h

/-- A crossbar channel has 8 wavelengths, of which those not noted as lost are up (R7, R63). -/
theorem State.waveUp_channel (h : unitClass v = 6) : s.waveUp v wave = true ↔ wave < 8 ∧ (v.toNat, wave) ∉ s.lostWaves := by
  have hLt : decide (wave < channelWaves) = decide (wave < 8) := rfl
  simp [State.waveUp, h, hLt]

/-- A unit that is no port and no crossbar channel has no wavelength. -/
theorem State.waveUp_other (h6 : unitClass v ≠ 6) (h7 : unitClass v ≠ 7) : s.waveUp v wave = false := by
  simp [State.waveUp, h6, h7]

/-- A port loses a wavelength that is up. -/
theorem State.loseWave_port (h : unitClass v = 7) (hw : s.waveUp v wave = true) :
    s.loseWave v wave = s.mapPort (unitPort v) fun p => p.lose wave := by
  simp only [State.loseWave, hw, h, Bool.not_true, Bool.false_eq_true, ↓reduceIte]

/-- A crossbar channel's loss of a wavelength that is up is noted. -/
theorem State.loseWave_channel (h : unitClass v = 6) (hw : s.waveUp v wave = true) :
    s.loseWave v wave = { s with lostWaves := (v.toNat, wave) :: s.lostWaves } := by
  simp [State.loseWave, hw, h]

end

/-! ## The key over the Arpex port (R435) -/

section
variable {s : State}

/-- KEY_TAKE of a powered device. -/
theorem State.arpexTake_powered (h : s.boot.powered = true) :
    s.arpexTake = if s.keyHolder = 0 then (s.giveKey .arpex).arpexAnswer 0 [] else s.arpexAnswer 1 [] := by
  simp only [State.arpexTake, h, Bool.not_true, Bool.false_eq_true, ↓reduceIte]

/-- A command that needs the key, of a powered device. -/
theorem State.arpexKeyed_powered (f : State → State) (h : s.boot.powered = true) :
    s.arpexKeyed f = if s.keyHolder = 2 then (f s).arpexAnswer 0 [] else s.arpexAnswer 2 [] := by
  simp only [State.arpexKeyed, h, Bool.not_true, Bool.false_eq_true, ↓reduceIte]

/-- STATUS of a powered device. -/
theorem State.arpexStatus_powered (h : s.boot.powered = true) :
    s.arpexStatus = s.arpexAnswer 0 [s.keyHolder, s.secondsLeft, s.bootStat, s.gstat] := if_neg (by simp [h])

/-- Without power the Arpex port answers nothing. -/
theorem State.arpex_unpowered (h : s.boot.powered = false) :
    s.arpexTake = s ∧ (∀ f, s.arpexKeyed f = s) ∧ s.arpexStatus = s := by
  have hOff : (!s.boot.powered) = true := by rw [h]; rfl
  exact ⟨if_pos hOff, fun _ => if_pos hOff, if_pos hOff⟩

/-! ## KEYCTL and the end of the key (R436) -/

/-- KEYCTL while the host's link is down. -/
theorem State.keyctl_linkDown (op : Nat) (h : s.hostLink = false) : s.keyctl op = s := if_pos (by simp [h])

/-- KEYCTL = 1 takes a key that is free. -/
theorem State.keyctl_take (h : s.hostLink = true) : s.keyctl 1 = if s.keyHolder = 0 then s.giveKey .host else s := by
  simp only [State.keyctl, h, Bool.not_true, Bool.false_eq_true, ↓reduceIte]
  match s.keyHolder with
  | 0 => rfl
  | _ + 1 => rfl

/-- KEYCTL = 2 frees the host's key. -/
theorem State.keyctl_release (h : s.hostLink = true) : s.keyctl 2 = if s.keyHolder = 1 then s.freeKey else s := by
  simp only [State.keyctl, h, Bool.not_true, Bool.false_eq_true, ↓reduceIte]
  match s.keyHolder with
  | 0 => rfl
  | 1 => rfl
  | _ + 2 => rfl

/-- KEYCTL = 3 renews the host's key. -/
theorem State.keyctl_renew (h : s.hostLink = true) : s.keyctl 3 = if s.keyHolder = 1 then s.giveKey .host else s := by
  simp only [State.keyctl, h, Bool.not_true, Bool.false_eq_true, ↓reduceIte]
  match s.keyHolder with
  | 0 => rfl
  | 1 => rfl
  | _ + 2 => rfl

/-- Outside recovery a key whose time has run out is free, whoever took it. -/
theorem State.keyHolder_expired (hr : s.boot.recovery = false) (ht : s.key.expires ≤ s.now) : s.keyHolder = 0 := by
  simp only [State.keyHolder, hr, ht, Bool.false_eq_true, ↓reduceIte]

/-- KEY_EXPIRY frees a held key whose time has run out. -/
theorem State.keyExpiry_due (hr : s.boot.recovery = false) (hh : s.key.holder ≠ 0) (ht : s.key.expires ≤ s.now) :
    s.keyExpiry = s.freeKey := if_pos ⟨by simp [hr], hh, ht⟩

/-- KEY_EXPIRY leaves a key of recovery, a free one and one with time left. -/
theorem State.keyExpiry_early (h : s.boot.recovery = true ∨ s.key.holder = 0 ∨ s.now < s.key.expires) : s.keyExpiry = s := by
  refine if_neg fun ⟨hr, hh, ht⟩ => ?_
  rcases h with h | h | h
  · simp [h] at hr
  · exact hh h
  · exact Nat.not_lt.2 ht h

end

/-- Settles O51, clause by clause: the changes of a port, its wavelengths, the key over each of its two ways, its end. -/
theorem portAndKeyEvents : Obligations.PortAndKeyEvents := by
  unfold Obligations.PortAndKeyEvents
  refine ⟨fun s n f => ⟨fun h => if_pos h, fun h => if_neg h⟩, fun s m n => ⟨fun hr hk => ⟨?_, ?_⟩, fun h => ⟨?_, ?_⟩⟩,
    fun s n w => ⟨?_, rfl, fun h => ?_, fun h => ?_, fun hn h => ?_, fun h => ?_⟩,
    fun s u wave => ⟨fun h => ?_, fun v hv => ⟨fun h6 h7 => ?_, fun h6 h => ?_, fun h6 h8 hl => ?_, fun h7 h => ?_, fun h7 h => ?_⟩⟩,
    fun s hp => ⟨fun h => ?_, fun h => ?_, fun h => ?_, fun h => ?_, fun h => ⟨?_, ?_⟩, ?_⟩, fun s hp => ?_,
    fun s hl => ⟨fun h => ?_, fun h => ?_, fun h => ⟨?_, ?_⟩, fun h => ⟨?_, ?_⟩⟩, fun s hl => ⟨?_, ?_, ?_⟩,
    fun s => ⟨fun hr hh ht => ⟨State.keyHolder_expired hr ht, ?_⟩, fun h => ?_⟩⟩
  · exact congrArg Host.Outcome.next (State.withKey_holder hr hk)
  · exact congrArg Host.Outcome.next (State.withKey_holder hr hk)
  · exact congrArg Host.Outcome.next (State.withKey_ignored h)
  · exact congrArg Host.Outcome.next (State.withKey_ignored h)
  · exact congrArg Host.Outcome.next (s.portTrained_eq n w)
  · exact congrArg Host.Outcome.next (if_pos h)
  · exact congrArg Host.Outcome.next (if_neg (by simp [h]))
  · exact congrArg Host.Outcome.next (State.retryExhausted_usable hn h)
  · exact congrArg Host.Outcome.next (State.retryExhausted_unusable h)
  · exact congrArg Host.Outcome.next (State.waveLost_unnamed h)
  · exact congrArg Host.Outcome.next (State.waveLost_down hv (State.waveUp_other h6 h7))
  · have hDown : s.waveUp v wave = false := by
      rw [Bool.eq_false_iff, Ne, State.waveUp_channel h6]
      rintro ⟨h8, hl⟩
      exact h.elim (fun h => Nat.not_lt.2 h h8) hl
    exact congrArg Host.Outcome.next (State.waveLost_down hv hDown)
  · have hUp := (State.waveUp_channel (s := s) h6).2 ⟨h8, hl⟩
    exact congrArg Host.Outcome.next ((State.waveLost_up hv hUp).trans (by rw [State.loseWave_channel h6 hUp]))
  · exact congrArg Host.Outcome.next (State.waveLost_down hv ((State.waveUp_port h7).trans h))
  · have hUp := (State.waveUp_port (s := s) h7).trans h
    refine congrArg Host.Outcome.next ((State.waveLost_up hv hUp).trans ?_)
    rw [State.loseWave_port h7 hUp]
    simp only [Port.lose_eq]
  · exact congrArg Host.Outcome.next ((State.arpexTake_powered hp).trans (if_pos h))
  · exact congrArg Host.Outcome.next ((State.arpexTake_powered hp).trans (if_neg h))
  · exact congrArg Host.Outcome.next ((State.arpexKeyed_powered _ hp).trans (if_pos h))
  · exact congrArg Host.Outcome.next ((State.arpexKeyed_powered _ hp).trans (if_pos h))
  · exact congrArg Host.Outcome.next ((State.arpexKeyed_powered _ hp).trans (if_neg h))
  · exact congrArg Host.Outcome.next ((State.arpexKeyed_powered _ hp).trans (if_neg h))
  · exact congrArg Host.Outcome.next (State.arpexStatus_powered hp)
  · obtain ⟨hTake, hKeyed, hStatus⟩ := State.arpex_unpowered hp
    exact ⟨congrArg Host.Outcome.next hTake, congrArg Host.Outcome.next (hKeyed _), congrArg Host.Outcome.next (hKeyed _),
      congrArg Host.Outcome.next hStatus⟩
  · exact congrArg Host.Outcome.next ((State.keyctl_take hl).trans (if_pos h))
  · exact congrArg Host.Outcome.next ((State.keyctl_take hl).trans (if_neg h))
  · exact congrArg Host.Outcome.next ((State.keyctl_release hl).trans (if_pos h))
  · exact congrArg Host.Outcome.next ((State.keyctl_renew hl).trans (if_pos h))
  · exact congrArg Host.Outcome.next ((State.keyctl_release hl).trans (if_neg h))
  · exact congrArg Host.Outcome.next ((State.keyctl_renew hl).trans (if_neg h))
  · exact congrArg Host.Outcome.next (State.keyctl_linkDown 1 hl)
  · exact congrArg Host.Outcome.next (State.keyctl_linkDown 2 hl)
  · exact congrArg Host.Outcome.next (State.keyctl_linkDown 3 hl)
  · exact congrArg Host.Outcome.next (State.keyExpiry_due hr hh ht)
  · exact congrArg Host.Outcome.next (State.keyExpiry_early h)

end Sys2Proof.Machine

/-! PROOFS. Copies, retirement, prefetch, skeins and peer words (O46). -/

namespace Sys2Proof.Machine

open Sys2Proof

/-! ## Copy commands and their parts (R65, R132, R316) -/

section
variable {s : State} {o : EngOp}

/-- It is the turn of a queued command in the copy queue of its core, and fewer than 8 run (R132). -/
structure CopyTurn (s : State) (o : EngOp) : Prop where
  op : s.op? o.id = some o
  cls : o.cls = 0
  stage : o.stage = .queued
  parked : o.parked = false
  saved : o.saved = false
  room : ((s.copyQueue o.cl o.core).filter fun x => x.stage == .running).length < 8
  first : (s.copyQueue o.cl o.core).find? (fun x => x.stage == .queued && !x.parked) = some o

/-- No guard of COPY_COMMAND_START stops a command whose turn it is. -/
theorem CopyTurn.unguarded (h : CopyTurn s o) :
    ¬(o.cls ≠ 0 ∨ o.stage ≠ .queued ∨ o.parked ∨ o.saved
      ∨ 8 ≤ ((s.copyQueue o.cl o.core).filter fun x => x.stage == .running).length
      ∨ (((s.copyQueue o.cl o.core).find? fun x => x.stage == .queued && !x.parked).map (·.id)) ≠ some o.id) := by
  simp [h.cls, h.stage, h.parked, h.saved, h.room, h.first]

/-- A copy of bytes starts. -/
theorem CopyTurn.start_copy {out : Bool} {va : DWord} {sp : List Mark} {left : List Nat} (h : CopyTurn s o)
    (hb : o.body = .copy out va sp left) : s.startCopy o.id = s.mapOp o.id fun o => { o with stage := .running } := by
  simp only [State.startCopy, h.op, if_neg h.unguarded, hb]

/-- A copy of a box starts, its handle and addresses checked unless they are (R57, R58). -/
theorem CopyTurn.start_tile {b : TileCmd} {left : List Nat} (h : CopyTurn s o) (hb : o.body = .tile b left) :
    s.startCopy o.id =
      if b.handle.isSome then s.mapOp o.id fun o => { o with stage := .running } else s.startTile o b := by
  simp only [State.startCopy, h.op, if_neg h.unguarded, hb]

/-- A command that runs, is not held and not saved is at work. -/
theorem EngOp.working_of (hs : o.stage = .running) (hp : o.parked = false) (hv : o.saved = false) : o.working = true := by
  simp [EngOp.working, hs, hp, hv]

section
variable {out : Bool} {va : DWord} {sp : List Mark} {left : List Nat} {p : Nat}

/-- COPY_PART of a part that is left waits while the network it must cross is DOWN (log 30). -/
theorem State.copyStep_copy (ho : s.op? o.id = some o) (hw : o.working = true) (hb : o.body = .copy out va sp left) (hp : p ∈ left) :
    s.copyStep o.id p = if s.cutOff o sp then s else s.copyPart o out va sp left p := by
  cases hc : s.cutOff o sp <;> simp [State.copyStep, ho, hw, hb, hp, hc]

/-- A part whose place is gone is dropped (R53, R316). -/
theorem State.copyPart_gone (h : s.spAlive sp (16 * p) = false) : s.copyPart o out va sp left p =
    s.partLost o.id (left.erase p) (.copy out va sp (left.erase p)) := if_pos (by simp [h])

/-- A part into scratchpad is loaded, written and counted (R316). -/
theorem State.copyPart_in (h : s.spAlive sp (16 * p) = true) : s.copyPart o false va sp left p =
    match s.engLoad o (va.toNat + 16 * p) 16 with
    | .ok r => ((r.1.engSpWrite o sp (16 * p) r.2).dropShot o.id ((va.toNat + 16 * p) / 128)
        ((left.erase p).map fun q => va.toNat + 16 * q)).partDone o.id 16 (left.erase p) (.copy false va sp (left.erase p))
    | .error st => st := by
  refine ((if_neg (by simp [h])).trans (if_neg Bool.false_ne_true)).trans ?_
  rcases s.engLoad o (va.toNat + 16 * p) 16 with st | r <;> rfl

/-- A part out of scratchpad drains the stores it overlaps, waits for them, and is written where it translates (R92, R316). -/
theorem State.copyPart_out (h : s.spAlive sp (16 * p) = true) : s.copyPart o true va sp left p =
    (if (s.engDrain o .write 16 [va.toNat + 16 * p]).engHeld o .write 16 [va.toNat + 16 * p] then
      s.engDrain o .write 16 [va.toNat + 16 * p]
    else match (s.engDrain o .write 16 [va.toNat + 16 * p]).engXlate o (va.toNat + 16 * p) .write with
      | .ok pa bits e =>
        let r := ((s.engDrain o .write 16 [va.toNat + 16 * p]).tlbFill e).engSpRead o sp (16 * p) 16
        (r.1.engWrite o pa bits r.2).partDone o.id 16 (left.erase p) (.copy true va sp (left.erase p))
      | x => (s.engDrain o .write 16 [va.toNat + 16 * p]).blockOp o (va.toNat + 16 * p) .write x) :=
  (if_neg (by simp [h])).trans (if_pos rfl)

end

/-- A line of a prefetch at work counts its bytes (R65). -/
theorem State.lineResident_prefetch {va : DWord} {len line : Nat} {left : List Nat} (ho : s.op? o.id = some o)
    (hw : o.working = true) (hb : o.body = .prefetch va len left) (hl : line ∈ left) : s.lineResident o.id line =
    s.partDone o.id (lineBytes va.toNat len line) (left.erase line) (.prefetch va len (left.erase line)) := by
  simp [State.lineResident, ho, hb, hw, hl]

/-! ## Retirement (R92, R314) -/

/-- What a finished command does to its latch as it retires: a counted one that has not arrived arrives (R316). -/
def State.retireArrive (s : State) (o : EngOp) : State :=
  match o.lat with
  | some x => if o.cnt = true ∧ o.arrived = false ∧ o.stop = 0 then s.reachLatch x Latch.arrive else s
  | none => s

/-- A finished command at the head of its counter retires. -/
theorem State.retireOp_head (ho : s.op? o.id = some o) (hf : o.stage = .finished) (hs : o.saved = false)
    (hh : (s.classOps o.uid o.gid o.cls).head? = some o) : s.retireOp o.id =
    { (s.retireArrive o).mapGroup o.uid o.gid (fun g => g.retired o) with
      ops := (s.retireArrive o).ops.filter fun x => x.id != o.id } := by
  simp only [State.retireOp, ho]
  refine (if_neg (by simp [hf, hs, hh])).trans ?_
  unfold State.retireArrive
  cases o.lat with
  | none => rfl
  | some x => simp only [Bool.not_eq_true']

/-- Flags leave the horizon of a group. -/
@[simp] theorem Group.orFlags_fhz (g : Group) (ts : List Nat) (fl : Word) : (g.orFlags ts fl).fhz = g.fhz := by
  unfold Group.orFlags
  split <;> rfl

/-- Flags leave the events of a group. -/
@[simp] theorem Group.orFlags_events (g : Group) (ts : List Nat) (fl : Word) : (g.orFlags ts fl).events = g.events := by
  unfold Group.orFlags
  split <;> rfl

/-- A retired command raises the fence horizon of its group to its latest write (R92). -/
theorem Group.retired_fhz (g : Group) (o : EngOp) : (g.retired o).fhz = max g.fhz o.wrote := by
  unfold Group.retired
  rw [← g.orFlags_fhz o.threads o.flags]
  cases o.body with
  | mloop l => by_cases h : o.stop = 0 <;> simp [Group.wakeCounter, Group.wake, h]
  | _ => rfl

/-- A retired command leaves its event in its group (R323). -/
theorem Group.retired_events (g : Group) (o : EngOp) : (g.retired o).events = g.events ++ o.event := by
  unfold Group.retired
  rw [← g.orFlags_events o.threads o.flags]
  cases o.body with
  | mloop l => by_cases h : o.stop = 0 <;> simp [Group.wakeCounter, Group.wake, h]
  | _ => rfl

end

/-! ## A request at its anchor (R137) -/

/-- A skein request of a resident team is queued, not held, not sent and not served. -/
structure RequestDue (s : State) (o : EngOp) (r : SkeinReq) (t : Team) : Prop where
  op : s.op? o.id = some o
  body : o.body = .skein r
  team : s.team? o.uid = some t
  stage : o.stage = .queued
  parked : o.parked = false
  saved : o.saved = false
  unsent : r.sent = false
  unserved : r.fill = none

/-- The gather that a request opens in a state. -/
def State.openedGather (s : State) (t : Team) (o : EngOp) (r : SkeinReq) : Gather :=
  { launch := t.launch, sk := r.sk, k := r.k, va := r.va, len := r.len,
    deadline := s.now + ((s.skein? t.launch r.sk).map (·.tmo)).getD 0, members := [o.id],
    anchor := s.anchorOf o r, closed := false, held := false, full := false }

section
variable {s : State} {o : EngOp} {r : SkeinReq} {t : Team} {g : Gather}

/-- The request of a skein command. -/
theorem EngOp.request?_of (h : o.body = .skein r) : o.request? = some r := by
  simp only [EngOp.request?, h]

namespace RequestDue

/-- No guard of SKEIN_REQUEST_ARRIVAL stops such a request. -/
theorem unguarded (h : RequestDue s o r t) :
    ¬(o.stage ≠ .queued ∨ o.parked ∨ o.saved ∨ r.sent ∨ r.fill.isSome) := by
  simp [h.stage, h.parked, h.saved, h.unsent, h.unserved]

/-- A request that its group's stores or loads hold waits, drained. -/
theorem arrive_held (h : RequestDue s o r t) (hh : (s.drainRequest o r).requestHeld o r = true) :
    s.skeinArrive o.id = s.drainRequest o r := by
  simp only [State.skeinArrive, h.op, EngOp.request?_of h.body, h.team, if_neg h.unguarded, hh, ↓reduceIte]

variable (h : RequestDue s o r t) (hh : (s.drainRequest o r).requestHeld o r = false)
include h hh

/-- A request that is to be served alone is. -/
theorem arrive_solo (hs : r.solo = true) : s.skeinArrive o.id = (s.drainRequest o r).serveAlone o r := by
  simp only [State.skeinArrive, h.op, EngOp.request?_of h.body, h.team, if_neg h.unguarded, hh, hs, Bool.false_eq_true, ↓reduceIte]

/-- A speculative request is served alone and counted (R162). -/
theorem arrive_speculative (hs : r.solo = false) (hy : o.hyp ≠ 0) :
    s.skeinArrive o.id = (s.drainRequest o r).late t.launch o r := by
  simp only [State.skeinArrive, h.op, EngOp.request?_of h.body, h.team, if_neg h.unguarded, hh, hs, if_pos hy, Bool.false_eq_true,
    ↓reduceIte]

variable (hs : r.solo = false) (hy : o.hyp = 0)
include hs hy

/-- A request joins the open gather of its skein, sequence number and range. -/
theorem arrive_joins (hg : (s.drainRequest o r).gather? t.launch r.sk r.k = some g) (hc : g.closed = false) (hv : g.va = r.va)
    (hl : g.len = r.len) : s.skeinArrive o.id =
    ((((s.drainRequest o r).mapGather g fun _ => { g with members := g.members ++ [o.id] }).mapRequest o.id fun r =>
      { r with sent := true }).fireIfDue { g with members := g.members ++ [o.id] }) := by
  have hOpen : ¬(g.closed ∨ g.va ≠ r.va ∨ g.len ≠ r.len) := by simp [hc, hv, hl]
  simp only [State.skeinArrive, h.op, EngOp.request?_of h.body, h.team, if_neg h.unguarded, hh, hs, hy, hg, if_neg hOpen, ne_eq,
    not_true_eq_false, Bool.false_eq_true, ↓reduceIte]

/-- A request that finds its gather closed, or of another range, is late. -/
theorem arrive_late (hg : (s.drainRequest o r).gather? t.launch r.sk r.k = some g)
    (hc : g.closed = true ∨ g.va ≠ r.va ∨ g.len ≠ r.len) : s.skeinArrive o.id = (s.drainRequest o r).late t.launch o r := by
  simp only [State.skeinArrive, h.op, EngOp.request?_of h.body, h.team, if_neg h.unguarded, hh, hs, hy, hg, if_pos hc, ne_eq,
    not_true_eq_false, Bool.false_eq_true, ↓reduceIte]

/-- A request opens a gather where its anchor has room for one. -/
theorem arrive_opens (hg : (s.drainRequest o r).gather? t.launch r.sk r.k = none)
    (hn : ((s.drainRequest o r).gathers.filter fun g => !g.closed && g.anchor == (s.drainRequest o r).anchorOf o r).length < 64) :
    s.skeinArrive o.id =
      (({ s.drainRequest o r with gathers := (s.drainRequest o r).gathers ++ [(s.drainRequest o r).openedGather t o r] }.mapRequest
        o.id fun r => { r with sent := true }).fireIfDue ((s.drainRequest o r).openedGather t o r)) := by
  simp only [State.skeinArrive, h.op, EngOp.request?_of h.body, h.team, if_neg h.unguarded, hh, hs, hy, hg, Nat.not_le.2 hn, ne_eq,
    not_true_eq_false, Bool.false_eq_true, ↓reduceIte]
  rfl

end RequestDue

/-! ## Gathers (R137, R138) -/

/-- GATHER_TIMEOUT of a gather that is there. -/
theorem State.gatherTimeout_some (hg : s.gather? g.launch g.sk g.k = some g) :
    s.gatherTimeout g.launch g.sk g.k = s.fireIfDue g := by
  simp only [State.gatherTimeout, hg]

/-- A gather that is closed or held does not fire. -/
theorem State.fireIfDue_shut (h : g.closed = true ∨ g.held = true) : s.fireIfDue g = s := if_pos h

/-- A gather is full when it was, or when all members of its skein have come. -/
theorem State.fireIfDue_open {k : Skein} (hc : g.closed = false) (hh : g.held = false) (hk : s.skein? g.launch g.sk = some k) :
    s.fireIfDue g =
      if g.full = true ∨ k.n ≤ g.members.length then (s.mapGather g fun x => { x with full := true }).fire { g with full := true }
      else if g.deadline ≤ s.now then s.fire g else s := by
  simp only [State.fireIfDue, hc, hh, hk, Bool.false_eq_true, or_self, ↓reduceIte, Bool.or_eq_true, decide_eq_true_eq]

/-! ## Fills (R131, R137, R138) -/

/-- A request that has its bytes, of a command that is neither finished nor saved. -/
structure FillDue (s : State) (o : EngOp) (r : SkeinReq) (data : List Byte) : Prop where
  op : s.op? o.id = some o
  body : o.body = .skein r
  fill : r.fill = some data
  stage : o.stage ≠ .finished
  saved : o.saved = false

variable {data : List Byte}

/-- A fill waits while the network of its cluster is DOWN (log 30). -/
theorem FillDue.land_waits (h : FillDue s o r data) (hn : s.netUp o.cl = false) : s.fillLand o.id = s := by
  simp [State.fillLand, h.op, EngOp.request?_of h.body, h.fill, hn]

/-- A fill lands in the scratchpad of a resident team, counted part by part, and ends its command. -/
theorem FillDue.land_resident (h : FillDue s o r data) (hn : s.netUp o.cl = true) (ht : (s.team? o.uid).isSome = true) :
    s.fillLand o.id =
      ((s.engSpWrite o [{ start := 0, uid := o.uid, off := r.off }] 0 data).countParts o data.length).endOp o.id := by
  have hTeam : s.team? o.uid ≠ none := Option.isSome_iff_ne_none.1 ht
  simp [State.fillLand, h.op, EngOp.request?_of h.body, h.fill, h.stage, h.saved, hn, hTeam]

/-- A fill of a team that has gone is discarded and counted. -/
theorem FillDue.land_gone (h : FillDue s o r data) (hn : s.netUp o.cl = true) (ht : s.team? o.uid = none) :
    s.fillLand o.id =
      { s.mapSkein r.launch r.sk (fun k => { k with discarded := k.discarded + 1 }) with
        ops := s.ops.filter fun x => x.id != o.id } := by
  simp [State.fillLand, h.op, EngOp.request?_of h.body, h.fill, h.stage, h.saved, hn, ht]

end

/-! ## Words of a PEER channel (R143) -/

/-- The first word of a PEER out queue is first in the push order of its channel, and its target is not saved. -/
structure PeerTurn (s : State) (uid gid q : Nat) (t : Team) (g : Group) (w : Word) (far : Bool) (rest : List (Word × Bool)) : Prop where
  team : s.team? uid = some t
  group : t.groups[gid]? = some g
  kind : (g.queue q).kind = 5
  words : (g.queue q).words = (w, far) :: rest
  first : s.peerFirst (g.queue q) = true
  unsaved : ∀ x ∈ s.saved, x.1.uid ≠ (g.queue q).target

section
variable {s : State} {uid gid q : Nat} {t : Team} {g : Group} {w : Word} {far : Bool} {rest : List (Word × Bool)}

/-- No guard of PEER_WORD_ARRIVAL stops a word whose turn it is. -/
theorem PeerTurn.unguarded (h : PeerTurn s uid gid q t g w far rest) :
    ¬((g.queue q).kind ≠ 5 ∨ !s.peerFirst (g.queue q) ∨ s.saved.any fun x => x.1.uid == (g.queue q).target) := by
  simpa [h.kind, h.first] using h.unsaved

/-- A word whose target has exited is dropped. -/
theorem PeerTurn.word_dropped (h : PeerTurn s uid gid q t g w far rest) (ht : s.team? (g.queue q).target = none) :
    s.peerWord uid gid q = s.setQueue uid gid q { g.queue q with words := rest, stamps := (g.queue q).stamps.tail } := by
  simp only [State.peerWord, h.team, h.group, h.words, h.unguarded, ht, ↓reduceIte]

/-- A word moves to the in queue bound to its channel, where that has room and can be reached. -/
theorem PeerTurn.word_moves (h : PeerTurn s uid gid q t g w far rest) {k n : Nat} {d : Team} {x : Group}
    (ht : s.team? (g.queue q).target = some d) (hp : d.inPort (g.queue q).channel = some (k, n))
    (hx : (s.setQueue uid gid q { g.queue q with words := rest, stamps := (g.queue q).stamps.tail }).group? d.uid k = some x)
    (hr : (x.queue n).words.length < 64) (hn : d.coreOf k = t.coreOf gid ∨ s.netUp t.cl = true) :
    s.peerWord uid gid q =
      (s.setQueue uid gid q { g.queue q with words := rest, stamps := (g.queue q).stamps.tail }).setQueue d.uid k n
        { x.queue n with words := (x.queue n).words ++ [(w, d.coreOf k != t.coreOf gid)] } := by
  have hOpen : ¬(queueWords ≤ (x.queue n).words.length ∨ (d.coreOf k ≠ t.coreOf gid ∧ !s.netUp t.cl)) := by
    rintro (hFull | ⟨hFar, hDown⟩)
    · exact Nat.not_le.2 hr hFull
    · rcases hn with hn | hn
      · exact hFar hn
      · simp [hn] at hDown
  simp only [State.peerWord, h.team, h.group, h.words, h.unguarded, ht, hp, hx, hOpen, ↓reduceIte]
  rfl

end

/-- Settles O46, each event by the lemmas above on the step it takes. -/
theorem copyAndSkeinEvents : Obligations.CopyAndSkeinEvents := by
  unfold Obligations.CopyAndSkeinEvents
  refine ⟨fun s o ho hc hs hp hv hn hf => ?_, fun s o out va sp left p ho hs hpk hv hb hp => ?_,
    fun s o ho hf hs hh => ⟨?_, fun g => ⟨g.retired_fhz o, g.retired_events o⟩⟩,
    fun s o va len line left ho hb hs hp hv hl => ?_, fun s o r t ho hb ht hs hp hv hu hf => ?_,
    fun s g hg => ⟨fun h => ?_, fun hc hh k hk => ⟨fun h => ?_, fun hf hm => ?_⟩⟩,
    fun s o r data ho hb hf hs hv => ?_, fun s uid gid q t g w far rest ht hg hk hw hp hv => ?_⟩
  · have hTurn : CopyTurn s o := ⟨ho, hc, hs, hp, hv, hn, hf⟩
    refine ⟨fun out va sp left hb => ?_, fun b left hb => ?_⟩
    · exact congrArg Host.Outcome.next (hTurn.start_copy hb)
    · exact congrArg Host.Outcome.next (hTurn.start_tile hb)
  · have hStep := State.copyStep_copy ho (EngOp.working_of hs hpk hv) hb hp
    refine ⟨fun hCut => ?_, fun hCut hGone => ?_, fun hCut hAlive hOut => ?_, fun hCut hAlive hOut => ?_⟩
    · exact congrArg Host.Outcome.next (hStep.trans (if_pos hCut))
    · exact congrArg Host.Outcome.next ((hStep.trans (if_neg (by simp [hCut]))).trans (State.copyPart_gone hGone))
    · subst hOut
      exact congrArg Host.Outcome.next ((hStep.trans (if_neg (by simp [hCut]))).trans (State.copyPart_in hAlive))
    · subst hOut
      exact congrArg Host.Outcome.next ((hStep.trans (if_neg (by simp [hCut]))).trans (State.copyPart_out hAlive))
  · exact congrArg Host.Outcome.next (State.retireOp_head ho hf hs hh)
  · exact congrArg Host.Outcome.next (State.lineResident_prefetch ho (EngOp.working_of hs hp hv) hb hl)
  · have hDue : RequestDue s o r t := ⟨ho, hb, ht, hs, hp, hv, hu, hf⟩
    refine ⟨fun hHeld => ?_, fun hFree => ⟨fun hSolo => ?_, fun hSolo hHyp => ?_, fun hSolo hHyp =>
      ⟨fun g hg hc hva hl => ?_, fun g hg hc => ?_, fun hg hn => ?_⟩⟩⟩
    · exact congrArg Host.Outcome.next (hDue.arrive_held hHeld)
    · exact congrArg Host.Outcome.next (hDue.arrive_solo hFree hSolo)
    · exact congrArg Host.Outcome.next (hDue.arrive_speculative hFree hSolo hHyp)
    · exact congrArg Host.Outcome.next (hDue.arrive_joins hFree hSolo hHyp hg hc hva hl)
    · exact congrArg Host.Outcome.next (hDue.arrive_late hFree hSolo hHyp hg hc)
    · exact congrArg Host.Outcome.next (hDue.arrive_opens hFree hSolo hHyp hg hn)
  · exact congrArg Host.Outcome.next ((State.gatherTimeout_some hg).trans (State.fireIfDue_shut h))
  · exact congrArg Host.Outcome.next ((State.gatherTimeout_some hg).trans ((State.fireIfDue_open hc hh hk).trans (if_pos h)))
  · have hNotFull : ¬(g.full = true ∨ k.n ≤ g.members.length) := by simp [hf, hm]
    exact congrArg Host.Outcome.next
      ((State.gatherTimeout_some hg).trans ((State.fireIfDue_open hc hh hk).trans (if_neg hNotFull)))
  · have hDue : FillDue s o r data := ⟨ho, hb, hf, hs, hv⟩
    exact ⟨fun hn => congrArg Host.Outcome.next (hDue.land_waits hn),
      fun hn ht => congrArg Host.Outcome.next (hDue.land_resident hn ht),
      fun hn ht => congrArg Host.Outcome.next (hDue.land_gone hn ht)⟩
  · have hTurn : PeerTurn s uid gid q t g w far rest := ⟨ht, hg, hk, hw, hp, hv⟩
    exact ⟨fun hd => congrArg Host.Outcome.next (hTurn.word_dropped hd),
      fun k n d x hd hPort hx hRoom hNet => congrArg Host.Outcome.next (hTurn.word_moves hd hPort hx hRoom hNet)⟩

end Sys2Proof.Machine

/-! PROOFS. The words of latch, and WAITC (O29, O30). -/

namespace Sys2Proof.Machine

open Sys2Proof

section
variable {w : RM} {s : State} {i : Issue}

/-! ## Words on a latch of the own team (R125, R322) -/

/-- A minor on a latch with V set goes on. -/
theorem ownLatchWord_valid {lk : Nat} (h : (i.t.latch lk).v = true) (k : Latch → Done) :
    ownLatchWord i s lk k = k (i.t.latch lk) := by
  simp only [ownLatchWord, h, Bool.not_true, Bool.false_eq_true, ↓reduceIte]

/-- INIT with counts that R125 allows starts the latch. -/
theorem latchInitDone_legal (ha : (i.rd i.first w.a.toNat).toNat ≤ 32767) (hb : (i.rd i.first (w.a.toNat + 1)).toNat < 2 ^ 31)
    (hn : (i.rd i.first w.a.toNat).toNat + (i.rd i.first (w.a.toNat + 1)).toNat ≠ 0) :
    latchInitDone w s i = nothing (s.ownLatch i.c.uid w.d.toNat fun l =>
      l.start (i.rd i.first w.a.toNat).toNat (i.rd i.first (w.a.toNat + 1)).toNat) :=
  if_neg (by omega)

/-- EXPECT on a valid latch adds its bytes. -/
theorem latchExpectDone_valid (hn : (i.srcA w i.first).toNat < 2 ^ 31) (hv : (i.t.latch w.d.toNat).v = true) :
    latchExpectDone w s i = nothing (s.ownLatch i.c.uid w.d.toNat fun l => l.addBytes (i.srcA w i.first).toNat) := by
  have hTop : (i.srcA w i.first).getLsbD 31 = false := Nat.testBit_lt_two_pow hn
  simp only [latchExpectDone, hTop, Bool.false_eq_true, ↓reduceIte, ownLatchWord_valid hv]

/-- INVAL of a valid latch. -/
theorem latchInvalDone_valid (hv : (i.t.latch w.d.toNat).v = true) :
    latchInvalDone w s i = nothing (s.ownLatch i.c.uid w.d.toNat fun l => if w.d = 15 then l.reload else { l with v := false }) := by
  simp only [latchInvalDone, ownLatchWord_valid hv]

/-! ## ARRIVE (R45, R83, R125) -/

/-- The trap of an arrival: on lk15 it is a report point. -/
def arrivalTrap (w : RM) (i : Issue) (k : Nat) : Option (Nat × Word) := if w.d = 15 then i.report k else none

/-- An ARRIVE that has released. -/
def arriveBody (w : RM) (s : State) (i : Issue) : Done :=
  { nothing (s.ownLatch i.c.uid w.d.toNat Latch.arrive) with trap := arrivalTrap w i, each := true }

/-- No thread of an arrival traps when no running thread has an enabled flag, or the latch is not lk15. -/
theorem arrivalTrap_none (h : w.d.toNat = 15 → ∀ k ∈ i.c.active, i.report k = none) :
    ∀ k ∈ i.c.active, arrivalTrap w i k = none := by
  intro k hk
  unfold arrivalTrap
  split
  · next hd => exact h (by rw [hd]; rfl) k hk
  · rfl

/-- ARRIVE on a valid latch releases first, when some thread does not trap. -/
theorem latchArriveDone_valid (hi : Issuing s i) (hv : (i.t.latch w.d.toNat).v = true) (h : ∀ k ∈ i.c.active, arrivalTrap w i k = none) :
    latchArriveDone w s i = releaseWord i s (teamClass i.t) (arriveBody w s i) := by
  have hAll : ¬ (i.ts.all fun k => (arrivalTrap w i k).isSome) = true := by
    rw [List.all_eq_true, hi.threads]
    intro hSome
    have hFirst := hSome i.first hi.first_mem
    rw [h i.first hi.first_mem] at hFirst
    cases hFirst
  unfold latchArriveDone
  rw [ownLatchWord_valid hv]
  exact if_neg hAll

/-- An arrival that has released ends. -/
theorem ends_arriveBody {word : Instr} {body : State → Issue → Done} (hx : ∀ s, exec word s = issueWith word.view anyLit asIs body s)
    (hi : InHand word anyLit asIs s i) (hb : body s i = arriveBody w s i) (ht : ∀ k ∈ i.c.active, arrivalTrap w i k = none) :
    Ends word asIs s i (s.ownLatch i.c.uid w.d.toNat Latch.arrive) {} := by
  refine ends_of hx hi (by rw [hb]; rfl) (fun k hk => by rw [hb]; exact ht k hk) ?_ (by rw [hb]; rfl) (by rw [hb]; rfl)
  rw [hb]
  exact apart_res _ _ _ _ _ _ _ _ _ _ fun _ => List.nodup_nil

/-! ## ARRIVE_REMOTE (R127) -/

/-- The message that carries an arrival to its latch. -/
def State.sendArrival (s : State) (x : LatchTarget) : State :=
  { s with latchMsgs := s.latchMsgs ++ [{ id := s.nextId, uid := x.uid, lk := x.lk }], nextId := s.nextId + 1 }

/-- ARRIVE_REMOTE of a well formed reference that names a latch releases first. -/
theorem latchRemoteDone_named {x : LatchTarget} (hr : refIllegal (i.srcA w i.first) = false)
    (hx : s.latchRef i.t (i.srcA w i.first) = some x) :
    latchRemoteDone w s i = releaseWord i s .device (nothing (s.sendArrival x)) := by
  simp only [latchRemoteDone, hr, hx, Bool.false_eq_true, ↓reduceIte]
  rfl

/-! ## WAIT and TEST (R83, R126, R130) -/

/-- WAIT of a group that a completion has released goes on. -/
theorem latchWaitDone_passed (h : i.passes ≠ []) :
    latchWaitDone w s i = nothing (if true ∈ i.passes then s.raiseFfl i.c.uid i.c.gid s.now else s) := by
  have hAny : i.passes.any id = true ↔ true ∈ i.passes := by simp
  simp only [latchWaitDone, if_pos h, hAny]

/-- WAIT on a valid latch without a fault waits for its parity, or goes on. -/
theorem latchWaitDone_valid (h : i.passes = []) (hp : (i.srcA w i.first).toNat < 2) (hv : (i.t.latch w.d.toNat).v = true)
    (hf : (i.t.latch w.d.toNat).f = false) :
    latchWaitDone w s i =
      if (i.t.latch w.d.toNat).ph = (i.srcA w i.first).getLsbD 0 then waitFor s (.latch w.d.toNat ((i.srcA w i.first).getLsbD 0))
      else nothing (if (i.t.latch w.d.toNat).lastDev then s.raiseFfl i.c.uid i.c.gid s.now else s) := by
  have hSmall : (i.srcA w i.first).toNat / 2 = 0 := Nat.div_eq_of_lt hp
  simp only [latchWaitDone, h, hSmall, ownLatchWord_valid hv, hf, ne_eq, not_true_eq_false, Bool.false_eq_true, ↓reduceIte]

/-- TEST of a valid latch without a fault gives its status word. -/
theorem latchTestDone_valid (hv : (i.t.latch w.a.toNat).v = true) (hf : (i.t.latch w.a.toNat).f = false) :
    latchTestDone w s i = { nothing (if (i.t.latch w.a.toNat).anyDev then s.raiseFfl i.c.uid i.c.gid s.now else s) with
      res := fun _ => [(w.d.toNat, (i.t.latch w.a.toNat).status)] } := by
  simp only [latchTestDone, ownLatchWord_valid hv, hf, Bool.false_eq_true, ↓reduceIte]

end

/-- The D field of a word on lk15. -/
theorem latchField_toNat_eq {d : BitVec 6} : d.toNat = 15 ↔ d = 15 := by
  rw [← BitVec.toNat_inj]; rfl

/-- Settles O29: each minor by the equation of its body. -/
theorem latchWords : Obligations.LatchWords := by
  unfold Obligations.LatchWords
  intro w s i
  refine ⟨fun h ha hb hn => ?_, fun h hn hv => ?_, fun h hv hp => ?_, fun h hr x hx => ⟨fun hm => ?_, fun hm => ?_⟩, fun h hp => ?_,
    fun h hp hn hv hf => ⟨fun hne => ?_, fun heq => ?_⟩, fun h hv hf => ?_, fun h hv => ?_⟩
  · exact ends_nothing (fun _ => rfl) h (latchInitDone_legal ha hb hn)
  · exact ends_nothing (fun _ => rfl) h (latchExpectDone_valid hn hv)
  · have hTrap := arrivalTrap_none hp
    have hBody := latchArriveDone_valid h.2.issuing hv hTrap
    exact ⟨fun hm => ends_arriveBody (fun _ => rfl) h (hBody.trans (releaseWord_eq hm _)) hTrap,
      fun hm => retries_of (fun _ => rfl) h (hBody.trans (releaseWord_waits hm _))⟩
  · exact ends_nothing (fun _ => rfl) h ((latchRemoteDone_named hr hx).trans (releaseWord_eq hm _))
  · exact retries_of (fun _ => rfl) h ((latchRemoteDone_named hr hx).trans (releaseWord_waits hm _))
  · exact ends_nothing (fun _ => rfl) h (latchWaitDone_passed hp)
  · exact ends_nothing (fun _ => rfl) h ((latchWaitDone_valid hp hn hv hf).trans (if_neg hne))
  · exact waits_of (fun _ => rfl) h ((latchWaitDone_valid hp hn hv hf).trans (if_pos heq))
  · exact ends_gives (fun _ => rfl) h (latchTestDone_valid hv hf)
  · simp only [latchField_toNat_eq]
    exact ends_nothing (fun _ => rfl) h (latchInvalDone_valid hv)

/-! ## WAITC (R92, R323, R447) -/

section
variable {w : RN} {s : State} {i : Issue}

/-- Operand a of WAITC. -/
def waitcCount (w : RN) (i : Issue) : Word := if w.l then i.lit else i.rd i.first w.a.toNat

/-- WAITC with a count above 255 traps. -/
theorem waitcDone_illegal (h : 255 < (waitcCount w i).toNat) : waitcDone w s i = allTrap s cIllegal i.c.word :=
  if_pos (show (waitcCount w i).toNat / 2 ^ 8 ≠ 0 by omega)

/-- A count that R323 allows passes the check of its range. -/
theorem waitcCount_inRange (h : (waitcCount w i).toNat < 2 ^ 8) : ¬ (waitcCount w i).toNat / 2 ^ 8 ≠ 0 := by omega

section
variable (h : (waitcCount w i).toNat < 2 ^ 8)
include h

/-- WAITC waits while more commands than its count are outstanding. -/
theorem waitcDone_waits (hw : (waitcCount w i).toNat < s.counter i.c.uid i.c.gid w.m.toNat) :
    waitcDone w s i = waitFor (s.mapGroup i.c.uid i.c.gid fun g => g.mapThreads i.ts fun _ th =>
      { th with cover := s.coverBound i w.m.toNat (waitcCount w i).toNat }) (.waitc w.m.toNat) :=
  (if_neg (waitcCount_inRange h)).trans (if_pos hw)

variable (hw : s.counter i.c.uid i.c.gid w.m.toNat ≤ (waitcCount w i).toNat)
include hw

/-- WAITC goes on when no command it covers left an event. -/
theorem waitcDone_passes (he : i.g.coveredEvent w.m.toNat (s.coverBound i w.m.toNat (waitcCount w i).toNat) = none) :
    waitcDone w s i = { nothing s with edit := fun _ th => { th with cover := 0 } } := by
  refine (if_neg (waitcCount_inRange h)).trans ((if_neg (Nat.not_lt.2 hw)).trans ?_)
  unfold waitcCount at he
  rw [he]

/-- WAITC reports the oldest event of the commands it covers. -/
theorem waitcDone_reports {e : EngEvent}
    (he : i.g.coveredEvent w.m.toNat (s.coverBound i w.m.toNat (waitcCount w i).toNat) = some e) :
    waitcDone w s i = allTrap (s.mapGroup i.c.uid i.c.gid fun g => { g with events := g.events.erase e })
      (if e.pivot then cPivot else cLatchFault) e.datum := by
  refine (if_neg (waitcCount_inRange h)).trans ((if_neg (Nat.not_lt.2 hw)).trans ?_)
  unfold waitcCount at he
  rw [he]

end

/-- The literal of WAITC is its count. -/
theorem waitcCount_lit (hv : i.v = (Instr.waitc w).view) (hl : i.v.lit = true) : waitcCount w i = i.c.lit := by
  rw [hv] at hl
  exact if_pos hl

/-- A word whose body traps the whole subset, with its group changed in nothing that a trap looks at. -/
theorem traps_allTrap {word : Instr} {litOk : Issue → Word → Bool} {body : State → Issue → Done} {f : Group → Group} {cause : Nat}
    {datum : Word} (hx : ∀ s, exec word s = issueWith word.view litOk asIs body s) (h : InHand word litOk asIs s i) (hc : CanTrap i)
    (hb : body s i = allTrap (s.mapGroup i.c.uid i.c.gid f) cause datum) (hf : (f i.g).threads = i.g.threads) :
    ∃ s', exec word s = .next s' ∧ TrapLands (s.mapGroup i.c.uid i.c.gid f) s' i fun _ => (cause, datum) := by
  have hTeam : (s.mapGroup i.c.uid i.c.gid f).team? i.c.uid = some (i.t.mapGroup i.c.gid f) := by
    rw [State.team?_mapGroup, h.2.team]; rfl
  have hGroup : (i.t.mapGroup i.c.gid f).groups[i.c.gid]? = some (f i.g) := by
    simp [Team.mapGroup, h.2.group]
  have hLands := traps_of hx h hc (fun _ => (cause, datum)) (by rw [hb]; rfl) (fun k _ _ => by rw [hb]; rfl) (fun _ _ _ _ => rfl)
    (by rw [hb]; exact hTeam) hGroup rfl fun k => by rw [hf]
  rwa [hb] at hLands

/-- A count above 255 traps ILLEGAL: at the decode when it is the literal, in the body when it is a register. -/
theorem waitc_illegal (h : InHand (.waitc w) anyLit asIs s i) (hn : 255 < (waitcCount w i).toNat) (hc : CanTrap i) :
    ∃ s', exec (.waitc w) s = .next s' ∧ TrapLands s s' i fun _ => (cIllegal, i.c.word) := by
  by_cases hl : i.v.lit = true
  · refine ⟨_, ?_, deliver_allTraps_lands h.2.issuing hc cIllegal i.c.word⟩
    have hBad : decide (i.c.lit.toNat < 2 ^ 8) = false := by
      rw [← waitcCount_lit h.1 hl]
      exact decide_eq_false (by omega)
    have hRun := h.2.issuing.run i.v (fun _ x => decide (x.toNat < 2 ^ 8)) asIs (waitcDone w)
    rw [runWord_illegal h.2.issuing (.inr ⟨hl, hBad⟩), h.1] at hRun
    exact hRun
  · have hIn : InHand (.waitc w) (fun _ x => decide (x.toNat < 2 ^ 8)) asIs s i :=
      ⟨h.1, { h.2 with literal := fun hl' => absurd hl' hl }⟩
    have hTrap := traps_allTrap (f := fun g => g) (fun _ => rfl) hIn hc (by rw [State.mapGroup_id]; exact waitcDone_illegal hn) rfl
    rwa [State.mapGroup_id] at hTrap

end

/-- Settles O30: WAITC by the equations of its body. -/
theorem waitcWord : Obligations.WaitcWord := by
  unfold Obligations.WaitcWord
  intro w s i
  refine ⟨fun h hn hc => waitc_illegal h hn hc, fun h hn => ⟨fun hw => ?_, fun hw he => ?_, fun hw hc e he => ?_⟩⟩
  · exact waits_of (fun _ => rfl) h (waitcDone_waits hn hw)
  · have hBody := waitcDone_passes hn hw he
    refine ends_of (fun _ => rfl) h (by rw [hBody]; rfl) (fun _ _ => by rw [hBody]; rfl) ?_ (by rw [hBody]; rfl) (by rw [hBody]; rfl)
    rw [hBody]
    exact apart_res _ _ _ _ _ _ _ _ _ _ fun _ => List.nodup_nil
  · exact traps_allTrap (fun _ => rfl) h hc (waitcDone_reports hn hw he) rfl

end Sys2Proof.Machine

/-! PROOFS. What a home slice does with a write (O57). -/

namespace Sys2Proof.Machine

open Sys2Proof

/-! ## Completion times and write time stamps (R73, R74) -/

/-- A range of some bytes has a sector. -/
theorem sectorsOf_ne_nil (pa : Nat) {n : Nat} (h : n ≠ 0) : sectorsOf pa n ≠ [] := by
  have hPos : pa / 64 ≤ (pa + n - 1) / 64 := Nat.div_le_div_right (by omega)
  simp only [sectorsOf, ne_eq, List.map_eq_nil_iff, List.range_eq_nil]
  omega

/-- The largest of a start value and some others is one of them, and none is larger. -/
theorem foldl_max_spec {α : Type} (f : α → Nat) : ∀ (l : List α) (a : Nat),
    a ≤ l.foldl (fun c x => max c (f x)) a ∧ (∀ x ∈ l, f x ≤ l.foldl (fun c x => max c (f x)) a) ∧
      (l.foldl (fun c x => max c (f x)) a = a ∨ ∃ x ∈ l, l.foldl (fun c x => max c (f x)) a = f x)
  | [], a => ⟨Nat.le_refl a, by simp, .inl rfl⟩
  | y :: l, a => by
    obtain ⟨hStart, hAll, hOne⟩ := foldl_max_spec f l (max a (f y))
    rw [List.foldl_cons]
    refine ⟨by omega, fun x hx => ?_, ?_⟩
    · rcases List.mem_cons.1 hx with rfl | hx
      · omega
      · exact hAll x hx
    · rcases hOne with hOne | ⟨x, hx, hOne⟩
      · by_cases hLe : f y ≤ a
        · exact .inl (by omega)
        · exact .inr ⟨y, List.mem_cons_self, by omega⟩
      · exact .inr ⟨x, List.mem_cons_of_mem y hx, hOne⟩

/-- A completion time is the latest of those of its sectors (R74). -/
theorem State.completion_latest (s : State) (pa : Nat) {n : Nat} (h : n ≠ 0) :
    (∀ sec ∈ sectorsOf pa n, max s.now (s.times sec).expiry ≤ s.completion pa n) ∧
      ∃ sec ∈ sectorsOf pa n, s.completion pa n = max s.now (s.times sec).expiry := by
  obtain ⟨hNow, hAll, hOne⟩ := foldl_max_spec (fun sec => (s.times sec).expiry) (sectorsOf pa n) s.now
  refine ⟨fun sec hsec => Nat.max_le.2 ⟨hNow, hAll sec hsec⟩, ?_⟩
  rcases hOne with hOne | ⟨sec, hsec, hOne⟩
  · obtain ⟨sec, hsec⟩ := List.exists_mem_of_ne_nil _ (sectorsOf_ne_nil pa h)
    have hLe := hAll sec hsec
    exact ⟨sec, hsec, by unfold State.completion; omega⟩
  · exact ⟨sec, hsec, by unfold State.completion; omega⟩

/-- The times of a sector are those that the slices hold. -/
theorem State.times_congr {s t : State} (h : t.sectors = s.sectors) (k : Nat) : t.times k = s.times k := by
  rw [State.times, State.times, h]

theorem State.stampSector_now (s : State) (sec : Nat) : (s.stampSector sec).now = s.now := by
  unfold State.stampSector
  dsimp only
  split <;> rfl

/-- A stamped sector has its completion time as its stamp and keeps its expiry; the others keep their times (R74). -/
theorem State.stampSector_times (s : State) (sec k : Nat) : (s.stampSector sec).times k =
    if k = sec then { s.times k with stamp := max s.now (s.times k).expiry } else s.times k := by
  have hSet : (s.stampSector sec).times k = (s.setTimes { s.times sec with stamp := max s.now (s.times sec).expiry }).times k := by
    unfold State.stampSector
    dsimp only
    split <;> rfl
  rw [hSet, State.times_setTimes, State.times_sector]
  by_cases hk : k = sec
  · rw [if_pos hk, if_pos hk.symm, hk]
  · rw [if_neg hk, if_neg (Ne.symm hk)]

/-- Sectors stamped one after the other; a stamp moves no expiry, so one that comes twice is stamped the same. -/
theorem State.foldl_stampSector_times (k : Nat) : ∀ (l : List Nat) (s : State), (l.foldl State.stampSector s).times k =
    if k ∈ l then { s.times k with stamp := max s.now (s.times k).expiry } else s.times k
  | [], s => by simp
  | sec :: l, s => by
    rw [List.foldl_cons, State.foldl_stampSector_times k l, State.stampSector_times, State.stampSector_now]
    by_cases hk : k = sec <;> by_cases hl : k ∈ l <;> simp [hk, hl]

/-- A stamped range is stamped as R74 says, at its completion time. -/
theorem State.stampRange_stampedAs (s : State) (pa : Nat) {n : Nat} (h : n ≠ 0) :
    s.stampedAs (s.stampRange pa n) pa n (s.completion pa n) :=
  ⟨(s.completion_latest pa h).1, (s.completion_latest pa h).2, fun k => State.foldl_stampSector_times k (sectorsOf pa n) s⟩

theorem State.stampRange_mem (s : State) (pa n : Nat) : (s.stampRange pa n).mem = s.mem :=
  foldl_keep State.mem _ (fun s sec => s.stampSector_mem sec) _ s

/-- Stamps are the times after a write alone. -/
theorem State.stampedAs_of_sectors {s t u : State} {pa n c : Nat} (h : s.stampedAs t pa n c) (e : u.sectors = t.sectors) :
    s.stampedAs u pa n c := by
  obtain ⟨hAll, hOne, hTimes⟩ := h
  exact ⟨hAll, hOne, fun k => (State.times_congr e k).trans (hTimes k)⟩

/-! ## Units that leave the ACC state before a write (R91) -/

/-- `t` is `s` with some ACC units normalised: its times are the same, and so is every byte of no ACC unit. -/
structure State.NormalisedTo (s t : State) : Prop where
  memOk : t.MemOk
  sectors : t.sectors = s.sectors
  now : t.now = s.now
  units : ∀ u ∈ t.accUnits, u ∈ s.accUnits
  bytes : ∀ a, a / 128 ∉ s.accUnits → Memory.read t.mem a = Memory.read s.mem a

theorem State.leaveAcc_normalisedTo {s : State} (h : s.MemOk) (pa n : Nat) : s.NormalisedTo (s.leaveAcc pa n) := by
  obtain ⟨hMem, hUnits, hSectors, hNow, hBytes⟩ := State.normaliseUnits (unitsOf pa n) s h
  refine ⟨hMem, hSectors, hNow, fun u hu => ?_, hBytes⟩
  rw [← hUnits]
  exact (List.mem_filter.1 hu).1

/-- A write stamped after a normalisation is stamped as from before it. -/
theorem State.NormalisedTo.stampedAs {s t u : State} {pa n c : Nat} (h : s.NormalisedTo t) (k : t.stampedAs u pa n c) :
    s.stampedAs u pa n c := by
  have hTimes := State.times_congr h.sectors
  simpa only [State.stampedAs, hTimes, h.now] using k

/-! ## Stores (R74) -/

/-- A store of some bytes, with its ACC units normalised before it. -/
theorem State.commit_eq (s : State) (pa : Nat) {bytes : List Byte} (h : bytes ≠ []) : s.commit pa bytes =
    ({ ((s.leaveAcc pa bytes.length).stampRange pa bytes.length).clearPoison pa bytes.length with
        mem := Memory.writeN (s.leaveAcc pa bytes.length).mem pa bytes }, (s.leaveAcc pa bytes.length).completion pa bytes.length) := by
  unfold State.commit
  dsimp only
  rw [if_neg (by simpa using h)]
  exact congrArg (fun m => (({ State.clearPoison _ _ _ with mem := Memory.writeN m pa bytes } : State), _))
    (State.stampRange_mem (s.leaveAcc pa bytes.length) pa bytes.length)

theorem State.commit_mem (s : State) (pa : Nat) {bytes : List Byte} (h : bytes ≠ []) :
    (s.commit pa bytes).1.mem = Memory.writeN (s.leaveAcc pa bytes.length).mem pa bytes := by
  rw [State.commit_eq s pa h]

section
variable {s : State} {pa : Nat} {bytes : List Byte} (h : s.MemOk) (hb : bytes ≠ [])
include h hb

theorem State.commit_stampedAs : s.stampedAs (s.commit pa bytes).1 pa bytes.length (s.commit pa bytes).2 := by
  have hLen : bytes.length ≠ 0 := by simpa using hb
  rw [State.commit_eq s pa hb]
  exact (State.leaveAcc_normalisedTo h pa bytes.length).stampedAs
    (State.stampedAs_of_sectors (State.stampRange_stampedAs _ pa hLen) rfl)

theorem State.readN_commit : Memory.readN (s.commit pa bytes).1.mem pa bytes.length = bytes := by
  rw [State.commit_mem s pa hb]
  exact Memory.readN_writeN bytes _ pa (State.memOk_leaveAcc h pa bytes.length)

/-- A store leaves every byte outside it, of no ACC unit, as it was. -/
theorem State.read_commit {a : Nat} (ha : a < pa ∨ pa + bytes.length ≤ a) (hu : a / 128 ∉ s.accUnits) :
    Memory.read (s.commit pa bytes).1.mem a = Memory.read s.mem a := by
  have hNorm := State.leaveAcc_normalisedTo h pa bytes.length
  rw [State.commit_mem s pa hb, Memory.read_writeN hNorm.memOk ha, hNorm.bytes a hu]

end

/-! ## Atomics (R304) -/

theorem leBytes_length : ∀ n x : Nat, (leBytes n x).length = n
  | 0, _ => rfl
  | n + 1, x => by rw [leBytes, List.length_cons, leBytes_length n]

theorem leBytes_ne_nil {n : Nat} (h : n ≠ 0) (x : Nat) : leBytes n x ≠ [] := by
  rw [← List.length_pos_iff, leBytes_length]
  omega

/-- An atomic of whole bytes: memory in its form, the stamps, the bytes left, and the bytes outside. -/
theorem State.sliceAtomic_writes {s : State} (h : s.MemOk) (op : AtomOp) (pa : Nat) {size : Nat} (hn : size ≠ 0) (b x : Nat) :
    let r := s.sliceAtomic op pa size b x
    let old := Memory.readN (s.leaveAcc pa size).mem pa size
    r.1.MemOk ∧ s.stampedAs r.1 pa size r.2.2 ∧ r.2.1 = old ∧
      Memory.readN r.1.mem pa size = (op.apply size (leNat old) b x).elim old (fun n => leBytes size n) ∧
      ∀ a, (a < pa ∨ pa + size ≤ a) → a / 128 ∉ s.accUnits → Memory.read r.1.mem a = Memory.read s.mem a := by
  have hNorm := State.leaveAcc_normalisedTo h pa size
  unfold State.sliceAtomic
  dsimp only
  cases op.apply size (leNat (Memory.readN (s.leaveAcc pa size).mem pa size)) b x with
  | none =>
    have hMem := State.stampRange_mem (s.leaveAcc pa size) pa size
    refine ⟨State.memOk_stampRange hNorm.memOk pa size, hNorm.stampedAs (State.stampRange_stampedAs _ pa hn), rfl, ?_, fun a _ hu => ?_⟩
    · exact congrArg (fun m => Memory.readN m pa size) hMem
    · exact (congrArg (fun m => Memory.read m a) hMem).trans (hNorm.bytes a hu)
  | some n =>
    have hBytes := leBytes_ne_nil hn n
    have hLen := leBytes_length size n
    have hStamped := State.commit_stampedAs (pa := pa) hNorm.memOk hBytes
    have hRead := State.readN_commit (pa := pa) hNorm.memOk hBytes
    rw [hLen] at hStamped hRead
    exact ⟨State.memOk_commit hNorm.memOk pa _, hNorm.stampedAs hStamped, rfl, hRead, fun a ha hu =>
      (State.read_commit hNorm.memOk hBytes (by rwa [hLen]) fun hk => hu (hNorm.units _ hk)).trans (hNorm.bytes a hu)⟩

/-! ## Merges (R90) -/

theorem State.sliceMerge_mem (s : State) (pa : Nat) (img : LongAcc) : (s.sliceMerge pa img).1.mem =
    Memory.writeN s.mem pa ((LongAcc.ofImageRaw (Memory.readN s.mem pa 128)).merge img).image :=
  congrArg (fun m => Memory.writeN m pa _) (State.stampRange_mem s pa 128)

theorem State.sliceMerge_stampedAs (s : State) (pa : Nat) (img : LongAcc) :
    s.stampedAs (s.sliceMerge pa img).1 pa 128 (s.sliceMerge pa img).2 :=
  State.stampedAs_of_sectors (State.stampRange_stampedAs s pa (by decide)) rfl

/-- The unit merged into is in the ACC state. -/
theorem State.mem_accUnits_sliceMerge (s : State) (pa : Nat) (img : LongAcc) : pa / 128 ∈ (s.sliceMerge pa img).1.accUnits := by
  unfold State.sliceMerge
  dsimp only
  split
  · next hu => exact List.contains_iff_mem.1 hu
  · exact List.mem_cons_self

theorem LongAcc.merge_ofImageRaw_length (l : List Byte) {img : LongAcc} (h : img.seg.length = 20) :
    ((LongAcc.ofImageRaw l).merge img).image.length = 128 := LongAcc.merge_image_length _ _ (imageSegs_length 20 l) h

/-! ## Stores of the host (R89) -/

theorem State.hostStore_mem (s : State) (hpa : Nat) (data : List Byte) :
    (s.hostStore hpa data).mem = Memory.writeN s.mem (2 ^ 51 + hpa) data := rfl

/-- Settles O57: each write by the lemmas above on its bytes and its times. -/
theorem homeSliceWrites : Obligations.HomeSliceWrites := by
  unfold Obligations.HomeSliceWrites
  refine ⟨fun s t pa bytes c h hb _ he => ?_, fun s t op pa size b x old c h hn _ he => ?_, fun s t pa img c h hi _ _ he => ?_,
    fun s hpa data h => ?_⟩
  · obtain ⟨rfl, rfl⟩ : (s.commit pa bytes).1 = t ∧ (s.commit pa bytes).2 = c := by rw [he]; exact ⟨rfl, rfl⟩
    exact ⟨State.memOk_commit h pa bytes, State.readN_commit h hb, State.commit_stampedAs h hb,
      fun a ha hu => State.read_commit h hb ha hu⟩
  · obtain ⟨hMem, hStamped, hOld, hNew, hRest⟩ := State.sliceAtomic_writes h op pa hn b x
    rw [he] at hMem hStamped hOld hNew hRest
    obtain rfl := hOld
    exact ⟨hMem, hStamped, rfl, hNew, hRest⟩
  · obtain ⟨rfl, rfl⟩ : (s.sliceMerge pa img).1 = t ∧ (s.sliceMerge pa img).2 = c := by rw [he]; exact ⟨rfl, rfl⟩
    have hLen := LongAcc.merge_ofImageRaw_length (Memory.readN s.mem pa 128) hi
    have hRead := Memory.readN_writeN ((LongAcc.ofImageRaw (Memory.readN s.mem pa 128)).merge img).image s.mem pa h
    rw [hLen] at hRead
    refine ⟨?_, s.sliceMerge_stampedAs pa img, s.mem_accUnits_sliceMerge pa img, ?_, fun a ha => ?_⟩
    · rw [State.sliceMerge_mem]
      exact Memory.wf_writeN h
    · rw [State.sliceMerge_mem]
      exact hRead
    · rw [State.sliceMerge_mem]
      exact Memory.read_writeN h (by rwa [hLen])
  · rw [State.hostStore_mem]
    exact ⟨Memory.wf_writeN h, Memory.readN_writeN data s.mem _ h, fun a ha => Memory.read_writeN h ha⟩

end Sys2Proof.Machine

/-! PROOFS. What the host does to the device over its link, and invalidations (O50). -/

namespace Sys2Proof.Machine

open Sys2Proof

section
variable {s : State}

/-- While the link carries traffic an operation of the host takes its effect. -/
theorem State.fromHost_up (h : s.hostLink = true) (f : State → State) : s.fromHost f = f s := if_pos h

/-- So does a step that is one. -/
theorem next_fromHost (h : s.hostLink = true) {f : State → State} {t : State} (e : f s = t) :
    (.next (s.fromHost f) : Host.Outcome State Fault Refusal) = .next t := congrArg _ ((State.fromHost_up h f).trans e)

/-! ## Window 1 and CXL.mem (R394, R395, R398) -/

theorem inDevice_inside {pa n : Nat} (h : pa + n ≤ Config.deviceBytes) : inDevice pa n = n := Nat.min_eq_left (by omega)

theorem inDevice_beyond {pa n : Nat} (h : Config.deviceBytes ≤ pa) : inDevice pa n = 0 := by
  rw [inDevice, Nat.sub_eq_zero_of_le h, Nat.min_zero]

theorem inDevice_across {pa n : Nat} (h : Config.deviceBytes < pa + n) : inDevice pa n = Config.deviceBytes - pa :=
  Nat.min_eq_right (by omega)

/-- A read of bytes of device memory returns them. -/
theorem State.hostRead_inside {pa n : Nat} (h : pa + n ≤ Config.deviceBytes) (hn : n ≠ 0) : s.hostRead pa n =
    { (s.sliceRead pa n).1 with output := (s.sliceRead pa n).1.output ++ [.hostData (s.sliceRead pa n).2 (s.isPoisoned pa n)] } := by
  simp [State.hostRead, inDevice_inside h, hn]

/-- A read beyond the end of device memory returns all ones. -/
theorem State.hostRead_beyond {pa n : Nat} (h : Config.deviceBytes ≤ pa) : s.hostRead pa n =
    { s with output := s.output ++ [.hostData (List.replicate n 0xFF) false] } := by
  simp [State.hostRead, inDevice_beyond h]

/-- A read across the end returns the bytes before it and all ones after it. -/
theorem State.hostRead_across {pa n : Nat} (h : pa < Config.deviceBytes) (hn : Config.deviceBytes < pa + n) : s.hostRead pa n =
    { (s.sliceRead pa (Config.deviceBytes - pa)).1 with
      output := (s.sliceRead pa (Config.deviceBytes - pa)).1.output ++
        [.hostData ((s.sliceRead pa (Config.deviceBytes - pa)).2 ++ List.replicate (n - (Config.deviceBytes - pa)) 0xFF)
          (s.isPoisoned pa (Config.deviceBytes - pa))] } := by
  have hSome : Config.deviceBytes - pa ≠ 0 := by omega
  have hBits : (Config.deviceBytes - pa != 0) = true := by simpa using hSome
  simp only [State.hostRead, inDevice_across hn, if_neg hSome, hBits, Bool.true_and]

theorem State.window1Write_inside {off : Nat} {data : List Byte} (h : off + data.length ≤ s.w1size) :
    s.window1Write off data = s.hostWrite (s.w1base + off) data := if_pos (decide_eq_true h)

theorem State.window1Write_outside {off : Nat} {data : List Byte} (h : s.w1size < off + data.length) : s.window1Write off data = s :=
  if_neg (by simpa [State.inWindow1] using h)

theorem State.window1Read_inside {off n : Nat} (h : off + n ≤ s.w1size) : s.window1Read off n = s.hostRead (s.w1base + off) n :=
  if_pos (decide_eq_true h)

theorem State.window1Read_outside {off n : Nat} (h : s.w1size < off + n) : s.window1Read off n = s :=
  if_neg (by simpa [State.inWindow1] using h)

theorem State.cxlMem_write {pa n : Nat} {data : List Byte} (hl : s.linkCxl = true) (h : pa < Config.deviceBytes) :
    s.cxlMem pa n (some data) = s.hostWrite pa data := if_neg (by simp [hl, h])

theorem State.cxlMem_read {pa n : Nat} (hl : s.linkCxl = true) (h : pa < Config.deviceBytes) :
    s.cxlMem pa n none = s.hostRead pa n := if_neg (by simp [hl, h])

theorem State.cxlMem_outside {pa n : Nat} {data : Option (List Byte)} (h : s.linkCxl = false ∨ Config.deviceBytes ≤ pa) :
    s.cxlMem pa n data = s := if_pos (by simpa using h)

/-! ## AtomicOps (R81, R394, R398) -/

section
variable {a : HostAtomic} {n x y off : Nat} {op : AtomOp}

/-- The three AtomicOps by their size, operation, operand and compare value. -/
theorem HostAtomic.args_eq (h : (a = .fetchAdd n x ∧ op = .add ∧ y = 0) ∨ (a = .swap n x ∧ op = .swap ∧ y = 0) ∨
    (a = .cas n y x ∧ op = .cas)) : HostAtomic.args a = (n, op, x, y) := by
  rcases h with ⟨rfl, rfl, rfl⟩ | ⟨rfl, rfl, rfl⟩ | ⟨rfl, rfl⟩
  all_goals rfl

theorem HostAtomic.sizeOk_iff (h : HostAtomic.args a = (n, op, x, y)) : HostAtomic.sizeOk a = true ↔ n ∈ [4, 8, 16] := by
  simp [HostAtomic.sizeOk, h, or_assoc]

/-- An AtomicOp of a listed size, aligned, in Window 1 and in device memory is performed in place. -/
theorem State.hostAtomic_inside (h : HostAtomic.args a = (n, op, x, y)) (hn : n ∈ [4, 8, 16]) (hd : n ∣ s.w1base + off)
    (hw : off + n ≤ s.w1size) (hm : s.w1base + off + n ≤ Config.deviceBytes) : s.hostAtomic off a =
      { (s.sliceAtomic op (s.w1base + off) n (x % 2 ^ (8 * n)) (y % 2 ^ (8 * n))).1 with
        output := (s.sliceAtomic op (s.w1base + off) n (x % 2 ^ (8 * n)) (y % 2 ^ (8 * n))).1.output ++
          [.hostData (s.sliceAtomic op (s.w1base + off) n (x % 2 ^ (8 * n)) (y % 2 ^ (8 * n))).2.1 (s.isPoisoned (s.w1base + off) n)] } := by
  have hGuard : ¬(!HostAtomic.sizeOk a ∨ (s.w1base + off) % n ≠ 0 ∨ !s.inWindow1 off n) := by
    simp [(HostAtomic.sizeOk_iff h).2 hn, Nat.mod_eq_zero_of_dvd hd, State.inWindow1, hw]
  simp only [State.hostAtomic, h, if_neg hGuard, if_neg (Nat.not_lt.2 hm)]

/-- Any other AtomicOp but one across the end of device memory changes nothing. -/
theorem State.hostAtomic_refused (h : HostAtomic.args a = (n, op, x, y))
    (hr : n ∉ [4, 8, 16] ∨ ¬n ∣ s.w1base + off ∨ s.w1size < off + n) : s.hostAtomic off a = s := by
  have hGuard : !HostAtomic.sizeOk a ∨ (s.w1base + off) % n ≠ 0 ∨ !s.inWindow1 off n := by
    rcases hr with hr | hr | hr
    · exact .inl (by simpa using mt (HostAtomic.sizeOk_iff h).1 hr)
    · exact .inr (.inl fun hz => hr (Nat.dvd_of_mod_eq_zero hz))
    · exact .inr (.inr (by simpa [State.inWindow1] using hr))
  simp only [State.hostAtomic, h, if_pos hGuard]

end

/-! ## Link training, RESUME, answers to faults, VSCFG (R394, R408, R417, R419) -/

theorem State.linkTraining_linkable (cxl cache : Bool) (hp : s.boot.powered = true) (hr : s.boot.recovery = false) :
    s.linkTraining cxl cache =
      { s with linkCxl := cxl, linkCache := cxl && cache, linksDown := s.linksDown.filter (· != unitHost) } :=
  if_pos (by simp [State.hostLinkable, hp, hr])

theorem State.linkTraining_unlinkable (cxl cache : Bool) (h : s.boot.powered = false ∨ s.boot.recovery = true) :
    s.linkTraining cxl cache = s :=
  if_neg (by rcases h with h | h <;> simp [State.hostLinkable, h])

/-- The cluster that a write of RESUME names. -/
def resumeCluster (w : Word) : Nat := (w.extractLsb' 8 3).toNat

/-- The core of it. -/
def resumeNum (w : Word) : Nat := (w.extractLsb' 0 8).toNat

theorem State.resumeCore_halted {w : Word} (h0 : w.extractLsb' 11 21 = 0) (hh : (s.core (resumeCluster w) (resumeNum w)).halted = true)
    (ht : s.power.tripped = false) : s.resumeCore w =
      s.mapCore (resumeCluster w) (resumeNum w) fun c => { c with halted := false, halting := false } := by
  refine if_neg ?_
  rintro (h | h | h)
  · exact h h0
  · have hRuns : (!(s.core (resumeCluster w) (resumeNum w)).halted) = true := h
    rw [hh] at hRuns
    cases hRuns
  · rw [ht] at h
    cases h

theorem State.resumeCore_ignored {w : Word} (h : w.extractLsb' 11 21 ≠ 0 ∨ (s.core (resumeCluster w) (resumeNum w)).halted = false) :
    s.resumeCore w = s := by
  refine if_pos (h.imp_right fun hh => .inl ?_)
  show (!(s.core (resumeCluster w) (resumeNum w)).halted) = true
  rw [hh]; rfl

theorem State.answerFault_named {p id : Nat} {f : FaultPend}
    (h : s.faults.find? (fun f => f.slot == p && f.id == id && f.written && id != 0) = some f) (failed : Bool) :
    s.answerFault p id failed = f.who.foldl (fun s w => s.answerWho id f.page f.kind failed w)
      { s with faults := s.faults.filter fun g => !(g.slot == p && g.id == id) } := by
  simp only [State.answerFault, h]

theorem State.answerFault_unnamed {p id : Nat}
    (h : s.faults.find? (fun f => f.slot == p && f.id == id && f.written && id != 0) = none) (failed : Bool) :
    s.answerFault p id failed = s := by
  simp only [State.answerFault, h]

/-- A domain in which no hypothesis lives counts none. -/
theorem Slot.hypLive_eq_zero {sl : Slot} : sl.hypLive = 0 ↔ ∀ h ∈ sl.hyps, h.st ≠ .live := by
  simp [Slot.hypLive]

theorem State.vscfgWrite_idle {w : Word} (hw : (w.extractLsb' 0 31).toNat ≤ 32)
    (h : ∀ sl ∈ s.slots, ∀ h ∈ sl.hyps, h.st ≠ .live) : s.vscfgWrite w = { s with vscfg := (w.extractLsb' 0 31).toNat, vsRefused := false } := by
  have hNone : ¬ (s.slots.any fun sl => sl.hypLive != 0) = true := by
    simp only [List.any_eq_true, bne_iff_ne, not_exists, not_and, not_not]
    exact fun sl hsl => Slot.hypLive_eq_zero.2 (h sl hsl)
  simp only [State.vscfgWrite, if_neg (Nat.not_lt.2 hw), if_neg hNone]

theorem State.vscfgWrite_live {w : Word} (hw : (w.extractLsb' 0 31).toNat ≤ 32) {sl : Slot} (hsl : sl ∈ s.slots) {h : Hyp}
    (hh : h ∈ sl.hyps) (hl : h.st = .live) : s.vscfgWrite w = { s with vsRefused := true } := by
  have hSome : (s.slots.any fun sl => sl.hypLive != 0) = true :=
    List.any_eq_true.2 ⟨sl, hsl, bne_iff_ne.2 fun h0 => Slot.hypLive_eq_zero.1 h0 h hh hl⟩
  simp only [State.vscfgWrite, if_neg (Nat.not_lt.2 hw), if_pos hSome]

theorem State.vscfgWrite_large {w : Word} (hw : 32 < (w.extractLsb' 0 31).toNat) : s.vscfgWrite w = s := if_pos hw

/-! ## Invalidations (R416) -/

/-- An invalidation of TLBICTL waits behind a running one of TLBICTL, or drops its entries at once. -/
theorem State.addInval_host (s : State) (kind asid va : Nat) :
    let x : Inval := { id := s.nextId, kind := kind, asid := asid, va := va, bound := 0, host := true }
    s.addInval kind asid va true =
      if s.tlbBusy.any (·.host) = true then { s with tlbBusy := s.tlbBusy ++ [x], nextId := s.nextId + 1 }
      else { s with tlb := s.tlb.filter fun e => !e.dropped kind asid va,
                    tlbBusy := (s.tlbBusy ++ [x]).map fun y => if y.id = x.id then { y with bound := s.nextId + 1 } else y,
                    nextId := s.nextId + 2 } := by
  simp only [State.addInval, Bool.true_and]
  rfl

/-- The three words of TLBICTL begin one invalidation each. -/
theorem exec_tlbi (h : s.hostLink = true) {i : Instr} {kind va : Nat} {asid : BitVec 16}
    (hi : (i = .tlbiPage asid ∧ kind = 0 ∧ va = s.tlbiVa.toNat) ∨ (i = .tlbiAsid asid ∧ kind = 1 ∧ va = 0) ∨
      (i = .tlbiAll ∧ kind = 2 ∧ va = 0 ∧ asid = 0)) : exec i s = .next (s.addInval kind asid.toNat va true) := by
  rcases hi with ⟨rfl, rfl, rfl⟩ | ⟨rfl, rfl, rfl⟩ | ⟨rfl, rfl, rfl, rfl⟩
  all_goals exact next_fromHost h rfl

/-- An invalidation that is done and not of TLBICTL lets none begin. -/
theorem State.tlbComplete_own {x : Inval} (h : s.tlbBusy.find? s.invalDone = some x) (hx : x.host = false) :
    s.tlbComplete = { s with tlbBusy := s.tlbBusy.filter fun y => y.id != x.id } := by
  simp only [State.tlbComplete, h, hx, Bool.false_eq_true, ↓reduceIte]
  split <;> rfl

/-- One of TLBICTL that is done lets the next waiting one begin. -/
theorem State.tlbComplete_host {x : Inval} (h : s.tlbBusy.find? s.invalDone = some x) (hx : x.host = true) :
    s.tlbComplete =
      match (s.tlbBusy.filter fun y => y.id != x.id).find? fun y => y.host && y.bound == 0 with
      | some y => ({ s with tlbBusy := s.tlbBusy.filter fun y => y.id != x.id } : State).beginInval y
      | none => { s with tlbBusy := s.tlbBusy.filter fun y => y.id != x.id } := by
  simp only [State.tlbComplete, h, hx, ↓reduceIte] <;> rfl

theorem State.tlbComplete_none (h : s.tlbBusy.find? s.invalDone = none) : s.tlbComplete = s := by
  simp only [State.tlbComplete, h]

end

/-! ## The statement -/

/-- Settles O50: each operation of the host by the equations above. -/
theorem hostEvents : Obligations.HostEvents := by
  unfold Obligations.HostEvents
  refine ⟨fun s off data hl => ⟨fun h => ?_, fun h => ?_⟩, fun s off n hl => ⟨fun h => ?_, fun h => ⟨fun hd hn => ?_, fun hd => ?_,
      fun hd hn => ?_⟩, fun hc hd data => ?_, fun hc hd hn => ?_, fun h data => ?_⟩,
    fun s off n op x y a hl ha => ⟨fun hn hd hw hm => ?_, fun hr => ?_⟩, fun s cxl cache => ⟨fun hp hr => ?_, fun h => ?_⟩,
    fun s hl => ⟨fun w => ⟨fun h0 hh ht => ?_, fun h => ?_⟩, fun p idx => ?_, fun p id f hf => ⟨?_, ?_⟩, fun p id hf => ⟨?_, ?_⟩,
      fun kind asid va i hi => ?_, fun w hw => ⟨fun h => ?_, fun sl hsl h hh hLive => ?_⟩, fun w hw => ?_⟩,
    fun a id x => ⟨rfl, rfl⟩, fun s id uid gid page kind failed => rfl,
    fun s => ⟨fun h => ?_, fun x hx => ⟨fun hh => ?_, fun hh => ?_⟩⟩⟩
  · exact next_fromHost hl (State.window1Write_inside h)
  · exact next_fromHost hl (State.window1Write_outside h)
  · exact next_fromHost hl (State.window1Read_outside h)
  · exact next_fromHost hl ((State.window1Read_inside h).trans (State.hostRead_inside hd hn))
  · exact next_fromHost hl ((State.window1Read_inside h).trans (State.hostRead_beyond hd))
  · exact next_fromHost hl ((State.window1Read_inside h).trans (State.hostRead_across hd hn))
  · exact next_fromHost hl (State.cxlMem_write hc hd)
  · exact next_fromHost hl ((State.cxlMem_read hc (by omega)).trans (State.hostRead_inside hd hn))
  · exact next_fromHost hl (State.cxlMem_outside h)
  · exact next_fromHost hl (State.hostAtomic_inside (HostAtomic.args_eq ha) hn hd hw hm)
  · exact next_fromHost hl (State.hostAtomic_refused (HostAtomic.args_eq ha) hr)
  · exact congrArg Host.Outcome.next (State.linkTraining_linkable cxl cache hp hr)
  · exact congrArg Host.Outcome.next (State.linkTraining_unlinkable cxl cache h)
  · exact next_fromHost hl (State.resumeCore_halted h0 hh ht)
  · exact next_fromHost hl (State.resumeCore_ignored h)
  · exact next_fromHost hl rfl
  · exact next_fromHost hl (State.answerFault_named hf false)
  · exact next_fromHost hl (State.answerFault_named hf true)
  · exact next_fromHost hl (State.answerFault_unnamed hf false)
  · exact next_fromHost hl (State.answerFault_unnamed hf true)
  · exact (exec_tlbi hl hi).trans (congrArg Host.Outcome.next (s.addInval_host kind asid.toNat va))
  · exact next_fromHost hl (State.vscfgWrite_idle hw h)
  · exact next_fromHost hl (State.vscfgWrite_live hw hsl hh hLive)
  · exact next_fromHost hl (State.vscfgWrite_large hw)
  · exact congrArg Host.Outcome.next (State.tlbComplete_none h)
  · exact congrArg Host.Outcome.next (State.tlbComplete_own hx hh)
  · exact congrArg Host.Outcome.next (State.tlbComplete_host hx hh)

end Sys2Proof.Machine

/-! PROOFS. The events of memory (O45). The one of them that can do much is a tagged write that finds no room: it refutes
its hypothesis, which performs other accesses first; the lemmas on `Harmless` say that none of these brings poison to the
write that has been performed. -/

namespace Sys2Proof.Machine

open Sys2Proof

/-! ## What the work of the slices and of the version store leaves of the flights -/

theorem State.normalise_flights (s : State) (pa n : Nat) : (s.normalise pa n).flights = s.flights :=
  foldl_keep State.flights _ (fun s u => (s.normaliseUnit_keeps u).1) _ s

theorem State.commitCells_flights (s : State) (sec : Nat) (l : List Host.Cell) : (s.commitCells sec l).1.flights = s.flights := by
  have hBefore := (State.stampRange_flights (s.leaveAcc (64 * sec) 64) (64 * sec) 64).trans (s.leaveAcc_flights (64 * sec) 64)
  unfold State.commitCells
  dsimp only
  split
  · exact hBefore
  · exact hBefore

theorem State.l1Put_flights (s : State) (cl core : Nat) (x : L1Sector) : (s.l1Put cl core x).flights = s.flights := by
  unfold State.l1Put
  dsimp only
  split <;> simp

/-- A drained entry leaves its acknowledgement at the end of the flights (R70). -/
theorem State.drainOne_flights (s : State) (cl core : Nat) (e : SbEntry) :
    ∃ f : Flight, f.done = true ∧ f.bad = false ∧ (s.drainOne cl core e).flights = s.flights ++ [f] := by
  have hBefore := (State.commitCells_flights (s.gainSectors e.tracked (64 * e.sector) 64) e.sector e.bytes).trans
    (s.gainSectors_keeps e.tracked (64 * e.sector) 64).1
  refine ⟨_, ?_, ?_, congrArg (· ++ [_]) ((State.mapCore_flights _ _ _ _).trans hBefore)⟩
  · rfl
  · rfl

/-- A tagged write within a unit changes versions only (R151). -/
theorem State.tagUnit_flights {s t : State} {slot id pa : Nat} {bytes : List Byte} (h : s.tagUnit slot id pa bytes = some t) :
    t.flights = s.flights := by
  unfold State.tagUnit at h
  dsimp only at h
  split at h
  · cases h
    rfl
  · split at h
    · cases h
    · cases h
      refine foldl_keep State.flights _ ?_ _ s
      exact fun _ _ => rfl

theorem State.tagWrite_flights (s : State) (slot : Nat) (hyp : Word) (pa : Nat) (bytes : List Byte) :
    (s.tagWrite slot hyp pa bytes).1.flights = s.flights := by
  unfold State.tagWrite
  split
  · rfl
  · refine List.foldlRecOn (motive := fun r : State × Bool => r.1.flights = s.flights) _ _ rfl fun r hr u _ => ?_
    dsimp only
    split
    · exact hr
    · split
      · next hUnit => exact (State.tagUnit_flights hUnit).trans hr
      · exact hr

theorem State.tagMerge_flights {s t : State} {slot id pa : Nat} {img : LongAcc} (h : s.tagMerge slot id pa img = some t) :
    t.flights = s.flights := by
  unfold State.tagMerge at h
  dsimp only at h
  split at h
  · cases h
    rfl
  · split at h
    · split at h
      · cases h
        rfl
      · cases h
    · split at h
      · cases h
      · cases h
        rfl

/-! ## A performed access that brings no poison -/

/-- Every flight numbered `k` is performed, and the first of them brings no poison to a register (R439). -/
def Harmless (k : Nat) (l : List Flight) : Prop :=
  (∀ f ∈ l, f.id = k → f.done = true) ∧ ∀ f, l.find? (fun x => x.id == k) = some f → ¬(f.bad = true ∧ f.hasDest = true)

section
variable {k : Nat} {l : List Flight}

/-- Flights that are changed in place, those numbered `k` in nothing that counts. -/
theorem Harmless.map (h : Harmless k l) {g : Flight → Flight} (hid : ∀ x, (g x).id = x.id)
    (hk : ∀ x, x.id = k → x.done = true → (g x).done = true ∧ (g x).bad = x.bad ∧ (g x).what = x.what) : Harmless k (l.map g) := by
  refine ⟨fun y hy hyk => ?_, fun y hy => ?_⟩
  · obtain ⟨x, hx, rfl⟩ := List.mem_map.1 hy
    have hxk : x.id = k := (hid x).symm.trans hyk
    exact (hk x hxk (h.1 x hx hxk)).1
  · have hSame : ((fun x : Flight => x.id == k) ∘ g) = fun x => x.id == k := by
      funext x
      simp only [Function.comp_apply, hid]
    rw [List.find?_map, hSame] at hy
    obtain ⟨x, hx, rfl⟩ := Option.map_eq_some_iff.1 hy
    have hxk : x.id = k := by simpa using List.find?_some hx
    obtain ⟨-, hBad, hWhat⟩ := hk x hxk (h.1 x (List.mem_of_find?_eq_some hx) hxk)
    have hDest : (g x).hasDest = x.hasDest := by rw [Flight.hasDest, Flight.hasDest, hWhat]
    rw [hBad, hDest]
    exact h.2 x hx

/-- A performed flight without poison that comes last. -/
theorem Harmless.append (h : Harmless k l) {f : Flight} (hd : f.done = true) (hb : f.bad = false) : Harmless k (l ++ [f]) := by
  refine ⟨fun y hy hyk => ?_, fun y hy => ?_⟩
  · rcases List.mem_append.1 hy with hy | hy
    · exact h.1 y hy hyk
    · rw [List.mem_singleton.1 hy, hd]
  · rw [List.find?_append] at hy
    rcases Option.or_eq_some_iff.1 hy with hy | ⟨-, hy⟩
    · exact h.2 y hy
    · rw [List.mem_singleton.1 (List.mem_of_find?_eq_some hy), hb]
      simp

/-- The flights of one number leave. -/
theorem Harmless.filter (h : Harmless k l) (j : Nat) : Harmless k (l.filter fun x => x.id != j) := by
  refine ⟨fun y hy hyk => h.1 y (List.mem_filter.1 hy).1 hyk, fun y hy => ?_⟩
  rw [List.find?_filter] at hy
  obtain ⟨hyj, hyk⟩ : y.id ≠ j ∧ y.id = k := by simpa using List.find?_some hy
  have hSame : (fun x : Flight => decide ((x.id != j) = true ∧ (x.id == k) = true)) = fun x => x.id == k := by
    funext x
    by_cases hx : x.id = k
    · simp [hx, ← hyk, hyj]
    · simp [hx]
  rw [hSame] at hy
  exact h.2 y hy

/-- The flights numbered `k` are changed to performed ones. -/
theorem harmless_mapPerformed {f : Flight} (hf : l.find? (fun x => x.id == k) = some f) {g : Flight → Flight}
    (hid : ∀ x, (g x).id = x.id) (hd : ∀ x, (g x).done = true) (hc : ¬((g f).bad = true ∧ (g f).hasDest = true)) :
    Harmless k (l.map fun x => if x.id = k then g x else x) := by
  have hIds : ∀ x : Flight, (if x.id = k then g x else x).id = x.id := fun x => by split <;> simp [hid]
  refine ⟨fun y hy hyk => ?_, fun y hy => ?_⟩
  · obtain ⟨x, -, rfl⟩ := List.mem_map.1 hy
    rw [hIds] at hyk
    rw [if_pos hyk]
    exact hd x
  · have hSame : ((fun x : Flight => x.id == k) ∘ fun x => if x.id = k then g x else x) = fun x => x.id == k := by
      funext x
      simp only [Function.comp_apply, hIds]
    rw [List.find?_map, hSame, hf] at hy
    obtain rfl := Option.some.inj hy
    have hfk : f.id = k := by simpa using List.find?_some hf
    simpa only [if_pos hfk] using hc

end

/-! ## Accesses performed for a refutation (R157, R161) -/

theorem State.harmless_ite {k : Nat} {c : Prop} [Decidable c] {a b : State} (ha : Harmless k a.flights) (hb : Harmless k b.flights) :
    Harmless k (if c then a else b).flights := by
  split
  · exact ha
  · exact hb

section
variable {k : Nat} {s : State} (h : Harmless k s.flights)
include h

theorem State.harmless_of_flights {t : State} (e : t.flights = s.flights) : Harmless k t.flights := e ▸ h

theorem State.harmless_mapFlight {j : Nat} (hj : j ≠ k) {g : Flight → Flight} (hid : ∀ x, (g x).id = x.id) :
    Harmless k (s.mapFlight j g).flights := by
  refine h.map (fun x => by split <;> simp [hid]) fun x hx hd => ?_
  rw [if_neg (by omega)]
  exact ⟨hd, rfl, rfl⟩

theorem State.harmless_performed {f : Flight} (hf : f.id ≠ k) (data : List Byte) (c : Nat) :
    Harmless k (s.performed f data c).flights := State.harmless_mapFlight h hf fun _ => rfl

theorem State.harmless_performedRead {f : Flight} (hf : f.id ≠ k) (pa : Nat) (data : List Byte) (c : Nat) :
    Harmless k (s.performedRead f pa data c).flights := State.harmless_mapFlight h hf fun _ => rfl

theorem State.harmless_drainOne (cl core : Nat) (e : SbEntry) : Harmless k (s.drainOne cl core e).flights := by
  obtain ⟨f, hd, hb, hFlights⟩ := s.drainOne_flights cl core e
  rw [hFlights]
  exact h.append hd hb

theorem State.harmless_drainWhere (cl core : Nat) (p : SbEntry → Bool) : Harmless k (s.drainWhere cl core p).flights :=
  List.foldlRecOn (motive := fun t : State => Harmless k t.flights) _ _ h fun _ ht e _ => State.harmless_drainOne ht cl core e

theorem State.harmless_drainSharers (cl core pa n : Nat) (own : Bool) : Harmless k (s.drainSharers cl core pa n own).flights :=
  List.foldlRecOn (motive := fun t : State => Harmless k t.flights) _ _ h fun _ ht c _ => State.harmless_drainWhere ht cl c.num _

theorem State.harmless_l1Grant (cl core lease sec : Nat) : Harmless k (s.l1Grant cl core lease sec).flights := by
  unfold State.l1Grant
  dsimp only
  split
  · exact h
  · refine Harmless.map (State.harmless_of_flights h (s.l1Put_flights _ _ _)) (fun x => ?_) fun x _ hd => ?_
    · split <;> rfl
    · split <;> exact ⟨hd, rfl, rfl⟩

theorem State.harmless_loadBytes (f : Flight) (pa : Nat) : Harmless k (s.loadBytes f pa).1.flights := by
  have hDrained := State.harmless_of_flights (State.harmless_drainSharers h f.cl f.core pa f.size false)
    (State.normalise_flights _ pa f.size)
  unfold State.loadBytes
  dsimp only
  split
  · exact List.foldlRecOn (motive := fun t : State => Harmless k t.flights) _ _ hDrained
      fun _ ht sec _ => State.harmless_l1Grant ht f.cl f.core f.lease sec
  · exact hDrained

theorem State.harmless_performLoad {f : Flight} (hf : f.id ≠ k) (pa : Nat) : Harmless k (s.performLoad f pa).flights := by
  have hRead : Harmless k (if f.hyp = 0 then s.loadBytes f pa else (s, s.viewOf f.slot f.hyp pa f.size)).1.flights := by
    split
    · exact State.harmless_loadBytes h f pa
    · exact h
  exact State.harmless_performedRead (State.harmless_of_flights hRead (State.acquireAt_keeps _ f _).1) hf pa _ _

theorem State.harmless_performImage (f : Flight) (m pa : Nat) : Harmless k (s.performImage f m pa).flights := by
  refine Harmless.map (State.harmless_of_flights h (s.normaliseUnit_keeps (pa / 128)).1) (fun x => ?_) fun x _ hd => ?_
  · split
    · split <;> rfl
    · rfl
  · split
    · rw [if_neg (by simp [hd])]
      exact ⟨hd, rfl, rfl⟩
    · exact ⟨hd, rfl, rfl⟩

theorem State.harmless_noteParts (m : Nat) : Harmless k (s.noteParts m).flights := by
  refine h.map (fun x => ?_) fun x _ hd => ?_
  · split
    · split <;> rfl
    · rfl
  · split
    · split <;> exact ⟨hd, rfl, rfl⟩
    · exact ⟨hd, rfl, rfl⟩

theorem State.harmless_performPart {f : Flight} (hf : f.id ≠ k) (m pa : Nat) : Harmless k (s.performPart f m pa).flights := by
  have hLater : ∀ a, Harmless k ((s.acquireAt f a).performedRead f pa
      ((((s.partsOf m).find? fun x => x.id == f.id).map (·.data)).getD []) s.now).flights := fun a =>
    State.harmless_performedRead (State.harmless_of_flights h (State.acquireAt_keeps s f a).1) hf pa _ _
  have hFirst : ∀ t : State, Harmless k t.flights → ∀ a, Harmless k ((t.acquireAt f a).performImage f m pa).flights := fun t ht a =>
    State.harmless_performImage (State.harmless_of_flights ht (State.acquireAt_keeps t f a).1) f m pa
  have hApart : ∀ t : State, Harmless k t.flights → Harmless k ((t.noteParts m).performLoad f pa).flights := fun t ht =>
    State.harmless_performLoad (State.harmless_noteParts ht m) hf pa
  have hDrained : ∀ (c : Prop) [Decidable c],
      Harmless k (if c then s.drainWhere f.cl f.core fun e => e.touches (128 * (pa / 128)) 128 else s).flights := fun c _ =>
    State.harmless_ite (State.harmless_drainWhere h _ _ _) h
  exact State.harmless_ite (State.harmless_ite (hLater _) (State.harmless_performLoad h hf pa))
    (State.harmless_ite (hFirst _ (hDrained _) _) (hApart _ (hDrained _)))

theorem State.harmless_performMem {f : Flight} (hf : f.id ≠ k) (pa : Nat) : Harmless k (s.performMem f pa).flights := by
  have hOwn : Harmless k ((s.l1Drop f.cl f.core pa f.size).gainSectors f.tracked pa f.size).flights :=
    State.harmless_of_flights h ((State.gainSectors_keeps _ _ _ _).1.trans (State.l1Drop_keeps _ _ _ _ _).1)
  have hAtomic : ∀ op size b c, Harmless k ((((s.l1Drop f.cl f.core pa f.size).gainSectors f.tracked pa f.size).sliceAtomic
      op pa size b c).1.acquireAt f (s.stampOf pa f.size)).flights := fun op size b c =>
    State.harmless_of_flights hOwn ((State.acquireAt_keeps _ f _).1.trans (State.sliceAtomic_flights _ op pa size b c))
  unfold State.performMem
  dsimp only
  split
  · exact State.harmless_performLoad h hf pa
  · exact State.harmless_performPart h hf _ pa
  · exact State.harmless_performed (State.harmless_of_flights h
      ((State.commit_flights _ pa _).trans (State.gainSectors_keeps _ _ _ _).1)) hf _ _
  · exact State.harmless_performedRead (hAtomic _ _ _ _) hf pa _ _
  · exact State.harmless_performedRead (hAtomic _ _ _ _) hf pa _ _
  · exact State.harmless_performed (State.harmless_of_flights hOwn (State.sliceMerge_flights _ pa _)) hf _ _
  · exact State.harmless_performed h hf _ _

theorem State.harmless_performSp {f : Flight} (hf : f.id ≠ k) (uid off : Nat) : Harmless k (s.performSp f uid off).flights := by
  unfold State.performSp
  dsimp only
  split
  · exact State.harmless_performed (State.harmless_of_flights h (State.acquireAt_keeps _ f _).1) hf _ _
  · exact State.harmless_performed (State.harmless_of_flights h (State.acquireAt_keeps _ f _).1) hf _ _
  · exact State.harmless_performed (State.harmless_of_flights h rfl) hf _ _
  · refine State.harmless_performed (State.harmless_of_flights h ?_) hf _ _
    split <;> rfl
  · exact State.harmless_performed h hf _ _

end

section
variable {k : Nat} {s : State} (h : Harmless k s.flights)
include h

theorem State.harmless_performTagged {f : Flight} (hf : f.id ≠ k) (pa : Nat) : Harmless k (s.performTagged f pa).1.flights := by
  have hRead : ∀ t : State, t.flights = s.flights → ∀ a old, Harmless k ((t.acquireAt f a).performedRead f pa old s.now).flights :=
    fun t ht a old => State.harmless_performedRead (State.harmless_of_flights h ((State.acquireAt_keeps t f a).1.trans ht)) hf pa old _
  have hWrite := fun b => s.tagWrite_flights f.slot f.hyp pa b
  unfold State.performTagged
  dsimp only
  split
  · exact State.harmless_performLoad h hf pa
  · exact State.harmless_performPart h hf _ pa
  · exact State.harmless_performed (State.harmless_of_flights h (hWrite _)) hf _ _
  · split
    · exact hRead _ (hWrite _) _ _
    · exact hRead s rfl _ _
  · split
    · exact hRead _ (hWrite _) _ _
    · exact hRead s rfl _ _
  · split
    · exact State.harmless_performed h hf _ _
    · split
      · next hMerge => exact State.harmless_performed (State.harmless_of_flights h (State.tagMerge_flights hMerge)) hf _ _
      · exact State.harmless_performed h hf _ _
  · exact State.harmless_performed h hf _ _

/-- A flight that waits to be performed is none of the performed ones. -/
theorem State.id_ne_of_waits {f : Flight} (hw : s.waitsToPerform f = true) : f.id ≠ k := by
  obtain ⟨x, hx, hxf⟩ := List.any_eq_true.1 hw
  simp only [Bool.and_eq_true, beq_iff_eq, Bool.not_eq_true'] at hxf
  rintro rfl
  exact absurd (h.1 x hx hxf.1) (by simp [hxf.2])

theorem State.harmless_performCore (f : Flight) : Harmless k (s.performCore f).1.flights := by
  unfold State.performCore
  split
  · exact h
  · next hWaits =>
    have hf : f.id ≠ k := State.id_ne_of_waits h (by simpa using hWaits)
    split
    · next uid off hTgt =>
      have hSp := State.harmless_performSp h hf uid off
      exact State.harmless_ite hSp (hSp.filter f.id)
    · next pa hTgt =>
      split
      · exact State.harmless_performMem h hf pa
      · exact State.harmless_performTagged h hf pa

theorem State.harmless_frog (slot id : Nat) (st : HypState) : Harmless k (s.frog slot id st).1.flights :=
  State.harmless_of_flights h rfl

end

theorem State.harmless_refuteWith {k : Nat} : ∀ (n : Nat) {s : State} (_ : Harmless k s.flights) (slot id : Nat) (st : HypState),
    Harmless k (s.refuteWith n slot id st).1.flights
  | 0, _, h, slot, id, st => State.harmless_frog h slot id st
  | n + 1, s, h, slot, id, st => by
    have hFull : ∀ t : State, Harmless k t.flights → ∀ f : Flight,
        Harmless k (match t.liveHyp f.slot f.hyp with
          | some j => (t.refuteWith n f.slot j .capacity).1
          | none => t).flights := by
      intro t ht f
      split
      · exact State.harmless_refuteWith n ht _ _ _
      · exact ht
    refine State.harmless_frog (List.foldlRecOn (motive := fun t : State => Harmless k t.flights) _ _ h fun t ht f _ =>
      List.foldlRecOn (motive := fun t : State => Harmless k t.flights) _ _ ht fun u hu g _ => ?_) slot id st
    have hCore := State.harmless_performCore hu g
    exact State.harmless_ite hCore (State.harmless_ite hCore (hFull _ hCore g))

theorem State.harmless_overflow {k : Nat} {s : State} (h : Harmless k s.flights) (slot : Nat) (hyp : Word) :
    Harmless k (s.overflow slot hyp).flights := by
  unfold State.overflow
  split
  · exact State.harmless_refuteWith 256 h _ _ _
  · exact h

/-! ## A write reaches its slice (R74, R151, R161) -/

/-- A write whose turn it is at a slice: it is on its way, its bytes are those of memory, and no access must precede it. -/
structure WriteTurn (s : State) (f : Flight) (pa : Nat) : Prop where
  find : s.flights.find? (fun x => x.id == f.id) = some f
  tgt : f.tgt = .mem pa
  ahead : f.done = false
  alone : mustPrecede (s.olderThan f) [f] = [f]

/-- A team is killed by the performed flight of a number that met poison (R439). -/
def State.pollPoison (s : State) (fid : Nat) : State := ((s.flights.find? fun x => x.id == fid).map s.poisonCheck).getD s

theorem State.pollPoison_harmless {s : State} {fid : Nat} (h : Harmless fid s.flights) : s.pollPoison fid = s := by
  unfold State.pollPoison
  cases hf : s.flights.find? fun x => x.id == fid with
  | none => rfl
  | some f => exact if_neg (h.2 f hf)

namespace WriteTurn

section
variable {s : State} {f : Flight} {pa : Nat} (h : WriteTurn s f pa)
include h

theorem waits : s.waitsToPerform f = true :=
  List.any_eq_true.2 ⟨f, List.mem_of_find?_eq_some h.find, by simp [h.ahead]⟩

/-- Such a write is performed, and then the poison that it may have met is seen to. -/
theorem reachSlice_eq (hl : f.isLoad = false) (hp : s.publishHeld f = false) :
    s.reachSlice f.id = (s.performOne f).pollPoison f.id := by
  have hHeld : s.readHeld f = false := by simp [State.readHeld, h.alone, hp]
  have hPerform : s.perform f = s.performOne f := by simp [State.perform, h.alone]
  unfold State.reachSlice
  simp only [h.find, h.tgt, h.ahead, hl, hHeld, Bool.false_eq_true, or_self, ↓reduceIte, hPerform]
  rfl

theorem performOne_untagged (hh : f.hyp = 0) : s.performOne f = s.performMem f pa := by
  simp only [State.performOne, State.performCore, h.waits, h.tgt, hh, Bool.not_true, Bool.false_eq_true, ↓reduceIte]

/-- A tagged write that finds no room refutes its hypothesis. -/
theorem performOne_tagged (hh : f.hyp ≠ 0) : s.performOne f =
    if (s.performTagged f pa).2 then (s.performTagged f pa).1 else (s.performTagged f pa).1.overflow f.slot f.hyp := by
  simp only [State.performOne, State.performCore, h.waits, h.tgt, hh, Bool.not_true, Bool.false_eq_true, ↓reduceIte]

/-- The write performed with an answer, on a state with the same flights. -/
theorem harmless_mapFlight {t : State} (ht : t.flights = s.flights) {g : Flight → Flight} (hid : ∀ x, (g x).id = x.id)
    (hd : ∀ x, (g x).done = true) (hc : ¬((g f).bad = true ∧ (g f).hasDest = true)) :
    Harmless f.id (t.mapFlight f.id g).flights := by
  have hFind : t.flights.find? (fun x => x.id == f.id) = some f := by rw [ht, h.find]
  exact harmless_mapPerformed hFind hid hd hc

end

end WriteTurn

/-! ## Writes at the home slices, and in the version store -/

/-- A flight whose write is performed at `c`. -/
def Flight.wrote (c : Nat) (x : Flight) : Flight := { x with data := [], done := true, ctime := c }

/-- A flight performed at `c` that found `data`, and no poison. -/
def Flight.found (data : List Byte) (c : Nat) (x : Flight) : Flight := { x with data := data, bad := false, done := true, ctime := c }

/-- A read of memory without poison. -/
theorem State.performedRead_unpoisoned {t : State} {f : Flight} {pa : Nat} (h : t.isPoisoned pa f.size = false) (data : List Byte) (c : Nat) :
    t.performedRead f pa data c = t.mapFlight f.id (Flight.found data c) := by
  simp only [State.performedRead, h]
  rfl

/-- No poison is met where none was before, if none has come. -/
theorem State.isPoisoned_mono {s t : State} (h : ∀ x ∈ t.poisoned, x ∈ s.poisoned) {pa n : Nat} (hp : s.isPoisoned pa n = false) :
    t.isPoisoned pa n = false := by
  rw [State.isPoisoned, List.any_eq_false] at hp ⊢
  exact fun sec hsec hIn => hp sec hsec (List.contains_iff_mem.2 (h sec (List.contains_iff_mem.1 hIn)))

theorem State.isPoisoned_acquireAt (s : State) (f : Flight) (a pa n : Nat) : (s.acquireAt f a).isPoisoned pa n = s.isPoisoned pa n := by
  rw [State.isPoisoned, State.isPoisoned, (State.acquireAt_keeps s f a).2]

/-- A write that has no destination waits for no confirm (R159). -/
theorem State.publishHeld_noDest (s : State) {f : Flight} (h : f.hasDest = false) : s.publishHeld f = false := by
  unfold State.publishHeld
  split <;> simp [h]

theorem State.publishHeld_tagged (s : State) {f : Flight} (h : f.hyp ≠ 0) : s.publishHeld f = false := by
  have hTag : (f.hyp == 0) = false := beq_eq_false_iff_ne.2 h
  unfold State.publishHeld
  split <;> simp only [hTag, Bool.false_and]

theorem State.publishHeld_unheld {s : State} {f : Flight} {pa : Nat} (ht : f.tgt = .mem pa) (h : s.publishing pa f.size = false) :
    s.publishHeld f = false := by
  simp [State.publishHeld, ht, h]

namespace WriteTurn

section
variable {s : State} {f : Flight} {pa : Nat} (h : WriteTurn s f pa) (hl : f.isLoad = false)
include h hl

/-- An untagged write ends as it is performed. -/
theorem untagged (hh : f.hyp = 0) (hp : s.publishHeld f = false) {t : State} (he : s.performMem f pa = t) (ht : Harmless f.id t.flights) :
    exec (.homeSliceWrite f.id) s = .next t := by
  have hReach : s.reachSlice f.id = t := by
    rw [h.reachSlice_eq hl hp, h.performOne_untagged hh, he, State.pollPoison_harmless ht]
  exact congrArg Host.Outcome.next hReach

/-- A tagged write ends as it is performed, or with the refutation of its hypothesis when it found no room. -/
theorem tagged (hh : f.hyp ≠ 0) {r : State × Bool} (he : s.performTagged f pa = r) (ht : Harmless f.id r.1.flights) :
    exec (.homeSliceWrite f.id) s = .next (if r.2 then r.1 else r.1.overflow f.slot f.hyp) := by
  have hReach : s.reachSlice f.id = if r.2 then r.1 else r.1.overflow f.slot f.hyp := by
    rw [h.reachSlice_eq hl (s.publishHeld_tagged hh), h.performOne_tagged hh, he]
    exact State.pollPoison_harmless (State.harmless_ite ht (State.harmless_overflow ht f.slot f.hyp))
  exact congrArg Host.Outcome.next hReach

end

section
variable {s t : State} {f : Flight} {pa : Nat} (h : WriteTurn s f pa) (ht : t.flights = s.flights)
include h ht

theorem harmless_wrote (hd : f.hasDest = false) (c : Nat) : Harmless f.id (t.mapFlight f.id (Flight.wrote c)).flights :=
  h.harmless_mapFlight ht (fun _ => rfl) (fun _ => rfl) fun hc => Bool.false_ne_true (hd.symm.trans hc.2)

theorem harmless_found (data : List Byte) (c : Nat) : Harmless f.id (t.mapFlight f.id (Flight.found data c)).flights :=
  h.harmless_mapFlight ht (fun _ => rfl) (fun _ => rfl) fun hc => Bool.false_ne_true hc.1

end

end WriteTurn

/-! ### Untagged writes (R69, R74, R90, R304) -/

/-- The state in which an atomic or a merge finds its slice: no copy of its bytes in its L1, its sectors gained. -/
def State.ownedFor (s : State) (f : Flight) (pa : Nat) : State := (s.l1Drop f.cl f.core pa f.size).gainSectors f.tracked pa f.size

theorem State.ownedFor_keeps (s : State) (f : Flight) (pa : Nat) :
    (s.ownedFor f pa).flights = s.flights ∧ (s.ownedFor f pa).poisoned = s.poisoned := by
  obtain ⟨hFlights, hPoison⟩ := State.gainSectors_keeps (s.l1Drop f.cl f.core pa f.size) f.tracked pa f.size
  obtain ⟨hDropFlights, hDropPoison⟩ := s.l1Drop_keeps f.cl f.core pa f.size
  exact ⟨hFlights.trans hDropFlights, hPoison.trans hDropPoison⟩

/-- An atomic operation of `size` bytes: one of R304, or the 16-byte compare and swap. -/
def Flight.IsAtomic (f : Flight) (op : AtomOp) (size b c : Nat) : Prop :=
  ((∃ d, f.what = .atomic op b c d) ∧ size = f.size) ∨ ((∃ d, f.what = .cas16 c b d) ∧ op = .cas ∧ size = 16)

section
variable {s : State} {f : Flight} {pa : Nat}

theorem State.performMem_store {b : List Byte} (hw : f.what = .store b) : s.performMem f pa =
    ((s.gainSectors f.tracked pa b.length).commit pa b).1.mapFlight f.id
      (Flight.wrote ((s.gainSectors f.tracked pa b.length).commit pa b).2) := by
  simp only [State.performMem, hw]
  rfl

theorem State.performMem_merge {img : LongAcc} (hw : f.what = .merge img) : s.performMem f pa =
    ((s.ownedFor f pa).sliceMerge pa img).1.mapFlight f.id (Flight.wrote ((s.ownedFor f pa).sliceMerge pa img).2) := by
  simp only [State.performMem, hw]
  rfl

theorem State.performMem_atomic {op : AtomOp} {size b c : Nat} (hw : f.IsAtomic op size b c) : s.performMem f pa =
    (((s.ownedFor f pa).sliceAtomic op pa size b c).1.acquireAt f (s.stampOf pa f.size)).performedRead f pa
      ((s.ownedFor f pa).sliceAtomic op pa size b c).2.1 ((s.ownedFor f pa).sliceAtomic op pa size b c).2.2 := by
  rcases hw with ⟨⟨d, hw⟩, rfl⟩ | ⟨⟨d, hw⟩, rfl, rfl⟩
  · simp only [State.performMem, hw, State.ownedFor]
  · simp only [State.performMem, hw, State.ownedFor]

theorem Flight.IsAtomic.isLoad {op : AtomOp} {size b c : Nat} (hw : f.IsAtomic op size b c) : f.isLoad = false := by
  rcases hw with ⟨⟨d, hw⟩, -⟩ | ⟨⟨d, hw⟩, -⟩
  · simp [Flight.isLoad, hw]
  · simp [Flight.isLoad, hw]

namespace WriteTurn

variable (h : WriteTurn s f pa) (hh : f.hyp = 0)
include h hh

theorem store {b : List Byte} (hw : f.what = .store b) : exec (.homeSliceWrite f.id) s =
    .next (((s.gainSectors f.tracked pa b.length).commit pa b).1.mapFlight f.id
      (Flight.wrote ((s.gainSectors f.tracked pa b.length).commit pa b).2)) := by
  have hDest : f.hasDest = false := by simp [Flight.hasDest, hw]
  have hFlights := (State.commit_flights (s.gainSectors f.tracked pa b.length) pa b).trans (s.gainSectors_keeps f.tracked pa b.length).1
  exact h.untagged (by simp [Flight.isLoad, hw]) hh (s.publishHeld_noDest hDest) (State.performMem_store hw)
    (h.harmless_wrote hFlights hDest _)

theorem merge {img : LongAcc} (hw : f.what = .merge img) : exec (.homeSliceWrite f.id) s =
    .next (((s.ownedFor f pa).sliceMerge pa img).1.mapFlight f.id (Flight.wrote ((s.ownedFor f pa).sliceMerge pa img).2)) := by
  have hDest : f.hasDest = false := by simp [Flight.hasDest, hw]
  have hFlights := (State.sliceMerge_flights _ pa img).trans (s.ownedFor_keeps f pa).1
  exact h.untagged (by simp [Flight.isLoad, hw]) hh (s.publishHeld_noDest hDest) (State.performMem_merge hw)
    (h.harmless_wrote hFlights hDest _)

theorem atomic {op : AtomOp} {size b c : Nat} (hw : f.IsAtomic op size b c) (hp : s.publishing pa f.size = false)
    (hc : s.isPoisoned pa f.size = false) : exec (.homeSliceWrite f.id) s =
      .next ((((s.ownedFor f pa).sliceAtomic op pa size b c).1.acquireAt f (s.stampOf pa f.size)).mapFlight f.id
        (Flight.found ((s.ownedFor f pa).sliceAtomic op pa size b c).2.1 ((s.ownedFor f pa).sliceAtomic op pa size b c).2.2)) := by
  obtain ⟨hOwnFlights, hOwnPoison⟩ := s.ownedFor_keeps f pa
  have hFlights := (State.acquireAt_keeps _ f (s.stampOf pa f.size)).1.trans
    ((State.sliceAtomic_flights (s.ownedFor f pa) op pa size b c).trans hOwnFlights)
  have hSlice : ((s.ownedFor f pa).sliceAtomic op pa size b c).1.isPoisoned pa f.size = false :=
    State.isPoisoned_mono (fun x hx => hOwnPoison ▸ State.sliceAtomic_poisoned _ op pa size b c x hx) hc
  have hClean := (State.isPoisoned_acquireAt _ f (s.stampOf pa f.size) pa f.size).trans hSlice
  exact h.untagged hw.isLoad hh (State.publishHeld_unheld h.tgt hp)
    ((State.performMem_atomic hw).trans (State.performedRead_unpoisoned hClean _ _)) (h.harmless_found hFlights _ _)

end WriteTurn

end

/-! ### Tagged writes (R94, R150, R151, R161) -/

/-- What a tagged atomic leaves in the version store. -/
def State.tagAtomic (s : State) (f : Flight) (pa : Nat) (op : AtomOp) (b c : Nat) : State × Bool :=
  match op.apply f.size (leNat (s.viewOf f.slot f.hyp pa f.size)) b c with
  | some n => s.tagWrite f.slot f.hyp pa (leBytes f.size n)
  | none => (s, true)

/-- What a tagged 16-byte compare and swap leaves there. -/
def State.tagCas16 (s : State) (f : Flight) (pa c b : Nat) : State × Bool :=
  if leNat (s.viewOf f.slot f.hyp pa f.size) = c then s.tagWrite f.slot f.hyp pa (leBytes 16 b) else (s, true)

/-- What a tagged merge leaves there. -/
def State.tagMerged (s : State) (f : Flight) (pa : Nat) (img : LongAcc) : State × Bool :=
  match s.liveHyp f.slot f.hyp with
  | none => (s, true)
  | some id => match s.tagMerge f.slot id pa img with
    | some t => (t, true)
    | none => (s, false)

section
variable {s : State} {f : Flight} {pa : Nat}

theorem State.tagAtomic_flights (op : AtomOp) (b c : Nat) : (s.tagAtomic f pa op b c).1.flights = s.flights := by
  unfold State.tagAtomic
  split
  · exact s.tagWrite_flights _ _ _ _
  · rfl

theorem State.tagCas16_flights (c b : Nat) : (s.tagCas16 f pa c b).1.flights = s.flights := by
  unfold State.tagCas16
  split
  · exact s.tagWrite_flights _ _ _ _
  · rfl

theorem State.tagMerged_flights (img : LongAcc) : (s.tagMerged f pa img).1.flights = s.flights := by
  unfold State.tagMerged
  split
  · rfl
  · split
    · next hMerge => exact State.tagMerge_flights hMerge
    · rfl

theorem State.performTagged_store {b : List Byte} (hw : f.what = .store b) : s.performTagged f pa =
    ((s.tagWrite f.slot f.hyp pa b).1.mapFlight f.id (Flight.wrote s.now), (s.tagWrite f.slot f.hyp pa b).2) := by
  simp only [State.performTagged, hw]
  rfl

theorem State.performTagged_merge {img : LongAcc} (hw : f.what = .merge img) : s.performTagged f pa =
    ((s.tagMerged f pa img).1.mapFlight f.id (Flight.wrote s.now), (s.tagMerged f pa img).2) := by
  simp only [State.performTagged, hw, State.tagMerged]
  cases s.liveHyp f.slot f.hyp with
  | none => rfl
  | some id =>
    dsimp only
    cases s.tagMerge f.slot id pa img <;> rfl

/-- The answer of a tagged atomic on a state. -/
def State.answerTagged (s : State) (f : Flight) (pa : Nat) (t : State) : State :=
  (t.acquireAt f (s.stampOf pa f.size)).mapFlight f.id (Flight.found (s.viewOf f.slot f.hyp pa f.size) s.now)

/-- A tagged atomic answers with what it found. -/
theorem State.performTagged_atomic {op : AtomOp} {b c : Nat} {d : Option Nat} (hw : f.what = .atomic op b c d)
    (hp : (s.tagAtomic f pa op b c).1.isPoisoned pa f.size = false) : s.performTagged f pa =
      (s.answerTagged f pa (s.tagAtomic f pa op b c).1, (s.tagAtomic f pa op b c).2) := by
  have hClean := (State.isPoisoned_acquireAt _ f (s.stampOf pa f.size) pa f.size).trans hp
  rw [State.answerTagged, ← State.performedRead_unpoisoned hClean]
  simp only [State.performTagged, hw]
  rfl

theorem State.performTagged_cas16 {b c d : Nat} (hw : f.what = .cas16 c b d)
    (hp : (s.tagCas16 f pa c b).1.isPoisoned pa f.size = false) : s.performTagged f pa =
      (s.answerTagged f pa (s.tagCas16 f pa c b).1, (s.tagCas16 f pa c b).2) := by
  have hClean := (State.isPoisoned_acquireAt _ f (s.stampOf pa f.size) pa f.size).trans hp
  rw [State.answerTagged, ← State.performedRead_unpoisoned hClean]
  simp only [State.performTagged, hw]
  rfl

/-- The outcome of a tagged write: when it found no room its hypothesis is refuted (R161). -/
def Flight.room (f : Flight) (r : State × Bool) : State := if r.2 then r.1 else r.1.overflow f.slot f.hyp

namespace WriteTurn

/-- An answered write stays harmless. -/
theorem harmless_answerTagged (h : WriteTurn s f pa) {t : State} (ht : t.flights = s.flights) :
    Harmless f.id (s.answerTagged f pa t).flights :=
  h.harmless_found ((State.acquireAt_keeps t f _).1.trans ht) _ _

variable (h : WriteTurn s f pa) (hh : f.hyp ≠ 0)
include h hh

theorem tagged_store {b : List Byte} (hw : f.what = .store b) : exec (.homeSliceWrite f.id) s =
    .next (f.room ((s.tagWrite f.slot f.hyp pa b).1.mapFlight f.id (Flight.wrote s.now), (s.tagWrite f.slot f.hyp pa b).2)) :=
  h.tagged (by simp [Flight.isLoad, hw]) hh (State.performTagged_store hw)
    (h.harmless_wrote (s.tagWrite_flights _ _ _ _) (by simp [Flight.hasDest, hw]) _)

theorem tagged_merge {img : LongAcc} (hw : f.what = .merge img) : exec (.homeSliceWrite f.id) s =
    .next (f.room ((s.tagMerged f pa img).1.mapFlight f.id (Flight.wrote s.now), (s.tagMerged f pa img).2)) :=
  h.tagged (by simp [Flight.isLoad, hw]) hh (State.performTagged_merge hw)
    (h.harmless_wrote (State.tagMerged_flights img) (by simp [Flight.hasDest, hw]) _)

theorem tagged_atomic {op : AtomOp} {b c : Nat} {d : Option Nat} (hw : f.what = .atomic op b c d)
    (hp : (s.tagAtomic f pa op b c).1.isPoisoned pa f.size = false) : exec (.homeSliceWrite f.id) s =
      .next (f.room (s.answerTagged f pa (s.tagAtomic f pa op b c).1, (s.tagAtomic f pa op b c).2)) :=
  h.tagged (by simp [Flight.isLoad, hw]) hh (State.performTagged_atomic hw hp)
    (h.harmless_answerTagged (State.tagAtomic_flights op b c))

theorem tagged_cas16 {b c d : Nat} (hw : f.what = .cas16 c b d)
    (hp : (s.tagCas16 f pa c b).1.isPoisoned pa f.size = false) : exec (.homeSliceWrite f.id) s =
      .next (f.room (s.answerTagged f pa (s.tagCas16 f pa c b).1, (s.tagCas16 f pa c b).2)) :=
  h.tagged (by simp [Flight.isLoad, hw]) hh (State.performTagged_cas16 hw hp)
    (h.harmless_answerTagged (State.tagCas16_flights c b))

end WriteTurn

end

/-! ## Drains, acknowledgements and acqr (R70, R75, R84) -/

/-- An entry that no older one precedes drains. -/
theorem State.entryDrain_first {s : State} {cl core : Nat} {e : SbEntry} (hf : (s.core cl core).sb.find? (fun x => x.id == e.id) = some e)
    (hb : ∀ x ∈ (s.core cl core).sb.takeWhile (fun x => x.id != e.id), x.before e = false) :
    s.entryDrain cl core e.id = s.drainOne cl core e := by
  simp only [State.entryDrain, hf]
  refine if_neg ?_
  rw [List.any_eq_true]
  rintro ⟨x, hx, hxe⟩
  rw [hb x hx] at hxe
  cases hxe

/-- The masked bytes of an entry are written at its home slice. -/
theorem State.commitCells_mem (s : State) (sec : Nat) (cells : List Host.Cell) :
    (s.commitCells sec cells).1.mem = Memory.writeCells (s.leaveAcc (64 * sec) 64).mem cells := by
  have hMem := State.stampRange_mem (s.leaveAcc (64 * sec) 64) (64 * sec) 64
  unfold State.commitCells
  dsimp only
  split
  · exact congrArg (Memory.writeCells · cells) hMem
  · exact congrArg (Memory.writeCells · cells) hMem

/-- A team that is not there changes nothing. -/
theorem State.mapTeam_absent {s : State} {uid : Nat} (h : s.team? uid = none) (f : Team → Team) : s.mapTeam uid f = s := by
  have hTeams : s.teams.map (fun t => if t.uid = uid then f t else t) = s.teams := by
    refine (List.map_congr_left fun t ht => if_neg fun he => ?_).trans (List.map_id _)
    exact List.find?_eq_none.1 h t ht (beq_iff_eq.2 he)
  unfold State.mapTeam
  rw [hTeams]

/-- The horizon that an acknowledgement raises: that of its group, or those of the launches of its process (R75, R406). -/
def State.ackHorizon (s : State) (f : Flight) : State :=
  if (s.team? f.uid).isSome then s.mapGroup f.uid f.gid fun g => { g with fhz := max g.fhz f.ctime }
  else { s with launches := s.launches.map fun l => if l.slot = f.slot then { l with fhz := max l.fhz f.ctime } else l }

theorem State.lateAck_raiseFhz (s : State) (f : Flight) : (s.raiseFhz f.uid f.gid f.ctime).lateAck f = s.ackHorizon f := by
  unfold State.ackHorizon
  split
  · next ht =>
    refine if_pos ?_
    rw [State.raiseFhz, State.team?_mapGroup, Option.isSome_map]
    exact ht
  · next ht =>
    have hNone : s.team? f.uid = none := by simpa using ht
    have hSame : s.raiseFhz f.uid f.gid f.ctime = s := State.mapTeam_absent hNone _
    rw [hSame]
    exact if_neg ht

theorem State.ackHorizon_flights (s : State) (f : Flight) : (s.ackHorizon f).flights = s.flights := by
  unfold State.ackHorizon
  split <;> rfl

/-- The acknowledgement of a performed write. -/
theorem State.acknowledge_performed {s : State} {f : Flight} (hf : s.flights.find? (fun x => x.id == f.id) = some f)
    (hd : f.done = true) (ha : f.acked = false) : s.acknowledge f.id =
      if f.hasDest then (s.ackHorizon f).mapFlight f.id fun x => { x with acked := true }
      else { s.ackHorizon f with flights := s.flights.filter fun x => x.id != f.id } := by
  simp only [State.acknowledge, hf, hd, ha, State.lateAck_raiseFhz, State.ackHorizon_flights, Bool.not_true, Bool.false_eq_true, or_self,
    ↓reduceIte]

section
variable {s : State} {a : Acqr} (hf : s.acqrs.find? (fun x => x.id == a.id) = some a) (hd : a.drained = false)
include hf hd

/-- An acqr that arrives drains the target's buffer and takes the cut. -/
theorem State.acqrDrain_arrives (ha : a.arrived = false) :
    let st := (s.core a.cl a.core).sb.foldl (fun s e => s.drainOne a.cl a.core e) s
    let acks := (st.flights.filter fun f => f.cl == a.cl && f.core == a.core && decide (s.nextId ≤ f.id)).map (·.id)
    s.acqrDrain a.id = st.mapAcqr a.id fun x =>
      { x with arrived := true, cutFlights := (s.cutOf a.cl a.core).1 ++ acks, cutEntries := (s.cutOf a.cl a.core).2 } := by
  simp only [State.acqrDrain, hf, hd, ha, Bool.not_false, Bool.false_eq_true, ↓reduceIte]

/-- Once the cut is acknowledged the L1 is emptied. -/
theorem State.acqrDrain_empties (ha : a.arrived = true) (hc : ∀ f ∈ s.flights, f.id ∈ a.cutFlights → f.acked = true) :
    s.acqrDrain a.id = (s.dropL1 a.cl a.core).mapAcqr a.id fun x => { x with drained := true } := by
  have hAcked : ¬(s.flights.any fun f => a.cutFlights.contains f.id && !f.acked) = true := by
    simp only [List.any_eq_true, Bool.and_eq_true, List.contains_iff_mem, Bool.not_eq_true', not_exists, not_and,
      Bool.not_eq_false]
    exact fun f hIn hCut => hc f hIn hCut
  simp only [State.acqrDrain, hf, hd, ha, hAcked, Bool.not_true, Bool.false_eq_true, ↓reduceIte]

end

/-! ## Snoops, walks and remote arrivals (R97, R125, R414) -/

theorem State.directorySnoop_device (s : State) {pa : Nat} (h : pa < Config.deviceBytes) :
    s.directorySnoop pa = if s.isDirty (pa / 64) then s.writeBack (pa / 64) else s.normalise (64 * (pa / 64)) 64 :=
  if_neg (Nat.not_le.2 h)

theorem State.pageWalk_enabled {s : State} {p : Nat} {va : DWord} (he : (s.slot p).en = true) (hv : va.toNat < 2 ^ 48)
    (acc : AccessKind) : s.pageWalk p va acc =
      match s.translate (s.slot p) va.toNat acc with
      | .ok _ _ e => s.tlbFill e
      | _ => s := by
  have hWalks : ¬((!(s.slot p).en) = true ∨ 2 ^ 48 ≤ va.toNat) := by
    rw [he]
    rintro (hOff | hHigh)
    · cases hOff
    · exact Nat.not_le.2 hv hHigh
  exact (if_neg hWalks).trans rfl

theorem State.latchArrival_found {s : State} {m : LatchMsg} (h : s.latchMsgs.find? (fun x => x.id == m.id) = some m) :
    s.latchArrival m.id =
      if (s.saved.any fun x => x.1.uid == m.uid) ∨ (s.team? m.uid).any fun t => !s.netUp t.cl then s
      else { s with latchMsgs := s.latchMsgs.filter fun x => x.id != m.id }.reachLatch { uid := m.uid, lk := m.lk, far := true }
        Latch.arrive := by
  simp only [State.latchArrival, h]

/-- Settles O45: each event by the lemmas above on the operation it is. -/
theorem memoryEvents : Obligations.MemoryEvents := by
  unfold Obligations.MemoryEvents
  refine ⟨fun s cl core e hf hb => ⟨?_, ?_⟩, fun s f pa hf ht hh hd ha => ⟨fun b hw => ?_, fun img hw => ?_,
      fun op size b c hw hp hc => ?_⟩,
    fun s f pa hf ht hh hd ha => ⟨fun b hw => ?_, fun img hw => ?_, fun op b c d hw hp => ?_, fun c b d hw hp => ?_⟩,
    fun s f hf hd ha => ?_, fun s a hf => ⟨fun ha hd hc => ?_, fun ha hd => ?_, rfl⟩, fun s pa => ⟨fun h => ?_, rfl, rfl⟩,
    fun s p va acc he hv => ?_, fun s m hm => ?_⟩
  · exact congrArg Host.Outcome.next (State.entryDrain_first hf hb)
  · exact State.commitCells_mem _ _ _
  · exact (WriteTurn.mk hf ht hd ha).store hh hw
  · exact (WriteTurn.mk hf ht hd ha).merge hh hw
  · exact (WriteTurn.mk hf ht hd ha).atomic hh hw hp hc
  · exact (WriteTurn.mk hf ht hd ha).tagged_store hh hw
  · refine ((WriteTurn.mk hf ht hd ha).tagged_merge hh hw).trans (congrArg Host.Outcome.next ?_)
    unfold State.tagMerged
    cases s.liveHyp f.slot f.hyp with
    | none => rfl
    | some id =>
      dsimp only
      cases s.tagMerge f.slot id pa img <;> rfl
  · exact (WriteTurn.mk hf ht hd ha).tagged_atomic hh hw hp
  · exact (WriteTurn.mk hf ht hd ha).tagged_cas16 hh hw hp
  · exact congrArg Host.Outcome.next (State.acknowledge_performed hf hd ha)
  · exact congrArg Host.Outcome.next (State.acqrDrain_empties hf hd ha hc)
  · exact congrArg Host.Outcome.next (State.acqrDrain_arrives hf hd ha)
  · exact congrArg Host.Outcome.next (s.directorySnoop_device h)
  · exact congrArg Host.Outcome.next (State.pageWalk_enabled he hv acc)
  · exact congrArg Host.Outcome.next (State.latchArrival_found hm)

end Sys2Proof.Machine

/-! PROOFS. The FP32 and packed BF16 and FP16 words (O14). -/

namespace Sys2Proof.Machine

open Sys2Proof

/-- A word of the mould `fbinary` writes d from a and b and raises the flags of that operation (R105, R269); a uniform one
raises them once, from the operands of its lowest thread (R219). -/
theorem computes_fbinary {word : Instr} {f : RMode → Word → Word → WordFl} {w : RR}
    (hx : ∀ s, exec word s = issueWord word.view (compute (fbinary f w)) s) :
    Computes word fun _ i =>
      { out := fun k => [(w.d.toNat, (f (modeOf i.g.round) (i.rd k w.a.toNat) (i.srcB w k)).1)],
        flags := fun k => (f (modeOf i.g.round) (i.rd (if i.v.u then i.first else k) w.a.toNat)
          (i.srcB w (if i.v.u then i.first else k))).2 } :=
  computes_of_compute hx (fun _ _ => List.nodup_singleton _) fun _ _ _ _ => rfl

/-- The same of the mould `fternary`, which reads the old d too (R269). -/
theorem computes_fternary {word : Instr} {f : RMode → Word → Word → Word → WordFl} {w : RR}
    (hx : ∀ s, exec word s = issueWord word.view (compute (fternary f w)) s) :
    Computes word fun _ i =>
      { out := fun k => [(w.d.toNat, (f (modeOf i.g.round) (i.rd k w.a.toNat) (i.srcB w k) (i.rd k w.d.toNat)).1)],
        flags := fun k => (f (modeOf i.g.round) (i.rd (if i.v.u then i.first else k) w.a.toNat)
          (i.srcB w (if i.v.u then i.first else k)) (i.rd (if i.v.u then i.first else k) w.d.toNat)).2 } :=
  computes_of_compute hx (fun _ _ => List.nodup_singleton _) fun _ _ _ _ => rfl

/-- Settles O14: every word is one of the two moulds, with the function of its row. -/
theorem floatWords : Obligations.FloatWords := by
  refine ⟨fun row hrow w => ?_, fun row hrow w => ?_⟩
  · simp only [List.mem_cons, List.not_mem_nil, or_false] at hrow
    rcases hrow with rfl | rfl | rfl | rfl | rfl | rfl | rfl | rfl | rfl | rfl | rfl | rfl | rfl | rfl | rfl | rfl | rfl
    all_goals exact computes_fbinary fun _ => rfl
  · simp only [List.mem_cons, List.not_mem_nil, or_false] at hrow
    rcases hrow with rfl | rfl | rfl
    all_goals exact computes_fternary fun _ => rfl

end Sys2Proof.Machine

/-! PROOFS. The words that queue a copy, a skein load or a prefetch (O27). -/

namespace Sys2Proof.Machine

open Sys2Proof

section
variable {w : RR} {s : State} {i : Issue}

/-! ## CP and CPO (R132, R316) -/

/-- The control word of a copy or a skein load. -/
def copyCtl (w : RR) (i : Issue) : Word := i.rd i.first (w.d.toNat + 1)

/-- The length of a copy. -/
def copyLen (w : RR) (i : Issue) : Nat := ((copyCtl w i).extractLsb' 0 20).toNat

/-- A copy whose operand block, addresses and latch reference R316 allows, with room in its core's queue (R132). -/
structure CopyLegal (w : RR) (s : State) (i : Issue) : Prop where
  reserved : (copyCtl w i).extractLsb' 20 10 = 0
  counted : (copyCtl w i).getLsbD 31 = true → (copyCtl w i).getLsbD 30 = true
  parts : 16 ∣ copyLen w i
  vaForm : (i.rd2 i.first w.a.toNat).extractLsb' 48 16 = 0
  vaAligned : (i.rd2 i.first w.a.toNat).extractLsb' 0 4 = 0
  spAligned : (i.rd i.first w.d.toNat).extractLsb' 0 4 = 0
  spRange : (s.spMarks i.t (i.rd i.first w.d.toNat) (copyLen w i)).isSome
  ref : RefOk s i ((copyCtl w i).getLsbD 30) (i.srcB w i.first)
  room : (s.copyQueue i.t.cl (i.t.coreOf i.c.gid)).length < 64

/-- The command of a copy. -/
def copyOp (out : Bool) (w : RR) (s : State) (i : Issue) : EngOp :=
  i.op s 0 (refTarget s i ((copyCtl w i).getLsbD 30) (i.srcB w i.first)) ((copyCtl w i).getLsbD 31)
    (if copyLen w i = 0 then .finished else .queued)
    (.copy out (i.rd2 i.first w.a.toNat) ((s.spMarks i.t (i.rd i.first w.d.toNat) (copyLen w i)).getD [])
      (List.range (copyLen w i / 16)))

/-- A legal copy goes on its counter, or is tried again. -/
theorem CopyLegal.cpDone_eq (h : CopyLegal w s i) (out : Bool) : cpDone out w s i =
    if 255 ≤ s.counter i.c.uid i.c.gid 0 ∨ s.acquiring i = true then retry s i else nothing (s.addOp (copyOp out w s i)) := by
  have hIllegal : ((copyCtl w i).extractLsb' 20 10 != 0 || ((copyCtl w i).getLsbD 31 && !(copyCtl w i).getLsbD 30) ||
      copyLen w i % 16 != 0 || ((refOf ((copyCtl w i).getLsbD 30) (i.srcB w i.first)).map refIllegal).getD false) = false := by
    rw [h.reserved, and_not_of_imp h.counted, Nat.mod_eq_zero_of_dvd h.parts, refOk_legal h.ref]
    rfl
  refine (checked_eq ?_).trans ((if_neg (Nat.not_le.2 h.room)).trans ?_)
  · simp only [List.mem_cons, List.not_mem_nil, or_false]
    rintro x (rfl | rfl | rfl | rfl | rfl | rfl)
    · exact hIllegal
    · exact bne_zero h.vaForm
    · exact isNone_of_isSome h.spRange
    · exact bne_zero h.vaAligned
    · exact bne_zero h.spAligned
    · exact refOk_refBad h.ref
  · rw [refTarget_eq]; rfl

/-! ## CPT (R58, R313, R317) -/

/-- The control word of a tile copy. -/
def tileCtl (w : RR) (i : Issue) : Word := i.rd i.first (w.a.toNat + 7)

/-- The operand block of a tile copy that R317 allows by itself. -/
structure TileLegal (w : RR) (i : Issue) : Prop where
  reserved : (tileCtl w i).getLsbD 28 = false
  counted : (tileCtl w i).getLsbD 31 = true → (tileCtl w i).getLsbD 30 = true
  conv : (i.tileCmd w).conv < 7
  pitch : 16 ∣ (i.tileCmd w).pitch
  desc : if (i.tileCmd w).conv = 5 then (N8.ofByte (i.tileCmd w).desc.toNat).isSome = true else (i.tileCmd w).desc = 0
  ref : (tileCtl w i).getLsbD 30 = true → refIllegal (i.srcB w i.first) = false

/-- The reference of a legal tile copy is well formed. -/
theorem refOf_legal {used : Bool} {x : Word} (h : used = true → refIllegal x = false) :
    ((refOf used x).map refIllegal).getD false = false := by
  cases used with
  | false => rfl
  | true => exact h rfl

/-- The descriptor of a legal tile copy fits its conversion. -/
theorem tileDesc_legal {conv : Nat} {desc : BitVec 8}
    (h : if conv = 5 then (N8.ofByte desc.toNat).isSome = true else desc = 0) :
    (if conv = 5 then (N8.ofByte desc.toNat).isNone else desc != 0) = false := by
  split_ifs at h ⊢
  · exact isNone_of_isSome h
  · exact bne_zero h

/-- No field of a legal tile copy gives ILLEGAL by itself. -/
theorem TileLegal.tileIllegal_eq (h : TileLegal w i) : i.tileIllegal w = false := by
  obtain ⟨hRes, hCnt, hConv, hPitch, hDesc, hRef⟩ := h
  unfold tileCtl at hRes hCnt hRef
  have hDesc' := tileDesc_legal hDesc
  have hRef' := refOf_legal hRef
  simp only [Issue.tileIllegal, Issue.tileRef, hRes, and_not_of_imp hCnt, Nat.mod_eq_zero_of_dvd hPitch, hDesc', hRef',
    Nat.not_le.2 hConv, decide_false, bne_self_eq_false, Bool.or_self]

/-- A legal tile copy is tried again while an earlier acquire, handle read or access is outstanding. -/
theorem TileLegal.cptDone_outstanding (h : TileLegal w i) (ha : s.acquiring i = true ∨ s.accessing i = true) :
    cptDone w s i = retry s i := by
  refine (if_neg (by simp [h.tileIllegal_eq])).trans (if_pos ha)

/-- The state in which a tile copy reads its handle: older buffered stores to it drained (R92). -/
def State.tileDrained (s : State) (i : Issue) (w : RR) : State :=
  s.engDrain (s.tileOp i w) .read 64 [(i.rd2 i.first w.a.toNat).toNat]

/-- A store or a confirm still holds the read of the handle. -/
def State.tileHeld (s : State) (i : Issue) (w : RR) : Bool :=
  s.engHeld (s.tileOp i w) .read 64 [(i.rd2 i.first w.a.toNat).toNat]

/-- A legal tile copy whose handle has an address in form, with nothing outstanding and no fault to wait for. -/
structure TileTurn (w : RR) (s : State) (i : Issue) : Prop where
  legal : TileLegal w i
  vaForm : (i.rd2 i.first w.a.toNat).extractLsb' 48 16 = 0
  vaAligned : (i.rd2 i.first w.a.toNat).extractLsb' 0 6 = 0
  acquired : s.acquiring i = false
  accessed : s.accessing i = false
  fault : s.tileFault i w = none

namespace TileTurn

/-- The handle of such a copy can be read. -/
theorem tileAt_eq (h : TileTurn w s i) : i.tileAt w = true := by
  simp [Issue.tileAt, h.vaForm, h.vaAligned]

/-- Such a copy drains for its handle, then reads it or is tried again. -/
theorem cptDone_eq (h : TileTurn w s i) : cptDone w s i =
    if (s.tileDrained i w).tileHeld i w then retry (s.tileDrained i w) i
    else tileChecked w i ((s.tileDrained i w).readHandle ((s.tileDrained i w).tileOp i w) (i.rd2 i.first w.a.toNat).toNat) := by
  simp only [cptDone, h.legal.tileIllegal_eq, h.acquired, h.accessed, h.fault, h.tileAt_eq, State.tileRaw, Bool.false_eq_true,
    or_self, ↓reduceIte, Bool.true_and]
  rfl

end TileTurn

/-- What a tile copy checks with its handle read: its reference, its scratchpad address, and its box when the handle is well
formed (R317). -/
structure TileFits (w : RR) (i : Issue) (x : State × Option (List Byte)) : Prop where
  spAligned : (i.tileCmd w).sp.extractLsb' 0 4 = 0
  ref : RefOk x.1 i ((tileCtl w i).getLsbD 30) (i.srcB w i.first)
  noBox : tileBox (i.tileCmd w).conv x.2 = none → (x.1.spMarks i.t (i.tileCmd w).sp 1).isSome
  boxPitch : ∀ h, tileBox (i.tileCmd w).conv x.2 = some h → (i.tileCmd w).pitch ≠ 0 →
    h.boxAt 0 * convSize (i.tileCmd w).conv h.es ≤ (i.tileCmd w).pitch
  boxRange : ∀ h, tileBox (i.tileCmd w).conv x.2 = some h → (x.1.boxMarks i.t (i.tileCmd w) h).isSome

/-- The body of a tile copy's command. -/
def tileBody (w : RR) (i : Issue) (x : State × Option (List Byte)) : OpBody :=
  .tile { i.tileCmd w with
    raw := x.2, marks := ((tileBox (i.tileCmd w).conv x.2).bind fun h => x.1.boxMarks i.t (i.tileCmd w) h).getD [] } []

/-- The rows of the box fit their pitch. -/
theorem TileFits.rows_fit {x : State × Option (List Byte)} (h : TileFits w i x) :
    ((tileBox (i.tileCmd w).conv x.2).any fun b => (i.tileCmd w).pitch != 0 &&
      decide ((i.tileCmd w).pitch < b.boxAt 0 * convSize (i.tileCmd w).conv b.es)) = false := by
  cases hBox : tileBox (i.tileCmd w).conv x.2 with
  | none => rfl
  | some b => simpa using h.boxPitch b hBox

/-- A tile copy that passes its checks is a copy command. -/
theorem TileFits.tileChecked_eq {x : State × Option (List Byte)} (h : TileFits w i x) (hl : TileLegal w i)
    (hv : (i.rd2 i.first w.a.toNat).extractLsb' 48 16 = 0) (ha : (i.rd2 i.first w.a.toNat).extractLsb' 0 6 = 0) :
    tileChecked w i x = copyCommand i x.1 (refTarget x.1 i ((tileCtl w i).getLsbD 30) (i.srcB w i.first))
      ((tileCtl w i).getLsbD 31) .queued (tileBody w i x) := by
  refine (checked_eq ?_).trans ?_
  · simp only [List.mem_cons, List.not_mem_nil, or_false]
    rintro y (rfl | rfl | rfl | rfl | rfl | rfl)
    · exact Bool.or_eq_false_iff.2 ⟨hl.tileIllegal_eq, h.rows_fit⟩
    · exact bne_zero hv
    · cases hBox : tileBox (i.tileCmd w).conv x.2 with
      | none => exact isNone_of_isSome (h.noBox hBox)
      | some b => exact isNone_of_isSome (h.boxRange b hBox)
    · exact bne_zero ha
    · exact bne_zero h.spAligned
    · exact refOk_refBad h.ref
  · rw [← refTarget_eq]
    unfold tileBody
    cases tileBox (i.tileCmd w).conv x.2 <;> rfl

/-- A copy command without room in its queue or on its counter is tried again. -/
theorem copyCommand_full {lat : Option LatchTarget} {cnt : Bool} {stage : Stage} {body : OpBody}
    (h : 64 ≤ (s.copyQueue i.t.cl (i.t.coreOf i.c.gid)).length ∨ 255 ≤ s.counter i.c.uid i.c.gid 0) :
    copyCommand i s lat cnt stage body = retry s i := by
  by_cases hq : 64 ≤ (s.copyQueue i.t.cl (i.t.coreOf i.c.gid)).length
  · exact if_pos hq
  · exact (if_neg hq).trans (command_full (.inl (h.resolve_left hq)))

/-! ## SLD (R137, R320) -/

/-- The skein number of a skein load. -/
def loadSkein (w : RR) (i : Issue) : Nat := ((copyCtl w i).extractLsb' 16 8).toNat

/-- The length of a skein load. -/
def loadLen (w : RR) (i : Issue) : Nat := ((copyCtl w i).extractLsb' 0 16).toNat

/-- A skein load that R320 allows, of a team with this enrolment. -/
structure LoadLegal (w : RR) (s : State) (i : Issue) (e : Enrol) : Prop where
  counted : (copyCtl w i).getLsbD 31 = true → (copyCtl w i).getLsbD 30 = true
  reserved : (copyCtl w i).extractLsb' 24 6 = 0
  skein : loadSkein w i < i.t.hdr.skeins
  least : 256 ≤ loadLen w i
  most : loadLen w i ≤ 32768
  lines : 256 ∣ loadLen w i
  enrolled : i.t.skeins.find? (fun e => e.sk == loadSkein w i) = some e
  vaForm : (i.rd2 i.first w.a.toNat).extractLsb' 48 16 = 0
  vaAligned : (i.rd2 i.first w.a.toNat).extractLsb' 0 8 = 0
  spOwn : (i.rd i.first w.d.toNat).extractLsb' 30 2 = 0
  spRange : (s.spMarks i.t (i.rd i.first w.d.toNat) (loadLen w i)).isSome
  spAligned : (i.rd i.first w.d.toNat).extractLsb' 0 4 = 0
  ref : RefOk s i ((copyCtl w i).getLsbD 30) (i.srcB w i.first)

/-- The state after a skein load has counted in the sequence of its enrolment (R137). -/
def State.loadCounted (s : State) (w : RR) (i : Issue) : State :=
  s.mapTeam i.c.uid fun t => { t with skeins := t.skeins.map fun e => if e.sk = loadSkein w i then { e with k := e.k + 1 } else e }

/-- The command of a skein load. -/
def loadOp (w : RR) (s : State) (i : Issue) (e : Enrol) : EngOp :=
  i.op (s.loadCounted w i) 2 (refTarget s i ((copyCtl w i).getLsbD 30) (i.srcB w i.first)) ((copyCtl w i).getLsbD 31) .queued
    (.skein { launch := i.t.launch, sk := loadSkein w i, k := e.k, va := (i.rd2 i.first w.a.toNat).toNat, len := loadLen w i,
              off := (i.rd i.first w.d.toNat).toNat % 2 ^ 30, sent := false, solo := false, fill := none })

/-- A legal skein load counts in its sequence and goes on its counter, or is tried again. -/
theorem LoadLegal.sldDone_eq {e : Enrol} (h : LoadLegal w s i e) : sldDone w s i =
    if 255 ≤ s.counter i.c.uid i.c.gid 2 ∨ s.acquiring i = true then retry s i
    else nothing ((s.loadCounted w i).addOp (loadOp w s i e)) := by
  have hIllegal : (((copyCtl w i).getLsbD 31 && !(copyCtl w i).getLsbD 30) || (copyCtl w i).extractLsb' 24 6 != 0 ||
      decide (i.t.hdr.skeins ≤ loadSkein w i) || decide (loadLen w i < 256) || decide (32768 < loadLen w i) ||
      loadLen w i % 256 != 0 || ((refOf ((copyCtl w i).getLsbD 30) (i.srcB w i.first)).map refIllegal).getD false ||
      (i.t.skeins.find? fun e => e.sk == loadSkein w i).isNone) = false := by
    rw [and_not_of_imp h.counted, h.reserved, Nat.mod_eq_zero_of_dvd h.lines, refOk_legal h.ref, h.enrolled]
    simp [h.skein, h.least, h.most]
  have hRange : ((i.rd i.first w.d.toNat).extractLsb' 30 2 != 0 ||
      (s.spMarks i.t (i.rd i.first w.d.toNat) (loadLen w i)).isNone) = false := by
    simp [h.spOwn, isNone_of_isSome h.spRange]
  refine (checked_eq ?_).trans ?_
  · simp only [List.mem_cons, List.not_mem_nil, or_false]
    rintro x (rfl | rfl | rfl | rfl | rfl | rfl)
    · exact hIllegal
    · exact bne_zero h.vaForm
    · exact hRange
    · exact bne_zero h.vaAligned
    · exact bne_zero h.spAligned
    · exact refOk_refBad h.ref
  · have hEnrol := h.enrolled
    unfold loadSkein copyCtl at hEnrol
    rw [refTarget_eq, hEnrol]
    split
    · rfl
    · next hf => exact if_neg hf

/-! ## PFR (R65, R309) -/

/-- The latch of a prefetch: operand D, when it names a register. -/
abbrev prefetchRef (w : RR) (i : Issue) : Word := i.rd i.first w.d.toNat

/-- The command of a prefetch. -/
def prefetchOp (w : RR) (s : State) (i : Issue) : EngOp :=
  i.op s 2 (refTarget s i (w.d != 0) (prefetchRef w i)) false (if (i.srcB w i.first).toNat = 0 then .finished else .running)
    (.prefetch (i.rd2 i.first w.a.toNat) (i.srcB w i.first).toNat
      (List.range (lineCount (i.rd2 i.first w.a.toNat).toNat (i.srcB w i.first).toNat)))

/-- A prefetch of a range that R309 allows goes on its counter, or is tried again. -/
theorem pfrDone_legal (hv : (i.rd2 i.first w.a.toNat).extractLsb' 48 16 = 0)
    (hn : (i.rd2 i.first w.a.toNat).toNat + (i.srcB w i.first).toNat ≤ 2 ^ 48) (hr : RefOk s i (w.d != 0) (prefetchRef w i)) :
    pfrDone w s i =
      if 255 ≤ s.counter i.c.uid i.c.gid 2 ∨ s.acquiring i = true then retry s i else nothing (s.addOp (prefetchOp w s i)) := by
  refine (checked_eq ?_).trans (by rw [refTarget_eq]; rfl)
  simp only [List.mem_cons, List.not_mem_nil, or_false]
  rintro x (rfl | rfl | rfl | rfl)
  · exact refOk_legal hr
  · exact bne_zero hv
  · exact decide_eq_false (Nat.not_lt.2 hn)
  · exact refOk_refBad hr

end

/-- Settles O27: each word by the equation of its body under the checks of its operand block. -/
theorem copyWords : Obligations.CopyWords := by
  unfold Obligations.CopyWords
  refine ⟨?_, ?_, ?_, ?_⟩
  · intro row hrow w
    simp only [List.mem_cons, List.not_mem_nil, or_false] at hrow
    obtain rfl | rfl := hrow
    all_goals
      refine queues_of (fun _ => rfl) fun s i _ h => ?_
      obtain ⟨hRes, hCnt, hParts, hVa, hVaAl, hSpAl, hSp, hRef, hRoom⟩ := h
      exact CopyLegal.cpDone_eq ⟨hRes, hCnt, hParts, hVa, hVaAl, hSpAl, hSp, hRef, hRoom⟩ _
  · intro w s i r ctl conv desc pitch hva b y x s1 box h hRes hCnt hConv hPitch hDesc hRef
    have hLegal : TileLegal w i := ⟨hRes, hCnt, hConv, hPitch, hDesc, hRef⟩
    refine ⟨fun ha => retries_of (fun _ => rfl) h (hLegal.cptDone_outstanding ha), fun hVa hVaAl hAcq hAcc hFault => ?_⟩
    have hBody := (TileTurn.mk hLegal hVa hVaAl hAcq hAcc hFault).cptDone_eq
    refine ⟨fun hHeld => retries_of (fun _ => rfl) h (hBody.trans (if_pos hHeld)), fun hFree hSpAl hRef1 hBox => ?_⟩
    have hFits : TileFits w i x :=
      { spAligned := hSpAl
        ref := hRef1
        noBox := fun hb => by rw [show box = none from hb] at hBox; exact hBox
        boxPitch := fun t hb => by rw [show box = some t from hb] at hBox; exact hBox.1
        boxRange := fun t hb => by rw [show box = some t from hb] at hBox; exact hBox.2 }
    have hCommand := (hBody.trans (if_neg (by rw [Bool.not_eq_true]; exact hFree))).trans (hFits.tileChecked_eq hLegal hVa hVaAl)
    exact ⟨fun hq hc ha => ends_nothing (fun _ => rfl) h (hCommand.trans (copyCommand_eq hc ha hq)),
      fun hFull => retries_of (fun _ => rfl) h (hCommand.trans (copyCommand_full hFull))⟩
  · intro w ctl sk len va sp s i e h hCnt hRes hSk hLeast hMost hLines hEnrol hVa hVaAl hOwn hSp hSpAl hRef
    have hBody := LoadLegal.sldDone_eq ⟨hCnt, hRes, hSk, hLeast, hMost, hLines, hEnrol, hVa, hVaAl, hOwn, hSp, hSpAl, hRef⟩
    refine ⟨fun hf => retries_of (fun _ => rfl) h (hBody.trans (if_pos hf)), fun hc ha => ?_⟩
    exact ends_nothing (fun _ => rfl) h (hBody.trans (if_neg (by simp [Nat.not_le.2 hc, ha])))
  · intro w va len
    exact queues_of (fun _ => rfl) fun s i _ ⟨hVa, hEnd, hRef⟩ => pfrDone_legal hVa hEnd hRef

end Sys2Proof.Machine

/-! PROOFS. The four words of skn (O28). -/

namespace Sys2Proof.Machine

open Sys2Proof

section
variable {w : RM} {s : State} {i : Issue} {k : Skein} {sk : Nat}

/-! ## The checks (R321) -/

/-- The operand of DECL needs a skein number that the kernel has. -/
theorem sknOk_decl {x : Word} (h : (x.extractLsb' 0 8).toNat < i.t.hdr.skeins) : sknOk 0 i x = true := by
  simp only [sknOk, h, decide_true, BEq.rfl, Bool.true_or, Bool.and_self]

/-- The operand of the other three has its upper bits zero too. -/
theorem sknOk_reserved {x : Word} (m : Nat) (h : (x.extractLsb' 0 8).toNat < i.t.hdr.skeins) (hz : x.extractLsb' 8 24 = 0) :
    sknOk m i x = true := by
  simp only [sknOk, h, hz, decide_true, BEq.rfl, Bool.or_true, Bool.and_self]

/-- A skein word that gives a status in D and leaves a state. -/
def sknGive (w : RM) (r : State × Word) : Done := { nothing r.1 with res := fun _ => [(w.d.toNat, r.2)] }

theorem sknDone_decl (h : sknOk 0 i (i.srcA w i.first) = true) : sknDone 0 w s i =
    sknGive w (s.skeinDecl i.t.launch ((i.srcA w i.first).extractLsb' 0 8).toNat
      (((i.srcA w i.first).extractLsb' 8 8).toNat + 1) ((i.srcA w i.first).extractLsb' 16 16).toNat) :=
  if_neg (by simp [h])

theorem sknDone_join (h : sknOk 1 i (i.srcA w i.first) = true) : sknDone 1 w s i =
    sknGive w (s.skeinJoin i.t ((i.srcA w i.first).extractLsb' 0 8).toNat) :=
  if_neg (by simp [h])

theorem sknDone_leave (h : sknOk 2 i (i.srcA w i.first) = true) : sknDone 2 w s i =
    sknGive w (s.skeinLeave i.t ((i.srcA w i.first).extractLsb' 0 8).toNat) :=
  if_neg (by simp [h])

theorem sknDone_stat (h : sknOk 3 i (i.srcA w i.first) = true) : sknDone 3 w s i =
    { nothing s with res := fun _ => pairOf w.d.toNat (s.skeinStat i.t.launch ((i.srcA w i.first).extractLsb' 0 8).toNat) } :=
  if_neg (by simp [h])

/-- A skein word whose body gives a status ends with it in D. -/
theorem ends_sknGive {word : Instr} {litOk : Issue → Word → Bool} {body : State → Issue → Done} {st : State} {r : Word}
    (hx : ∀ s, exec word s = issueWith word.view litOk asIs body s) (h : InHand word litOk asIs s i) {y : State × Word}
    (hb : body s i = sknGive w y) (hy : y = (st, r)) : Ends word asIs s i st { out := fun _ => [(w.d.toNat, r)] } :=
  ends_gives hx h (by rw [hb, hy]; rfl)

/-! ## Declaration, enrolment and withdrawal (R135, R136, R321) -/

theorem State.skeinDecl_declared {launch n tmo : Nat} (hk : s.skein? launch sk = some k) :
    s.skeinDecl launch sk n tmo = (s, if k.n = n ∧ k.tmo = tmo then 0 else 1) := by
  simp only [State.skeinDecl, hk]

theorem State.skeinDecl_undeclared {launch n tmo : Nat} (hk : s.skein? launch sk = none) :
    s.skeinDecl launch sk n tmo = (s.mapLaunch launch fun l => { l with
      skeins := l.skeins ++ [{ sk := sk, n := n, tmo := tmo, members := [], timedOut := 0, late := 0, discarded := 0 }] }, 0) := by
  simp only [State.skeinDecl, hk]

variable {t : Team}

theorem State.skeinJoin_undeclared (hk : s.skein? t.launch sk = none) : s.skeinJoin t sk = (s, 3) := by
  simp only [State.skeinJoin, hk]

theorem State.skeinJoin_enrolled (hk : s.skein? t.launch sk = some k) (hm : t.uid ∈ k.members) : s.skeinJoin t sk = (s, 1) := by
  simp only [State.skeinJoin, hk, List.contains_iff_mem, if_pos hm]

theorem State.skeinJoin_full (hk : s.skein? t.launch sk = some k) (hm : t.uid ∉ k.members) (hn : k.n ≤ k.members.length) :
    s.skeinJoin t sk = (s, 2) := by
  simp only [State.skeinJoin, hk, List.contains_iff_mem, if_neg hm, if_pos hn]

theorem State.skeinJoin_room (hk : s.skein? t.launch sk = some k) (hm : t.uid ∉ k.members) (hn : ¬ k.n ≤ k.members.length) :
    s.skeinJoin t sk = ((s.mapSkein t.launch sk fun k => { k with members := k.members ++ [t.uid] }).mapTeam t.uid
      fun t => { t with skeins := t.skeins ++ [{ sk := sk, k := 0 }] }, 0) := by
  simp only [State.skeinJoin, hk, List.contains_iff_mem, if_neg hm, if_neg hn]

theorem State.skeinLeave_undeclared (hk : s.skein? t.launch sk = none) : s.skeinLeave t sk = (s, 3) := by
  simp only [State.skeinLeave, hk]

theorem State.skeinLeave_stranger (hk : s.skein? t.launch sk = some k) (hm : t.uid ∉ k.members) : s.skeinLeave t sk = (s, 1) := by
  simp [State.skeinLeave, hk, hm]

theorem State.skeinLeave_enrolled (hk : s.skein? t.launch sk = some k) (hm : t.uid ∈ k.members) :
    s.skeinLeave t sk = ((s.mapSkein t.launch sk fun k => { k with members := k.members.erase t.uid }).mapTeam t.uid
      fun t => { t with skeins := t.skeins.filter fun e => e.sk != sk }, 0) := by
  simp [State.skeinLeave, hk, hm]

end

/-- Settles O28: each minor by the equation of its body, a case for each status. -/
theorem skeinWords : Obligations.SkeinWords := by
  unfold Obligations.SkeinWords
  intro w s i x sk gives hsk
  refine ⟨fun h => ?_, fun h hz => ?_, fun h hz => ?_, fun h hz => ?_⟩
  · have hBody := sknDone_decl (s := s) (sknOk_decl hsk)
    split
    · next k hk => exact ends_sknGive (fun _ => rfl) h hBody (State.skeinDecl_declared hk)
    · next hk => exact ends_sknGive (fun _ => rfl) h hBody (State.skeinDecl_undeclared hk)
  · have hBody := sknDone_join (s := s) (sknOk_reserved 1 hsk hz)
    split
    · next hk => exact ends_sknGive (fun _ => rfl) h hBody (State.skeinJoin_undeclared hk)
    · next k hk =>
      split_ifs with hm hn
      · exact ends_sknGive (fun _ => rfl) h hBody (State.skeinJoin_enrolled hk hm)
      · exact ends_sknGive (fun _ => rfl) h hBody (State.skeinJoin_full hk hm hn)
      · exact ends_sknGive (fun _ => rfl) h hBody (State.skeinJoin_room hk hm hn)
  · have hBody := sknDone_leave (s := s) (sknOk_reserved 2 hsk hz)
    split
    · next hk => exact ends_sknGive (fun _ => rfl) h hBody (State.skeinLeave_undeclared hk)
    · next k hk =>
      split_ifs with hm
      · exact ends_sknGive (fun _ => rfl) h hBody (State.skeinLeave_enrolled hk hm)
      · exact ends_sknGive (fun _ => rfl) h hBody (State.skeinLeave_stranger hk hm)
  · exact ends_out (fun _ => rfl) h (sknDone_stat (sknOk_reserved 3 hsk hz)) fun _ => pairOf_nodup _ _

end Sys2Proof.Machine

/-! PROOFS. The words on queue registers (O31). -/

namespace Sys2Proof.Machine

open Sys2Proof

/-- A word whose body traps the whole subset with the state as it is. -/
theorem traps_allTrap_unchanged {s : State} {i : Issue} {word : Instr} {litOk : Issue → Word → Bool} {body : State → Issue → Done}
    {cause : Nat} {datum : Word} (hx : ∀ s, exec word s = issueWith word.view litOk asIs body s) (h : InHand word litOk asIs s i)
    (hc : CanTrap i) (hb : body s i = allTrap s cause datum) :
    ∃ s', exec word s = .next s' ∧ TrapLands s s' i fun _ => (cause, datum) := by
  have hTrap := traps_allTrap (f := fun g => g) hx h hc (by rw [State.mapGroup_id]; exact hb) rfl
  rwa [State.mapGroup_id] at hTrap

/-! ## BIND (R142) -/

/-- KIND of a PEER out descriptor. -/
theorem portKind_toNat_eq {x : BitVec 4} : x.toNat = 5 ↔ x = 5 := by
  rw [← BitVec.toNat_inj]; rfl

/-- The queue that a BIND of a descriptor makes: its target is the placement that a PEER out descriptor names. -/
def State.boundQueue (s : State) (t : Team) (p : Word) : Queue :=
  { bind := p, target := if p.extractLsb' 28 4 = 5 then ((s.portTarget t p).map (·.uid)).getD 0 else 0, words := [] }

/-- BIND of a descriptor that R142 allows. -/
theorem qopBindDone_allowed {w : RM} {s : State} {i : Issue} (hp : portIllegal (i.srcA w i.first) = false)
    (hb : bindRefused i.t i.g w.d.toNat (i.srcA w i.first) = false)
    (ho : (i.srcA w i.first).extractLsb' 28 4 = 5 → (s.portTarget i.t (i.srcA w i.first)).isSome) :
    qopBindDone w s i = nothing (s.setQueue i.c.uid i.c.gid w.d.toNat (s.boundQueue i.t (i.srcA w i.first))) := by
  have hTarget : ¬ (((i.srcA w i.first).extractLsb' 28 4 = 5 ∧ (s.portTarget i.t (i.srcA w i.first)).isNone = true) ∨
      bindRefused i.t i.g w.d.toNat (i.srcA w i.first) = true) := by
    rintro (⟨hOut, hNone⟩ | hRefused)
    · rw [isNone_of_isSome (ho hOut)] at hNone; cases hNone
    · rw [hb] at hRefused; cases hRefused
  simp only [qopBindDone, hp, portKind_toNat_eq, Bool.false_eq_true, ↓reduceIte, if_neg hTarget]
  rfl

section
variable {w : RN} {s : State} {i : Issue}

/-! ## QPUSH (R143, R325) -/

/-- The words that a QPUSH appends, in ascending order of the threads. -/
def pushedWords (w : RN) (i : Issue) : List Word := i.runners.map fun k => if w.l then i.lit else i.rd k w.a.toNat

/-- The state after a QPUSH. -/
def State.pushed (s : State) (w : RN) (i : Issue) : State :=
  { s.setQueue i.c.uid i.c.gid w.m.toNat { i.g.queue w.m.toNat with
      words := (i.g.queue w.m.toNat).words ++ (pushedWords w i).map fun x => (x, false),
      stamps := (i.g.queue w.m.toNat).stamps ++ List.replicate (pushedWords w i).length s.nextId } with
    nextId := s.nextId + 1 }

/-- QPUSH to a queue that is no PEER out queue traps. -/
theorem qpushDone_unbound (hk : (i.g.queue w.m.toNat).kind ≠ 5) : qpushDone w s i = allTrap s cQueue (queueDatum w.m.toNat) :=
  if_pos hk

/-- QPUSH waits for room. -/
theorem qpushDone_full (hk : (i.g.queue w.m.toNat).kind = 5)
    (hn : 64 < (i.g.queue w.m.toNat).words.length + (pushedWords w i).length) :
    qpushDone w s i = waitFor s (.qpush w.m.toNat) :=
  (if_neg (not_not_intro hk)).trans (if_pos hn)

/-- QPUSH with room releases first. -/
theorem qpushDone_room (hk : (i.g.queue w.m.toNat).kind = 5)
    (hn : (i.g.queue w.m.toNat).words.length + (pushedWords w i).length ≤ 64) :
    qpushDone w s i = releaseWord i s (s.peerClass i (i.g.queue w.m.toNat)) (nothing (s.pushed w i)) :=
  (if_neg (not_not_intro hk)).trans (if_neg (Nat.not_lt.2 hn))

/-! ## QPOP (R39, R143, R325) -/

/-- The words that a QPOP takes. -/
def poppedWords (w : RN) (i : Issue) : List (Word × Bool) := (i.g.queue w.m.toNat).words.take i.runners.length

/-- The state after a QPOP has taken its words; the freshness floor rises where one came from another core (R83). -/
def State.popped (s : State) (w : RN) (i : Issue) : State :=
  let st := s.setQueue i.c.uid i.c.gid w.m.toNat
    { i.g.queue w.m.toNat with words := (i.g.queue w.m.toNat).words.drop i.runners.length }
  if (i.g.queue w.m.toNat).kind = 4 ∧ (poppedWords w i).any (·.2) then st.raiseFfl i.c.uid i.c.gid s.now else st

/-- What a QPOP writes in a thread. -/
def popOut (w : RN) (i : Issue) (k : Nat) : List (Nat × Word) :=
  (((i.runners.zip (poppedWords w i)).find? fun x => x.1 == k).map fun x => (w.d.toNat, x.2.1)).toList

/-- A QPOP writes one register at most. -/
theorem popOut_nodup (k : Nat) : ((popOut w i k).map (·.1)).Nodup := by
  unfold popOut
  cases (i.runners.zip (poppedWords w i)).find? fun x => x.1 == k <;> simp

/-- Taking words leaves the number of the QPOP. -/
theorem popNumber_popped : i.popNumber (s.popped w i) = i.popNumber s := by
  have hNext : (s.popped w i).nextId = s.nextId := by
    unfold State.popped
    split <;> rfl
  simp only [Issue.popNumber, hNext]

/-- QPOP from a NULL or a PEER out queue traps. -/
theorem qpopDone_unbound (hk : (i.g.queue w.m.toNat).kind = 0 ∨ (i.g.queue w.m.toNat).kind = 5) :
    qpopDone w s i = allTrap s cQueue (queueDatum w.m.toNat) :=
  if_pos hk

section
variable (hk : ¬ ((i.g.queue w.m.toNat).kind = 0 ∨ (i.g.queue w.m.toNat).kind = 5))
include hk

/-- QPOP from a queue with too few words waits, or traps when E is set. -/
theorem qpopDone_short (hn : (i.g.queue w.m.toNat).words.length < i.runners.length) : qpopDone w s i =
    if w.ea then allTrap s cRegEmpty (queueDatum w.d.toNat) else waitFor (s.emptyPop i w.d.toNat) (.qpop w.m.toNat) :=
  (if_neg hk).trans (if_pos hn)

/-- QPOP from a queue with words enough takes them, and writes them unless a later producer has passed it. -/
theorem qpopDone_enough (hn : i.runners.length ≤ (i.g.queue w.m.toNat).words.length) : qpopDone w s i =
    if i.v.u ∧ i.popPassed w.d.toNat (i.popNumber (s.popped w i)) then nothing (s.popped w i)
    else { nothing (if i.v.u then (s.popped w i).mapGroup i.c.uid i.c.gid fun g =>
             g.voidPops w.d.toNat (i.popNumber (s.popped w i)) else s.popped w i) with res := popOut w i } :=
  (if_neg hk).trans (if_neg (Nat.not_lt.2 hn))

end

end

/-- Settles O31: each word by the equations of its body. (`queueWords` is the capacity of a queue register, R141.) -/
theorem queueWords_hold : Obligations.QueueWords := by
  unfold Obligations.QueueWords
  intro s i
  refine ⟨fun w => ⟨fun h hp hb ho => ?_, fun h => ?_, fun h => ?_⟩, fun w => ⟨fun h hk =>
    ⟨fun hn hm => ?_, fun hn hm => ?_, fun hn => ?_⟩, fun h hk hc => ?_, fun h hk hc => ?_, fun h h0 h5 => ?_⟩⟩
  · exact ends_nothing (fun _ => rfl) h (qopBindDone_allowed hp hb ho)
  · exact ends_nothing (fun _ => rfl) h rfl
  · exact ends_gives (fun _ => rfl) h rfl
  · exact ends_nothing (fun _ => rfl) h ((qpushDone_room hk hn).trans (releaseWord_eq hm _))
  · exact retries_of (fun _ => rfl) h ((qpushDone_room hk hn).trans (releaseWord_waits hm _))
  · exact waits_of (fun _ => rfl) h (qpushDone_full hk hn)
  · exact traps_allTrap_unchanged (fun _ => rfl) h hc (qpushDone_unbound hk)
  · exact traps_allTrap_unchanged (fun _ => rfl) h hc (qpopDone_unbound hk)
  · have hBound : ¬ ((i.g.queue w.m.toNat).kind = 0 ∨ (i.g.queue w.m.toNat).kind = 5) := not_or.2 ⟨h0, h5⟩
    refine ⟨fun hn hu hp => ?_, fun hn hp => ?_, fun hn he => ?_, fun hn he hc => ?_⟩
    · rw [← popNumber_popped (w := w)] at hp
      exact ends_nothing (fun _ => rfl) h ((qpopDone_enough hBound hn).trans (if_pos ⟨hu, hp⟩))
    · have hWrites : ¬ (i.v.u = true ∧ i.popPassed w.d.toNat (i.popNumber (s.popped w i)) = true) := by
        rintro ⟨hu, hPassed⟩
        rw [popNumber_popped, hp hu] at hPassed
        cases hPassed
      exact ends_out (fun _ => rfl) h ((qpopDone_enough hBound hn).trans (if_neg hWrites)) popOut_nodup
    · exact waits_of (fun _ => rfl) h ((qpopDone_short hBound hn).trans (if_neg (by simp [he])))
    · exact traps_allTrap_unchanged (fun _ => rfl) h hc ((qpopDone_short hBound hn).trans (if_pos he))

end Sys2Proof.Machine

/-! PROOFS. The six words of hyp (O32). -/

namespace Sys2Proof.Machine

open Sys2Proof

/-! ## How a word of hyp ends (R152) -/

section
variable {word : Instr} {s : State} {i : Issue} {litOk : Issue → Word → Bool} {body : State → Issue → Done} {st : State}

/-- A word that gives its result ends with it in D. -/
theorem ends_hypGive {d : BitVec 6} {x : Word} (hx : ∀ s, exec word s = issueWith word.view litOk asIs body s)
    (h : InHand word litOk asIs s i) (hb : body s i = hypGive st d x) :
    Ends word asIs s i st { out := fun _ => [(d.toNat, x)] } :=
  ends_gives hx h hb

/-- A word that gives its result and moves its threads. -/
theorem ends_hypGive_edit {d : BitVec 6} {x : Word} {f : Nat → Thread → Thread}
    (hx : ∀ s, exec word s = issueWith word.view litOk asIs body s) (h : InHand word litOk asIs s i)
    (hb : body s i = { hypGive st d x with edit := f }) :
    Ends word asIs s i st { out := fun _ => [(d.toNat, x)], edit := f } :=
  ends_of hx h (by rw [hb]; rfl) (by rw [hb]; intro _ _; rfl)
    (by rw [hb]; exact apart_res _ _ _ _ _ _ _ _ _ _ (single_nodup _ _)) (by rw [hb]; rfl) (by rw [hb]; rfl)

/-- A word that has begun and holds sectors while it stalls (R159). -/
theorem stalls_of_holds {result : Word} {waitUntil : Nat} {holds : List Nat}
    (hx : ∀ s, exec word s = issueWith word.view litOk asIs body s) (h : InHand word litOk asIs s i)
    (hb : body s i = stallFor st i result waitUntil holds) : Stalls word s i st result waitUntil holds := by
  rw [Stalls, exec_clear hx h, hb]
  rfl

end

/-- A result word of OK is its low part. -/
theorem hypResult_ok (low : Nat) : hypResult hOk low = BitVec.ofNat 32 low := by
  simp only [hypResult, hOk, Nat.zero_mul, Nat.zero_add]

/-- A result word without a low part is its status. -/
theorem hypResult_status (st : Nat) : hypResult st 0 = BitVec.ofNat 32 (st * 2 ^ 28) := by
  simp only [hypResult, Nat.add_zero]

section
variable {w : RM} {s : State} {i : Issue}

/-! ## NEW (R154) -/

/-- The lowest ID that is free. -/
def Slot.lowestFree (sl : Slot) : Option Nat := (List.range 256).find? fun id => id != 0 && (sl.hyp id).st == .free

/-- The depth of the subset's hypothesis; that of the root is 0. -/
def State.subsetDepth (s : State) (i : Issue) : Nat :=
  if i.subsetHyp = 0 then 0 else ((s.slot i.t.slot).hyp (hypId i.subsetHyp)).depth

/-- The slot after ID `id` has become a live child of the subset's hypothesis. -/
def State.newHyp (s : State) (i : Issue) (id : Nat) : State :=
  s.mapSlot i.t.slot fun sl =>
    sl.setHyp { (s.slot i.t.slot).hyp id with st := .live, parent := i.subsetHyp, depth := s.subsetDepth i + 1 }

/-- NEW under a parent that is not live gives the parent's status. -/
theorem hypNewDone_dead (hm : i.subsetHyp ≠ 0) (hd : (s.slot i.t.slot).hypStatus i.subsetHyp ≠ 0) :
    hypNewDone w s i = hypGive s w.d (BitVec.ofNat 32 ((s.slot i.t.slot).hypStatus i.subsetHyp * 2 ^ 28)) := by
  simp only [hypNewDone, if_neg hm, hypResult_status]
  exact if_pos hd

section
variable (hl : i.subsetHyp = 0 ∨ (s.slot i.t.slot).hypStatus i.subsetHyp = 0)
include hl

/-- NEW under the root or a live parent tests the depth first (log 65), then the room and HYPEN. -/
theorem hypNewDone_live : hypNewDone w s i =
    if 15 ≤ s.subsetDepth i then hypGive s w.d (BitVec.ofNat 32 (7 * 2 ^ 28))
    else match (s.slot i.t.slot).lowestFree, (s.slot i.t.slot).xctl.getLsbD 1 with
      | some id, true => hypGive (s.newHyp i id) w.d (BitVec.ofNat 32 (hypHandle id ((s.slot i.t.slot).hyp id).gen).toNat)
      | _, _ => hypGive s w.d (BitVec.ofNat 32 (6 * 2 ^ 28)) := by
  have hOkParent : ¬ (if i.subsetHyp = 0 then hOk else (s.slot i.t.slot).hypStatus i.subsetHyp) ≠ hOk := by
    rcases hl with h | h
    · simp [h]
    · simp [h, hOk]
  simp only [hypNewDone, if_neg hOkParent, hypResult_status, hypResult_ok]
  rfl

variable (hd : s.subsetDepth i < 15)
include hd

/-- NEW with no free ID gives FULL. -/
theorem hypNewDone_noId (hf : (s.slot i.t.slot).lowestFree = none) :
    hypNewDone w s i = hypGive s w.d (BitVec.ofNat 32 (6 * 2 ^ 28)) := by
  rw [hypNewDone_live hl, if_neg (Nat.not_le.2 hd), hf]

/-- NEW with HYPEN 0 gives FULL. -/
theorem hypNewDone_disabled (he : (s.slot i.t.slot).xctl.getLsbD 1 = false) :
    hypNewDone w s i = hypGive s w.d (BitVec.ofNat 32 (6 * 2 ^ 28)) := by
  rw [hypNewDone_live hl, if_neg (Nat.not_le.2 hd), he]
  cases (s.slot i.t.slot).lowestFree <;> rfl

/-- NEW takes the lowest free ID and gives its handle. -/
theorem hypNewDone_child {id : Nat} (hf : (s.slot i.t.slot).lowestFree = some id) (he : (s.slot i.t.slot).xctl.getLsbD 1 = true) :
    hypNewDone w s i = hypGive (s.newHyp i id) w.d (BitVec.ofNat 32 (hypHandle id ((s.slot i.t.slot).hyp id).gen).toNat) := by
  rw [hypNewDone_live hl, if_neg (Nat.not_le.2 hd), hf, he]

end

/-! ## ENTER and STAT (R155, R158) -/

/-- The status of an ENTER: the root is always entered. -/
def Slot.enterStatus (sl : Slot) (h : Word) : Nat := if h = 0 then 0 else sl.hypStatus h

section
variable (hk : handleOk (i.srcA w i.first) = true)
include hk

/-- ENTER of a handle: its status, and the move of the threads when it is OK. -/
theorem hypEnterDone_eq : hypEnterDone w s i =
    { hypGive s w.d (BitVec.ofNat 32 ((s.slot i.t.slot).enterStatus (i.srcA w i.first) * 2 ^ 28)) with
      edit := fun _ th => if (s.slot i.t.slot).enterStatus (i.srcA w i.first) = 0 then
        { th with hyp := i.srcA w i.first } else th } := by
  have hEnter : hypEnterDone w s i =
      if (s.slot i.t.slot).enterStatus (i.srcA w i.first) = 0 then
        { hypGive s w.d (hypResult ((s.slot i.t.slot).enterStatus (i.srcA w i.first)) 0) with
          edit := fun _ th => { th with hyp := i.srcA w i.first } }
      else hypGive s w.d (hypResult ((s.slot i.t.slot).enterStatus (i.srcA w i.first)) 0) := if_neg (by simp [hk])
  rw [hEnter, hypResult_status]
  by_cases hs : (s.slot i.t.slot).enterStatus (i.srcA w i.first) = 0
  · simp only [hs, ↓reduceIte]
  · simp only [hs, ↓reduceIte]
    rfl

/-- STAT of a handle: depth and parent of a live one, its status otherwise. -/
theorem hypStatDone_eq : hypStatDone w s i = hypGive s w.d (BitVec.ofNat 32
    (if (s.slot i.t.slot).hypStatus (i.srcA w i.first) = 0 then
      ((s.slot i.t.slot).hyp (hypId (i.srcA w i.first))).depth * 2 ^ 24 + ((s.slot i.t.slot).hyp (hypId (i.srcA w i.first))).parent.toNat
    else (s.slot i.t.slot).hypStatus (i.srcA w i.first) * 2 ^ 28)) := by
  simp only [hypStatDone, hk, hypResult_ok, hypResult_status, Bool.not_true, Bool.false_eq_true, ↓reduceIte]
  exact congrArg _ (apply_ite _ _ _ _).symm

/-! ## REFUTE (R157, R159) -/

/-- REFUTE releases before anything else. -/
theorem hypRefuteDone_waits (hr : ¬ MayRelease s i .device) :
    hypRefuteDone w s i = retry (s.beginRelease i.t.cl (i.t.coreOf i.c.gid) i.c.uid i.c.gid .device) i := by
  rw [hypRefuteDone, if_neg (by simp [hk]), releaseWord_waits hr]

/-- REFUTE, its release done, of a handle that is not live. -/
theorem hypRefuteDone_dead (hr : MayRelease s i .device) (hs : (s.slot i.t.slot).hypStatus (i.srcA w i.first) ≠ 0) :
    hypRefuteDone w s i = hypReturn w s i (BitVec.ofNat 32 ((s.slot i.t.slot).hypStatus (i.srcA w i.first) * 2 ^ 28)) := by
  rw [hypRefuteDone, if_neg (by simp [hk]), releaseWord_eq hr, ← hypResult_status]
  exact if_pos hs

/-- REFUTE, its release done, of a live handle refutes its subtree and counts it. -/
theorem hypRefuteDone_live (hr : MayRelease s i .device) (hs : (s.slot i.t.slot).hypStatus (i.srcA w i.first) = 0) :
    hypRefuteDone w s i = hypReturn w (s.refuteTree i.t.slot (hypId (i.srcA w i.first)) .refuted).1 i
      (BitVec.ofNat 32 (s.refuteTree i.t.slot (hypId (i.srcA w i.first)) .refuted).2) := by
  rw [hypRefuteDone, if_neg (by simp [hk]), releaseWord_eq hr, ← hypResult_ok]
  exact if_neg (not_not_intro hs)

end

/-! ## CONFIRM (R156, R159) -/

/-- A CONFIRM that has begun returns when its time has come. -/
theorem hypConfirmDone_begun {y : Stall} (hb : i.begun = some y) : hypConfirmDone w s i =
    if s.now < y.waitUntil then stallFor s i y.result y.waitUntil y.holds else hypReturn w s i y.result := by
  simp only [hypConfirmDone, hb]

/-- What CONFIRM of a live handle does with the published hypothesis `r`: the state, the count and the time. -/
def confirmEnd (w : RM) (s : State) (i : Issue) (r : State × Nat × Nat) : Done :=
  if (s.liveHyp i.t.slot (i.srcA w i.first)).isSome ∧ r.2.1 = 0 then hypReturn w r.1 i (hypResult hCapacity 0)
  else if ((s.slot i.t.slot).hyp (hypId (i.srcA w i.first))).parent == 0 then
    stallFor r.1 i (hypResult hOk r.2.1) (r.2.2 + Config.skew) (s.hypSectors i.t.slot (hypId (i.srcA w i.first)))
  else hypReturn w r.1 i (hypResult hOk r.2.1)

section
variable (hb : i.begun = none) (hk : handleOk (i.srcA w i.first) = true)
include hb hk

/-- CONFIRM releases before anything else. -/
theorem hypConfirmDone_waits (hr : ¬ MayRelease s i .device) :
    hypConfirmDone w s i = retry (s.beginRelease i.t.cl (i.t.coreOf i.c.gid) i.c.uid i.c.gid .device) i := by
  simp only [hypConfirmDone, hb, hk, Bool.not_true, Bool.false_eq_true, ↓reduceIte, releaseWord_waits hr]

/-- CONFIRM, its release done, of a handle that is not live. -/
theorem hypConfirmDone_dead (hr : MayRelease s i .device) (hs : (s.slot i.t.slot).hypStatus (i.srcA w i.first) ≠ 0) :
    hypConfirmDone w s i = hypReturn w s i (BitVec.ofNat 32 ((s.slot i.t.slot).hypStatus (i.srcA w i.first) * 2 ^ 28)) := by
  simp only [hypConfirmDone, hb, hk, Bool.not_true, Bool.false_eq_true, ↓reduceIte, releaseWord_eq hr, hypResult_status]
  exact if_pos hs

/-- CONFIRM, its release done, of a live handle publishes it. -/
theorem hypConfirmDone_live (hr : MayRelease s i .device) (hs : (s.slot i.t.slot).hypStatus (i.srcA w i.first) = 0) :
    hypConfirmDone w s i = confirmEnd w s i (s.confirm i.t.slot (hypId (i.srcA w i.first))) := by
  simp only [hypConfirmDone, hb, hk, Bool.not_true, Bool.false_eq_true, ↓reduceIte, releaseWord_eq hr]
  exact if_neg (not_not_intro hs)

end

section
variable {r : State × Nat × Nat}

/-- A confirm that found the store full gives CAPACITY. -/
theorem confirmEnd_full (hl : (s.liveHyp i.t.slot (i.srcA w i.first)).isSome) (hn : r.2.1 = 0) :
    confirmEnd w s i r = hypReturn w r.1 i (BitVec.ofNat 32 (3 * 2 ^ 28)) := by
  rw [confirmEnd, if_pos ⟨hl, hn⟩, hypResult_status]
  rfl

/-- A confirm into a hypothesis returns its count at once. -/
theorem confirmEnd_inner (hn : r.2.1 ≠ 0) (hp : ((s.slot i.t.slot).hyp (hypId (i.srcA w i.first))).parent ≠ 0) :
    confirmEnd w s i r = hypReturn w r.1 i (BitVec.ofNat 32 r.2.1) := by
  rw [confirmEnd, if_neg (fun h => hn h.2), if_neg (by simpa using hp), hypResult_ok]

/-- A confirm into the root stalls until what it wrote has settled, its sectors held (R94). -/
theorem confirmEnd_root (hn : r.2.1 ≠ 0) (hp : ((s.slot i.t.slot).hyp (hypId (i.srcA w i.first))).parent = 0) :
    confirmEnd w s i r = stallFor r.1 i (BitVec.ofNat 32 r.2.1) (r.2.2 + 2) (s.hypSectors i.t.slot (hypId (i.srcA w i.first))) := by
  rw [confirmEnd, if_neg (fun h => hn h.2), if_pos (by simpa using hp), hypResult_ok]
  rfl

end

end

/-- Settles O32: each word by the equations of its body, a case for each status. -/
theorem hypothesisWords : Obligations.HypothesisWords := by
  unfold Obligations.HypothesisWords
  intro w s i sl gives floor h
  refine ⟨fun hIn => ⟨fun hm hd => ?_, fun hl hd => ?_, fun hl hd => ?_⟩, fun hIn hk => ?_, fun hIn => ?_, fun hIn hk => ?_,
    fun word hw hIn hb hk hr => ?_, fun hIn hk hr => ⟨fun hs => ?_, fun hs => ?_⟩,
    fun hIn => ⟨fun hb hk hr => ⟨fun hs => ?_, fun hs hl hn => ?_, fun hs hn hp => ?_, fun hs hn hp => ?_⟩,
      fun y hb => ⟨fun ht => ?_, fun ht => ?_⟩⟩⟩
  · exact ends_hypGive (fun _ => rfl) hIn (hypNewDone_dead hm hd)
  · exact ends_hypGive (fun _ => rfl) hIn ((hypNewDone_live hl).trans (if_pos hd))
  · split
    · next hf => exact ends_hypGive (fun _ => rfl) hIn (hypNewDone_noId hl hd hf)
    · next id hf =>
      by_cases he : sl.xctl.getLsbD 1 = true
      · rw [if_pos he]
        exact ends_hypGive (fun _ => rfl) hIn (hypNewDone_child hl hd hf he)
      · rw [if_neg he]
        exact ends_hypGive (fun _ => rfl) hIn (hypNewDone_disabled hl hd (Bool.eq_false_iff.2 he))
  · exact ends_hypGive_edit (fun _ => rfl) hIn (hypEnterDone_eq hk)
  · exact ends_hypGive_edit (body := hypLeaveDone w) (fun _ => rfl) hIn rfl
  · exact ends_hypGive (fun _ => rfl) hIn (hypStatDone_eq hk)
  · rcases hw with rfl | rfl
    · exact retries_of (fun _ => rfl) hIn (hypRefuteDone_waits hk hr)
    · exact retries_of (fun _ => rfl) hIn (hypConfirmDone_waits hb hk hr)
  · exact ends_hypGive (fun _ => rfl) hIn (hypRefuteDone_dead hk hr hs)
  · exact ends_hypGive (fun _ => rfl) hIn (hypRefuteDone_live hk hr hs)
  · exact ends_hypGive (fun _ => rfl) hIn (hypConfirmDone_dead hb hk hr hs)
  · exact ends_hypGive (fun _ => rfl) hIn ((hypConfirmDone_live hb hk hr hs).trans (confirmEnd_full hl hn))
  · exact ends_hypGive (fun _ => rfl) hIn ((hypConfirmDone_live hb hk hr hs).trans (confirmEnd_inner hn hp))
  · exact stalls_of_holds (fun _ => rfl) hIn ((hypConfirmDone_live hb hk hr hs).trans (confirmEnd_root hn hp))
  · exact stalls_of_holds (fun _ => rfl) hIn ((hypConfirmDone_begun hb).trans (if_pos ht))
  · exact ends_hypGive (fun _ => rfl) hIn ((hypConfirmDone_begun hb).trans (if_neg (Nat.not_lt.2 ht)))

end Sys2Proof.Machine

/-! PROOFS. Messages, transfers over UALink, requests of peer devices, and freed hypothesis IDs (O48). -/

namespace Sys2Proof.Machine

open Sys2Proof

/-! ## Messages (R192, R193) -/

/-- A message refused: it goes, and the driver is told. -/
def State.refuseMessage (s : State) (m : Message) (reason : Nat) : State :=
  (s.dropMessage m.id).noteFault m.slot (m.table.toNat + 8 + 16 * m.idx) kRefused reason m.source

/-- A message held on a fault of its header. -/
def State.parkMessage (s : State) (m : Message) : State :=
  { s with messages := s.messages.map fun x => if x.id = m.id then { x with parked := true, failed := false } else x }

/-- A message whose header is read: refused, pushed as a record, or left while the queues have no room. -/
def State.takeMessage (s : State) (m : Message) (h : Header) : State :=
  if sramFits (m.record h).slots (m.record h).sp = false then s.refuseMessage m 1
  else if (m.record h).against h ≠ 0 then s.refuseMessage m ((m.record h).against h)
  else if (s.spill m.slot 320).2 = true then
    ((s.spill m.slot 320).1.dropMessage m.id).push m.cluster m.slot .message (m.record h) h m.pin (some (m.src, m.words)) m.id
  else (s.spill m.slot 320).1

/-- A message that no fault holds, first of its sender and target, whose entry can have a header before it. -/
structure MessageDue (s : State) (m : Message) : Prop where
  found : s.messages.find? (fun x => x.id == m.id) = some m
  unparked : m.parked = false
  first : s.messages.find? (fun x => x.cl == m.cl && x.core == m.core && x.slot == m.slot && x.cluster == m.cluster && x.pin == m.pin &&
    (!x.parked || x.id == m.id)) = some m
  aligned : 64 ∣ m.entry.toNat
  least : 64 ≤ m.entry.toNat
  most : m.entry.toNat < 2 ^ 48

namespace MessageDue

variable {s : State} {m : Message}

/-- No guard of AMSG_ARRIVAL stops a message that is due, nor its entry. -/
theorem unguarded (h : MessageDue s m) :
    ¬(m.entry.toNat % 64 ≠ 0 ∨ m.entry.toNat < 64 ∨ 2 ^ 48 ≤ m.entry.toNat) := by
  have hAligned := Nat.mod_eq_zero_of_dvd h.aligned
  have hLeast := h.least
  have hMost := h.most
  omega

/-- A message that is due is held when the read of its header faults, refused without a header, and taken with one. -/
theorem arrival_eq (h : MessageDue s m) : s.amsgArrival m.id =
    match s.headerRead m.slot m.entry m.failed m.source (.message m.id) with
    | .error st => st.parkMessage m
    | .ok (st, none) => st.refuseMessage m 4
    | .ok (st, some l) =>
      match Header.parse l with
      | none => st.refuseMessage m 2
      | some hdr => st.takeMessage m hdr := by
  simp only [State.amsgArrival, h.found, h.unparked, h.first, Option.map_some, ne_eq, not_true_eq_false, Bool.false_eq_true, or_self,
    ↓reduceIte, h.unguarded]
  rcases s.headerRead m.slot m.entry m.failed m.source (.message m.id) with st | ⟨st, _ | l⟩
  · rfl
  · rfl
  · cases hp : Header.parse l with
    | none => simp only [hp, State.refuseMessage]
    | some hdr =>
      simp only [hp, State.takeMessage, State.refuseMessage, Bool.not_eq_true']
      rcases st.spill m.slot 320 with ⟨st', _ | _⟩ <;> rfl

end MessageDue

/-! ## Armed transfers (R198) -/

/-- A transfer that waits on a latch of its resident team. -/
structure ArmedXfer (s : State) (o : EngOp) (x : Xfer) (t : Team) (lk n phases : Nat) : Prop where
  op : s.op? o.id = some o
  xfer : o.xfer? = some x
  team : s.team? o.uid = some t
  armed : x.armed = some (lk, n, phases)
  stage : o.stage ≠ .finished
  saved : o.saved = false

/-- It is discarded when its latch faulted before it came down, fires when that came down or its phase turned, and waits
otherwise. -/
theorem ArmedXfer.fire_eq {s : State} {o : EngOp} {x : Xfer} {t : Team} {lk n phases : Nat} (h : ArmedXfer s o x t lk n phases) :
    s.armedFire o.id =
      if (t.latch lk).f = true ∧ (t.latch lk).low.any (fun b : Int => decide (b ≤ n)) = false ∧ (t.latch lk).phases = phases then
        (s.mapXfer o.id fun x => { x with armed := none }).endTransfer o x 6
      else if ((t.latch lk).v = true ∧ (t.latch lk).b ≤ n) ∨ (t.latch lk).low.any (fun b : Int => decide (b ≤ n)) = true ∨
          (t.latch lk).phases ≠ phases then
        (s.mapXfer o.id fun x => { x with armed := none }).sendXfer o.id
      else s := by
  simp only [State.armedFire, h.op, h.xfer, h.team, h.armed, h.stage, h.saved, Bool.false_eq_true, or_self, ↓reduceIte,
    Bool.not_eq_true']

/-! ## Requests of peer devices (R195, R197) -/

section
variable {s : State} {sl : Slot} {req : RemoteRequest} {n pa bits kind level : Nat} {e : TlbEntry}

/-- A request without a pod job is refused. -/
theorem State.remoteRequest_noJob (h : s.podSlot req.job = none) : s.remoteRequest req = s.answer req false [] := by
  simp only [State.remoteRequest, h]

/-- A request is handled in the slot of its pod job. -/
theorem State.remoteRequest_job (h : s.podSlot req.job = some sl) :
    s.remoteRequest req = { s with nextId := s.nextId + 1 }.serveRemote sl req s.nextId := by
  simp only [State.remoteRequest, h]

/-- How a request reaches memory. -/
def remoteAccess (req : RemoteRequest) : AccessKind := if req.minor = 2 then .read else .write

/-- A request that a fault holds, with the fault raised for it (R197). -/
def State.holdRemote (s : State) (sl : Slot) (req : RemoteRequest) (n kind level : Nat) : State :=
  { s.raiseFault sl.num req.va.toNat kind (accBits (remoteAccess req) true false) level (0, 0, 0) (.remote n) with
    remotes := s.remotes ++ [{ id := n, slot := sl.num, req := req }] }

section
variable (hl : req.len = 16) (hm : req.minor ≠ 1) (hv : req.va.toNat < 2 ^ 48)
include hl hm hv

/-- A request of one part that translates is a read and its answer, or a write and the answer owed for it; one without
permission is refused, and any other fault of it holds it. -/
theorem State.serveRemote_onePart : s.serveRemote sl req n =
    match s.translate sl req.va.toNat (remoteAccess req) with
    | .ok pa bits e =>
      if req.minor = 2 then ((s.tlbFill e).sliceRead pa 16).1.answer req true ((s.tlbFill e).sliceRead pa 16).2
      else (State.remotePart (s.tlbFill e, (s.tlbFill e).now) req (bits.testBit 4) pa (req.data.take 16)).1.oweAnswer req
        (State.remotePart (s.tlbFill e, (s.tlbFill e).now) req (bits.testBit 4) pa (req.data.take 16)).2
    | .untracked => s.answer req false []
    | .bad kind level => if kind = 0 ∨ kind = kPerm then s.answer req false [] else s.holdRemote sl req n kind level := by
  simp only [State.serveRemote, hl, hm, false_and, ↓reduceIte, Nat.reduceDiv, List.range_one, List.map_cons, List.map_nil, Nat.mul_zero,
    Nat.add_zero, List.findSome?_cons, List.findSome?_nil, Nat.not_le.2 hv, List.foldl_cons, List.foldl_nil, List.nil_append, remoteAccess]
  cases s.translate sl req.va.toNat (if req.minor = 2 then AccessKind.read else .write) <;> rfl

/-- A request of one part that translates. -/
theorem State.serveRemote_ok (ht : s.translate sl req.va.toNat (remoteAccess req) = .ok pa bits e) :
    s.serveRemote sl req n =
      if req.minor = 2 then ((s.tlbFill e).sliceRead pa 16).1.answer req true ((s.tlbFill e).sliceRead pa 16).2
      else (State.remotePart (s.tlbFill e, (s.tlbFill e).now) req (bits.testBit 4) pa (req.data.take 16)).1.oweAnswer req
        (State.remotePart (s.tlbFill e, (s.tlbFill e).now) req (bits.testBit 4) pa (req.data.take 16)).2 := by
  rw [State.serveRemote_onePart hl hm hv, ht]

/-- A request of one part that does not. -/
theorem State.serveRemote_bad (ht : s.translate sl req.va.toNat (remoteAccess req) = .bad kind level) :
    s.serveRemote sl req n =
      if kind = 0 ∨ kind = kPerm then s.answer req false [] else s.holdRemote sl req n kind level := by
  rw [State.serveRemote_onePart hl hm hv, ht]

end

/-- A 16-byte part of a put is committed to memory at its home slice (R74, R195). -/
theorem State.remotePart_put {x : State × Nat} {tracked : Bool} {b : List Byte} (hm : req.minor = 0) :
    State.remotePart x req tracked pa b =
      (((x.1.gainSectors tracked pa b.length).commit pa b).1, max x.2 ((x.1.gainSectors tracked pa b.length).commit pa b).2) :=
  if_pos hm

/-- Filling the TLB takes no time. -/
theorem State.tlbFill_now : (s.tlbFill e).now = s.now := by
  unfold State.tlbFill
  split <;> rfl

end

/-! ## Answers to a transfer (R194, R196, R200) -/

/-- A transfer that is sent and waits for its answer. -/
structure SentXfer (s : State) (o : EngOp) (x : Xfer) : Prop where
  op : s.op? o.id = some o
  xfer : o.xfer? = some x
  sent : x.sent = true
  stage : o.stage ≠ .finished
  saved : o.saved = false
  data : x.data = none

namespace SentXfer

variable {s : State} {o : EngOp} {x : Xfer} {data : List Byte}

/-- An answer to a transfer that a down message has spoiled is ignored. -/
theorem response_spoiled (h : SentXfer s o x) (hs : x.spoiled = true) (reply : XferReply) : s.xferResponse o.id reply = s := by
  simp only [State.xferResponse, h.op, h.xfer, hs, or_true, ↓reduceIte]

/-- A transfer ends with TIMEOUT after 10 ms. -/
theorem timeout_due (h : SentXfer s o x) (ht : x.sentAt + 10000000 ≤ s.now) : s.xferTimeout o.id = s.endTransfer o x 5 := by
  simp only [State.xferTimeout, h.op, h.xfer]
  exact if_pos ⟨h.sent, h.stage, by simp [h.saved], by simp [h.data], ht⟩

section
variable (h : SentXfer s o x) (hs : x.spoiled = false)
include h hs

/-- No guard of XFER_RESPONSE stops an answer to a transfer that waits for it. -/
theorem unguarded : ¬((!x.sent) = true ∨ o.stage = .finished ∨ o.saved = true ∨ x.data.isSome = true ∨ x.spoiled = true) := by
  simp [h.sent, h.stage, h.saved, h.data, hs]

/-- What each answer does: the bytes of a put counted, the data of a get landed, an error ended with its code, LINK_DOWN only
when no port is usable (log 66). -/
theorem response_eq (reply : XferReply) : s.xferResponse o.id reply =
    match reply with
    | .done data =>
      if x.aperture then s
      else if x.minor = 2 then if data.length = x.len then s.xferLand o x data else s
      else (s.countParts o x.len).endOp o.id
    | .noRoute => s.endTransfer o x 1
    | .linkDown => if s.ports.any Port.usable then s else s.endTransfer o x 2
    | .remoteFault => s.endTransfer o x 3
    | .apRefused => s.endTransfer o x 4 := by
  cases reply <;> simp only [State.xferResponse, h.op, h.xfer, h.unguarded hs, ↓reduceIte]

/-- The answer to a put counts its bytes and ends it. -/
theorem response_put (ha : x.aperture = false) (hm : x.minor ≠ 2) :
    s.xferResponse o.id (.done data) = (s.countParts o x.len).endOp o.id := by
  simp only [h.response_eq hs, ha, hm, Bool.false_eq_true, ↓reduceIte]

/-- The answer to a get lands its data. -/
theorem response_get (ha : x.aperture = false) (hm : x.minor = 2) (hl : data.length = x.len) :
    s.xferResponse o.id (.done data) = s.xferLand o x data := by
  simp only [h.response_eq hs, ha, hm, hl, Bool.false_eq_true, ↓reduceIte]

/-- A down message that fits lands; one that does not spoils its transfer (R200). -/
theorem downMessage_eq (ha : x.aperture = true) (rtype : Nat) : s.downMessage o.id rtype data =
    if rtype = x.rtype ∧ data.length = x.len then s.xferLand o x data
    else s.mapXfer o.id fun x => { x with spoiled := true } := by
  simp only [State.downMessage, h.op, h.xfer]
  exact if_neg (by simp [h.sent, ha, h.stage, h.saved, h.data, hs])

end

end SentXfer

/-! ## Freed IDs (R146) -/

/-- An idle resolved ID returns to free. -/
theorem State.hypIdFree_idle {s : State} {p id : Nat} (h : s.idIdle p id = true) : s.hypIdFree p id = s.freeId p id := if_pos h

/-- Settles O48, each operation by the lemmas above on the step it takes. -/
theorem podEvents : Obligations.PodEvents := by
  unfold Obligations.PodEvents
  refine ⟨fun s m hf hp h1 ha hl hh => ?_, fun s o x t lk n phases ho hx ht ha hs hv => ?_,
    fun s req => ⟨fun h => ?_, fun sl h => ⟨?_, ?_⟩⟩,
    fun s o x ho hx hn hs hv hd => ?_, fun s p id h => ?_⟩
  · have hDue : MessageDue s m := ⟨hf, hp, h1, ha, hl, hh⟩
    exact congrArg Host.Outcome.next hDue.arrival_eq
  · have hArmed : ArmedXfer s o x t lk n phases := ⟨ho, hx, ht, ha, hs, hv⟩
    exact congrArg Host.Outcome.next hArmed.fire_eq
  · exact congrArg Host.Outcome.next (State.remoteRequest_noJob h)
  · exact congrArg Host.Outcome.next (State.remoteRequest_job h)
  · have hServe := State.remoteRequest_job h
    intro st acc hl hm hv
    refine ⟨fun pa bits e ht => ⟨fun hr => ?_, fun hr => ?_⟩, fun kind level ht => ⟨fun hk => ?_, fun hk h0 => ?_⟩⟩
    · exact congrArg Host.Outcome.next (hServe.trans ((State.serveRemote_ok hl hm hv ht).trans (if_pos hr)))
    · refine congrArg Host.Outcome.next (hServe.trans ((State.serveRemote_ok hl hm hv ht).trans ?_))
      rw [if_neg (by omega), State.remotePart_put hr, State.tlbFill_now]
      rfl
    · exact congrArg Host.Outcome.next (hServe.trans ((State.serveRemote_bad hl hm hv ht).trans (if_pos (.inr hk))))
    · exact congrArg Host.Outcome.next
        (hServe.trans ((State.serveRemote_bad hl hm hv ht).trans (if_neg (not_or.2 ⟨h0, hk⟩))))
  · have hSent : SentXfer s o x := ⟨ho, hx, hn, hs, hv, hd⟩
    refine ⟨fun hp reply => ?_, fun ht => ?_, fun hp => ⟨fun ha hm data => ?_, fun data ha hm hl => ?_, ?_, ?_, ?_, ?_,
      fun rtype data ha => ?_⟩⟩
    · exact congrArg Host.Outcome.next (hSent.response_spoiled hp reply)
    · exact congrArg Host.Outcome.next (hSent.timeout_due ht)
    · exact congrArg Host.Outcome.next (hSent.response_put hp ha hm)
    · exact congrArg Host.Outcome.next (hSent.response_get hp ha hm hl)
    · exact congrArg Host.Outcome.next (hSent.response_eq hp .noRoute)
    · exact congrArg Host.Outcome.next (hSent.response_eq hp .linkDown)
    · exact congrArg Host.Outcome.next (hSent.response_eq hp .remoteFault)
    · exact congrArg Host.Outcome.next (hSent.response_eq hp .apRefused)
    · exact congrArg Host.Outcome.next (hSent.downMessage_eq hp ha rtype)
  · exact congrArg Host.Outcome.next (State.hypIdFree_idle h)

end Sys2Proof.Machine

/-! PROOFS. The words of the matrix engine and the factor unit, and the drains (O35, O36). -/

namespace Sys2Proof.Machine

open Sys2Proof

/-- An address that a power of two divides is aligned to it. -/
theorem extractLsb'_low_of_dvd {n k : Nat} {x : BitVec n} (h : 2 ^ k ∣ x.toNat) : x.extractLsb' 0 k = 0 := by
  apply BitVec.eq_of_toNat_eq
  simpa using Nat.mod_eq_zero_of_dvd h

section
variable {s : State} {i : Issue}

/-! ## MMA and MLOOP (R168, R172, R174, R333, R334) -/

/-- A step from registers by the whole group under a format is one command (R168). -/
theorem mmaDone_whole {w : RR} (hw : i.whole = true) (hc : i.g.mcfg ≠ 0) : mmaDone w s i =
    command i s 1 none false .running (.mma w.d.toNat i.g.mcfg (i.fragment w.a.toNat) (i.fragment w.b.toNat)) :=
  if_neg (not_or.2 ⟨by simp [hw], hc⟩)

/-- The loop that MLOOP commands, with what of its handles was read at issue. -/
def loopCmd (w : RR) (i : Issue) (aRaw bRaw : Option (List Byte)) : Loop :=
  let r := fun k => i.rd i.first (w.a.toNat + k)
  { slot := w.d.toNat, cfg := i.g.mcfg, aVa := i.rd2 i.first w.a.toNat, bVa := i.rd2 i.first (w.a.toNat + 2),
    aOrg := [(r 4).toInt, (r 5).toInt, (r 6).toInt, (r 7).toInt], bOrg := [(r 8).toInt, (r 9).toInt, (r 10).toInt, (r 11).toInt],
    aInc := (r 12).toInt, bInc := (r 13).toInt, steps := (r 14).toNat, applied := 0, aRaw := aRaw, bRaw := bRaw, fetched := [] }

/-- The command of a loop whose handles are not read. -/
def loopUnread (w : RR) (s : State) (i : Issue) : EngOp := i.op s 1 none false .running (.mloop (loopCmd w i none none))

/-- The handle of A as MLOOP reads it at issue (R58). -/
def State.loopReadA (s : State) (w : RR) (i : Issue) : State × Option (List Byte) :=
  s.readHandle (loopUnread w s i) (loopCmd w i none none).aVa.toNat

/-- The handle of B as MLOOP reads it at issue, after that of A (R58). -/
def State.loopReadB (s : State) (w : RR) (i : Issue) : State × Option (List Byte) :=
  (s.loopReadA w i).1.readHandle (loopUnread w (s.loopReadA w i).1 i) (loopCmd w i none none).bVa.toNat

/-- A handle address is of 48 bits and on a 64-byte boundary (R334, R336). -/
structure HandleForm (va : DWord) : Prop where
  form : va.extractLsb' 48 16 = 0
  aligned : va.extractLsb' 0 6 = 0

/-- An operand block of MLOOP that R334 allows, under a format. -/
structure LoopLegal (w : RR) (i : Issue) : Prop where
  least : 1 ≤ (i.rd i.first (w.a.toNat + 14)).toNat
  most : (i.rd i.first (w.a.toNat + 14)).toNat ≤ 65535
  reserved : i.rd i.first (w.a.toNat + 15) = 0
  format : i.g.mcfg ≠ 0
  handleA : HandleForm (i.rd2 i.first w.a.toNat)
  handleB : HandleForm (i.rd2 i.first (w.a.toNat + 2))

/-- A legal loop is tried again, or reads its handles and goes on its counter. -/
theorem LoopLegal.mloopDone_eq {w : RR} (h : LoopLegal w i) : mloopDone w s i =
    if 4 ≤ s.loops i.c.uid i.c.gid ∨ 255 ≤ s.counter i.c.uid i.c.gid 1 ∨ s.acquiring i = true ∨ s.accessing i = true then retry s i
    else command i (s.loopReadB w i).1 1 none false .running (.mloop (loopCmd w i (s.loopReadA w i).2 (s.loopReadB w i).2)) := by
  have hFields : (decide ((i.rd i.first (w.a.toNat + 14)).toNat = 0) || decide (65535 < (i.rd i.first (w.a.toNat + 14)).toNat) ||
      i.rd i.first (w.a.toNat + 15) != 0 || i.g.mcfg == 0) = false := by
    rw [bne_zero h.reserved, beq_false_of_ne h.format, decide_eq_false (Nat.one_le_iff_ne_zero.1 h.least),
      decide_eq_false (Nat.not_lt.2 h.most)]
    rfl
  refine checked_eq ?_
  simp only [List.mem_cons, List.not_mem_nil, or_false]
  rintro x (rfl | rfl | rfl | rfl | rfl)
  · exact hFields
  · exact bne_zero h.handleA.form
  · exact bne_zero h.handleB.form
  · exact bne_zero h.handleA.aligned
  · exact bne_zero h.handleB.aligned

/-! ## MCFG (R167, R339) -/

/-- A format that R167 allows is written. -/
theorem mcfgDone_legal {w : RM} (h : mcfgOk (i.srcA w i.first) = true) :
    mcfgDone w s i = nothing (s.mapGroup i.c.uid i.c.gid fun g => { g with mcfg := i.srcA w i.first }) := if_pos h

/-! ## MTRSM (R186, R339) -/

/-- A register of the operand block that field A of a matrix word names. -/
abbrev blockReg (w : RM) (i : Issue) (k : Nat) : Word := i.rd i.first (w.a.toNat + k)

/-- The order of the factor of a triangular solve. -/
def solveOrder (w : RM) (i : Issue) : Nat := ((blockReg w i 3).extractLsb' 8 6).toNat

/-- The columns of a triangular solve. -/
def solveCols (w : RM) (i : Issue) : Nat := ((blockReg w i 3).extractLsb' 0 6).toNat

/-- The bytes of its right side, and of its result. -/
def solveSize (w : RM) (i : Issue) : Nat := 4 * solveOrder w i * solveCols w i

/-- The command of a triangular solve. -/
def solveOp (w : RM) (s : State) (i : Issue) : EngOp :=
  i.op s 1 none false .running
    (.mtrsm (blockReg w i 0) (blockReg w i 1) (blockReg w i 2) (solveOrder w i) (solveCols w i) ((blockReg w i 3).getLsbD 31) 0)

/-- The header of a factor as a word of the factor unit reads it at issue (log 26). -/
def State.readHeader (s : State) (o : EngOp) (uid : Nat) (hdr : Word) : State × List Byte := s.engSpRead o (ownMark uid hdr) 0 64

/-- A team-relative range of scratchpad, on a boundary of `2 ^ k` bytes. -/
structure OwnRange (s : State) (i : Issue) (addr : Word) (len k : Nat) : Prop where
  own : addr.extractLsb' 30 2 = 0
  range : (s.spMarks i.t addr len).isSome
  aligned : 2 ^ k ∣ addr.toNat

/-- Such a range raises no SP_RANGE. -/
theorem OwnRange.within {addr : Word} {len k : Nat} (h : OwnRange s i addr len k) :
    (addr.extractLsb' 30 2 != 0 || (s.spMarks i.t addr len).isNone) = false := by
  rw [bne_zero h.own, isNone_of_isSome h.range]; rfl

/-- An operand block of MTRSM that R340 allows. -/
structure SolveLegal (w : RM) (s : State) (i : Issue) : Prop where
  reserved : (blockReg w i 3).extractLsb' 14 17 = 0 ∧ (blockReg w i 3).extractLsb' 6 2 = 0
  order : 1 ≤ solveOrder w i ∧ solveOrder w i ≤ 32
  cols : 1 ≤ solveCols w i ∧ solveCols w i ≤ 32
  header : OwnRange s i (blockReg w i 0) (factBytes (solveOrder w i)) 6
  source : OwnRange s i (blockReg w i 1) (solveSize w i) 4
  dest : OwnRange s i (blockReg w i 2) (solveSize w i) 4
  sourceDest : rangesMeet (blockReg w i 1).toNat (solveSize w i) (blockReg w i 2).toNat (solveSize w i) = false
  sourceHeader : rangesMeet (blockReg w i 1).toNat (solveSize w i) (blockReg w i 0).toNat (factBytes (solveOrder w i)) = false
  destHeader : rangesMeet (blockReg w i 2).toNat (solveSize w i) (blockReg w i 0).toNat (factBytes (solveOrder w i)) = false

/-- A legal solve with its header read: tried again, trapped, or commanded. -/
theorem SolveLegal.mtrsmDone_eq {w : RM} (h : SolveLegal w s i) : mtrsmDone w s i =
    let x := s.readHeader (solveOp w s i) i.c.uid (blockReg w i 0)
    if s.acquiring i = true then retry s i
    else if fieldAt x.2 8 1 ≠ 2 ∨ fieldAt x.2 0 1 ≠ solveOrder w i then allTrap s cStruct (blockReg w i 0)
    else if 255 ≤ s.counter i.c.uid i.c.gid 1 then retry s i
    else command i x.1 1 none false .running (solveOp w x.1 i).body := by
  have hFields : ((blockReg w i 3).extractLsb' 14 17 != 0 || (blockReg w i 3).extractLsb' 6 2 != 0 || decide (solveOrder w i = 0) ||
      decide (32 < solveOrder w i) || decide (solveCols w i = 0) || decide (32 < solveCols w i)) = false := by
    rw [h.reserved.1, h.reserved.2]
    simp [h.order, h.cols, Nat.one_le_iff_ne_zero.1 h.order.1, Nat.one_le_iff_ne_zero.1 h.cols.1]
  refine checked_eq ?_
  simp only [List.mem_cons, List.not_mem_nil, or_false]
  rintro x (rfl | rfl | rfl | rfl | rfl | rfl | rfl | rfl)
  · exact hFields
  · exact h.header.within
  · exact h.source.within
  · exact h.dest.within
  · exact bne_zero (extractLsb'_low_of_dvd h.header.aligned)
  · exact bne_zero (extractLsb'_low_of_dvd h.source.aligned)
  · exact bne_zero (extractLsb'_low_of_dvd h.dest.aligned)
  · exact Bool.or_eq_false_iff.2 ⟨Bool.or_eq_false_iff.2 ⟨h.sourceDest, h.sourceHeader⟩, h.destHeader⟩

/-! ## MFACT_CHOL (R181, R338) -/

/-- The header that MFACT_CHOL is given. -/
abbrev factHdr (w : RR) (i : Issue) : Word := i.rd i.first w.a.toNat

/-- The order that MFACT_CHOL is given. -/
abbrev factOrder (w : RR) (i : Issue) : Nat := (i.srcB w i.first).toNat

/-- An order and a region that R338 allows. -/
structure FactLegal (w : RR) (s : State) (i : Issue) : Prop where
  least : 1 ≤ factOrder w i
  most : factOrder w i ≤ 32
  own : (factHdr w i).extractLsb' 30 2 = 0
  aligned : (factHdr w i).extractLsb' 0 6 = 0
  range : (s.spMarks i.t (factHdr w i) (factBytes (factOrder w i))).isSome

/-- The header of a region as MFACT_CHOL reads it (log 26). -/
def State.factHeader (s : State) (w : RR) (i : Issue) : State × List Byte :=
  s.readHeader (i.op s 1 none false .running (.mfact (factHdr w i) (factOrder w i) false)) i.c.uid (factHdr w i)

/-- The state after MFACT_CHOL has read its header, and written that of a fresh region (R181). -/
def State.factBegun (s : State) (w : RR) (i : Issue) : State :=
  if fieldAt (s.factHeader w i).2 8 1 = 0 then
    (s.factHeader w i).1.spWriteRange (ownMark i.c.uid (factHdr w i)) 0
      (coldHeader (factOrder w i) i.c.snap.round i.c.snap.pivm i.c.snap.pivt i.c.snap.pivd)
  else (s.factHeader w i).1

/-- A legal factor with its header read: tried again, trapped, or commanded. -/
theorem FactLegal.mfactDone_eq {w : RR} (h : FactLegal w s i) : mfactDone w s i =
    let status := fieldAt (s.factHeader w i).2 8 1
    if s.factBusy i.c.uid (factHdr w i).toNat (factBytes (factOrder w i)) = true ∨ s.acquiring i = true then retry s i
    else if 4 ≤ status ∨ ((status = 1 ∨ status = 3) ∧ !warmOk (factOrder w i) (s.factHeader w i).2) then
      allTrap s cStruct (factHdr w i)
    else if 255 ≤ s.counter i.c.uid i.c.gid 1 then retry s i
    else command i (s.factBegun w i) 1 none false (if status = 2 then .finished else .running)
      (.mfact (factHdr w i) (factOrder w i) (status == 3)) := by
  refine checked_eq ?_
  simp only [List.mem_cons, List.not_mem_nil, or_false]
  rintro x (rfl | rfl | rfl | rfl)
  · simpa [Nat.not_lt.2 h.most] using Nat.one_le_iff_ne_zero.1 h.least
  · exact bne_zero h.own
  · exact bne_zero h.aligned
  · exact isNone_of_isSome h.range

/-- A header that is fresh, done, or well formed passes the check of a warm start (R181). -/
theorem warm_passes {n status : Nat} {l : List Byte} (hs : status < 4) (hw : status = 1 ∨ status = 3 → warmOk n l = true) :
    ¬(4 ≤ status ∨ ((status = 1 ∨ status = 3) ∧ (!warmOk n l) = true)) := by
  rintro (hHigh | ⟨hWarm, hBad⟩)
  · exact Nat.not_le.2 hs hHigh
  · rw [hw hWarm] at hBad; cases hBad

end

/-- Settles O35: each word by the equation of its body under the checks of its operands. -/
theorem matrixWords : Obligations.MatrixWords := by
  unfold Obligations.MatrixWords
  refine ⟨fun w => ?_, fun w => ?_, fun w => ?_, fun w => ?_, fun w s i => ⟨fun h hc => ?_, fun h => ?_, ?_⟩, ?_⟩
  · exact queues_of (fun _ => rfl) fun s i _ ⟨hWhole, hCfg⟩ => mmaDone_whole hWhole hCfg
  · intro r s i h ⟨hLeast, hMost, hRes, hCfg, hHandles⟩
    obtain ⟨hVaA, hAlA⟩ := hHandles 0 (by simp)
    obtain ⟨hVaB, hAlB⟩ := hHandles 2 (by simp)
    have hBody := (LoopLegal.mk hLeast hMost hRes hCfg ⟨hVaA, hAlA⟩ ⟨hVaB, hAlB⟩).mloopDone_eq (s := s)
    refine ⟨fun hFull => retries_of (fun _ => rfl) h (hBody.trans (if_pos hFull)), ?_⟩
    intro hLoops hCnt hAcq hAcc op l x y hCnt' hAcq'
    have hFree : ¬(4 ≤ s.loops i.c.uid i.c.gid ∨ 255 ≤ s.counter i.c.uid i.c.gid 1 ∨ s.acquiring i = true ∨ s.accessing i = true) := by
      simp [Nat.not_le.2 hLoops, Nat.not_le.2 hCnt, hAcq, hAcc]
    exact ends_nothing (fun _ => rfl) h (hBody.trans ((if_neg hFree).trans (command_eq hCnt' hAcq')))
  · exact queues_of (fun _ => rfl) fun _ _ _ _ => rfl
  · exact queues_of (fun _ => rfl) fun _ _ _ _ => rfl
  · exact ends_nothing (fun _ => rfl) h (mcfgDone_legal hc)
  · exact ends_gives (fun _ => rfl) h rfl
  · intro r n cols size o x h hRes hRes' hN hN' hC hC' hRanges hSD hSH hDH
    obtain ⟨hOwn0, hRange0, hAl0⟩ := hRanges (r 0, factBytes n, 64) (by simp)
    obtain ⟨hOwn1, hRange1, hAl1⟩ := hRanges (r 1, size, 16) (by simp)
    obtain ⟨hOwn2, hRange2, hAl2⟩ := hRanges (r 2, size, 16) (by simp)
    have hLegal : SolveLegal w s i :=
      ⟨⟨hRes, hRes'⟩, ⟨hN, hN'⟩, ⟨hC, hC'⟩, ⟨hOwn0, hRange0, hAl0⟩, ⟨hOwn1, hRange1, hAl1⟩, ⟨hOwn2, hRange2, hAl2⟩, hSD, hSH, hDH⟩
    refine ⟨fun hAcq => retries_of (fun _ => rfl) h (hLegal.mtrsmDone_eq.trans (if_pos hAcq)), fun hAcq hDone hOrder => ?_⟩
    have hBody := hLegal.mtrsmDone_eq.trans ((if_neg (by simp [hAcq])).trans (if_neg (not_or.2 ⟨not_not.2 hDone, not_not.2 hOrder⟩)))
    exact ⟨fun hFull => retries_of (fun _ => rfl) h (hBody.trans (if_pos hFull)),
      fun hCnt hCnt' hAcq' => ends_nothing (fun _ => rfl) h
        (hBody.trans ((if_neg (Nat.not_le.2 hCnt)).trans (command_eq hCnt' hAcq')))⟩
  · intro w s i hdr n x status st h hN hN' hOwn hAl hRange
    have hLegal : FactLegal w s i := ⟨hN, hN', hOwn, hAl, hRange⟩
    refine ⟨fun hBusy => retries_of (fun _ => rfl) h (hLegal.mfactDone_eq.trans (if_pos hBusy)), fun hIdle hAcq hSt hWarm => ?_⟩
    have hBody := hLegal.mfactDone_eq.trans
      ((if_neg (not_or.2 ⟨Bool.eq_false_iff.1 hIdle, Bool.eq_false_iff.1 hAcq⟩)).trans (if_neg (warm_passes hSt hWarm)))
    exact ⟨fun hFull => retries_of (fun _ => rfl) h (hBody.trans (if_pos hFull)),
      fun hCnt hCnt' hAcq' => ends_nothing (fun _ => rfl) h
        (hBody.trans ((if_neg (Nat.not_le.2 hCnt)).trans (command_eq hCnt' hAcq')))⟩

section
variable {w : RM} {s : State} {i : Issue}

/-! ## The drains (R177 to R179, R336) -/

/-- A drain of a slot as its word commands it: its tile not read, all of its parts left. -/
def drainOp (s : State) (i : Issue) (slot : Nat) (dest : DrainTo) (left : List Nat) : EngOp :=
  i.op s 1 none false .running (.mdrain slot dest [] left)

/-- A word whose body is the command of a drain puts it on counter 1, or is tried again. -/
theorem drains_of {word : Instr} {litOk : Issue → Word → Bool} {body : State → Issue → Done} {slot : Nat} {dest : DrainTo}
    {left : List Nat} (hx : ∀ s, exec word s = issueWith word.view litOk asIs body s) (h : InHand word litOk asIs s i)
    (hb : body s i = matrixCommand i s (.mdrain slot dest [] left)) :
    (¬(255 ≤ s.counter i.c.uid i.c.gid 1 ∨ s.acquiring i = true) →
      Ends word asIs s i (s.addOp (drainOp s i slot dest left)) {}) ∧
    (255 ≤ s.counter i.c.uid i.c.gid 1 ∨ s.acquiring i = true → Retries word s i s) :=
  ⟨fun hf => ends_nothing hx h (hb.trans (if_neg hf)), fun hf => retries_of hx h (hb.trans (if_pos hf))⟩

/-- The registers that an MDRAIN_R leaves EMPTY for its command (R177). -/
def drainPend (w : RM) (s : State) (i : Issue) : List (Nat × Nat) :=
  (List.range (fragRegs i.t.hdr.groupWidth)).map fun k => (w.d.toNat + k, s.nextId)

/-- MDRAIN_R by the whole group is one command for which the registers of the fragments wait. -/
theorem mdrainRDone_whole (hw : i.whole = true) : mdrainRDone w s i =
    { matrixCommand i s (.mdrain w.a.toNat (.regs w.d.toNat) [] (List.range i.g.threads.length)) with
      pend := fun _ => drainPend w s i } :=
  if_neg (by simp [hw])

/-- MDRAIN_R with its counter full, or an acquire before it, is tried again, and no register waits. -/
theorem mdrainR_retries (h : InHand (.mdrainR w) anyLit asIs s i) (hw : i.whole = true)
    (hf : 255 ≤ s.counter i.c.uid i.c.gid 1 ∨ s.acquiring i = true) : Retries (.mdrainR w) s i s := by
  have hBody := (mdrainRDone_whole hw).trans (congrArg (fun d : Done => { d with pend := fun _ => drainPend w s i }) (command_full hf))
  rw [Retries, exec_clear (body := mdrainRDone w) (fun _ => rfl) h, hBody]
  rfl

/-- MDRAIN_R with room on its counter ends, the registers of the fragments EMPTY. -/
theorem mdrainR_ends (h : InHand (.mdrainR w) anyLit asIs s i) (hw : i.whole = true)
    (hf : ¬(255 ≤ s.counter i.c.uid i.c.gid 1 ∨ s.acquiring i = true)) :
    Ends (.mdrainR w) asIs s i (s.addOp (drainOp s i w.a.toNat (.regs w.d.toNat) (List.range i.g.threads.length)))
      { pend := fun _ => drainPend w s i } := by
  have hBody := (mdrainRDone_whole hw).trans (congrArg (fun d : Done => { d with pend := fun _ => drainPend w s i }) (if_neg hf))
  refine ends_pend (body := mdrainRDone w) (fun _ => rfl) h (by rw [hBody]; rfl) (fun _ _ => by rw [hBody]; rfl) fun _ _ => ?_
  rw [drainPend, List.map_map]
  exact range_add_nodup _ _

/-- The pitch of an MDRAIN_SP. -/
abbrev drainPitch (w : RM) (i : Issue) : Nat := (blockReg w i 1).toNat

/-- MDRAIN_SP of rows that R336 allows is one command. -/
theorem mdrainSpDone_legal {m : List Mark} (hp : 64 ≤ drainPitch w i) (hd : 16 ∣ drainPitch w i)
    (ha : (blockReg w i 0).extractLsb' 0 4 = 0) (hm : s.spMarks i.t (blockReg w i 0) (15 * drainPitch w i + 64) = some m) :
    mdrainSpDone w s i = matrixCommand i s (.mdrain w.d.toNat (.scratch m (drainPitch w i)) [] (List.range 64)) := by
  refine (checked_eq ?_).trans (by rw [show s.spMarks i.t (i.rd i.first w.a.toNat) _ = some m from hm]; rfl)
  simp only [List.mem_cons, List.not_mem_nil, or_false]
  rintro x (rfl | rfl | rfl)
  · exact decide_eq_false (Nat.not_lt.2 hp)
  · exact congrArg Option.isNone hm
  · exact Bool.or_eq_false_iff.2 ⟨bne_zero ha, bne_eq_false_iff_eq.2 (Nat.mod_eq_zero_of_dvd hd)⟩

/-- The command of an MDRAIN_GL, with what of its handle was read at issue. -/
def drainGlBody (w : RM) (i : Issue) (raw : Option (List Byte)) : OpBody :=
  .mdrain w.d.toNat (.global (i.rd2 i.first w.a.toNat)
    [(blockReg w i 2).toInt, (blockReg w i 3).toInt, (blockReg w i 4).toInt, (blockReg w i 5).toInt] raw none 0) []
    (List.range (16 * drainRowParts))

/-- The handle of an MDRAIN_GL as it is read at issue (R58). -/
def State.drainReads (s : State) (w : RM) (i : Issue) : State × Option (List Byte) :=
  s.readHandle (i.op s 1 none false .running (drainGlBody w i none)) (i.rd2 i.first w.a.toNat).toNat

/-- MDRAIN_GL of an operand block that R336 allows reads its handle and is one command, or is tried again. -/
theorem mdrainGlDone_legal (h6 : blockReg w i 6 = 0) (h7 : blockReg w i 7 = 0) (hv : HandleForm (i.rd2 i.first w.a.toNat)) :
    mdrainGlDone w s i =
      if 255 ≤ s.counter i.c.uid i.c.gid 1 ∨ s.acquiring i = true ∨ s.accessing i = true then retry s i
      else command i (s.drainReads w i).1 1 none false .running (drainGlBody w i (s.drainReads w i).2) := by
  refine checked_eq ?_
  simp only [List.mem_cons, List.not_mem_nil, or_false]
  rintro x (rfl | rfl | rfl)
  · exact Bool.or_eq_false_iff.2 ⟨bne_zero h6, bne_zero h7⟩
  · exact bne_zero hv.form
  · exact bne_zero hv.aligned

/-- The slot that the reference of an MDRAIN_PEER names. -/
def peerSlot (w : RM) (i : Issue) : Nat := ((i.srcA w i.first).extractLsb' 0 2).toNat

/-- The core that the reference of an MDRAIN_PEER names. -/
def peerCore (w : RM) (i : Issue) : Nat :=
  if (i.srcA w i.first).extractLsb' 30 2 != 0 then ((i.srcA w i.first).extractLsb' 22 8).toNat else i.t.coreOf i.c.gid

/-- The latch that an MDRAIN_PEER into a team arrives on, if any (R179). -/
def peerLatch (w : RM) (i : Issue) (x : Team) : Option LatchTarget :=
  if (i.srcA w i.first).getLsbD 9 then some { uid := x.uid, lk := ((i.srcA w i.first).extractLsb' 4 4).toNat, far := true } else none

/-- The destination of an MDRAIN_PEER into a team. -/
def peerDest (w : RM) (s : State) (i : Issue) (x : Team) : DrainTo :=
  .peer x.uid (x.tileIdx (peerCore w i) (peerSlot w i)) (peerLatch w i x) none
    (if peerCore w i = i.t.coreOf i.c.gid then s.nextId else 0)

/-- MDRAIN_PEER of a well formed reference to a slot of a team is one command. -/
theorem mdrainPeerDone_named {x : Team} (hr : slotRefIllegal (i.srcA w i.first) = false)
    (hx : s.refTeam i.t (i.srcA w i.first) = some x) (hn : peerSlot w i < x.record.slots) :
    mdrainPeerDone w s i = matrixCommand i s (.mdrain w.d.toNat (peerDest w s i x) [] [0]) := by
  have hTarget : ((s.refTeam i.t (i.srcA w i.first)).filter fun x =>
      decide (((i.srcA w i.first).extractLsb' 0 2).toNat < x.record.slots)) = some x := by
    rw [hx]; exact Option.filter_eq_some_iff.2 ⟨rfl, decide_eq_true hn⟩
  simp only [mdrainPeerDone, hr, hTarget, Bool.false_eq_true, ↓reduceIte]
  rfl

/-- MDRAIN_Q of a group with a queue for it is one command. -/
theorem mdrainQDone_bound (hb : (i.g.boundTo 2).isSome = true) :
    mdrainQDone w s i = matrixCommand i s (.mdrain w.d.toNat .queue [] [0]) :=
  if_neg (by simp [isNone_of_isSome hb])

end

/-- Settles O36: each word by the equation of its body, and what every command of a drain does. -/
theorem drainWords : Obligations.DrainWords := by
  unfold Obligations.DrainWords
  intro w s i full drains r
  refine ⟨fun h hWhole => ⟨mdrainR_ends h hWhole, mdrainR_retries h hWhole⟩, fun h hPitch hDvd hAl m hm => ?_,
    fun h h6 h7 hVa hAl => ?_, fun h hRef x hx hSlot => ?_, fun h hBound => ?_⟩
  · exact drains_of (fun _ => rfl) h (mdrainSpDone_legal hPitch hDvd hAl hm)
  · intro body x
    have hBody := mdrainGlDone_legal (s := s) h6 h7 ⟨hVa, hAl⟩
    refine ⟨fun hFull => retries_of (fun _ => rfl) h (hBody.trans (if_pos (or_assoc.1 hFull))), fun hRoom hAcc hCnt hAcq => ?_⟩
    have hFree := (or_assoc.not.1 (not_or.2 ⟨hRoom, Bool.eq_false_iff.1 hAcc⟩))
    exact ends_nothing (fun _ => rfl) h (hBody.trans ((if_neg hFree).trans (command_eq hCnt hAcq)))
  · exact drains_of (fun _ => rfl) h (mdrainPeerDone_named hRef hx hSlot)
  · exact drains_of (fun _ => rfl) h (mdrainQDone_bound hBound)

end Sys2Proof.Machine

/-! PROOFS. The events of the matrix engine and the factor unit (O47). -/

namespace Sys2Proof.Machine

open Sys2Proof

section
variable {s : State} {o : EngOp}

/-! ## A drain whose handle is read (R58, R177) -/

/-- A running drain of a handle it has not read waits for it. -/
theorem EngOp.handleUnread_drain {slot blk : Nat} {hva : DWord} {origin : List Int} {h : Option Handle} {vals : List Word}
    {left : List Nat} (hs : o.stage = .running) (hb : o.body = .mdrain slot (.global hva origin none h blk) vals left) :
    o.handleUnread = true := by
  simp [EngOp.handleUnread, hs, hb]

/-- A drain of a handle it has read waits for none. -/
theorem EngOp.handleRead_global {slot blk : Nat} {hva : DWord} {origin : List Int} {raw : List Byte} {h : Option Handle}
    {vals : List Word} {left : List Nat} (hb : o.body = .mdrain slot (.global hva origin (some raw) h blk) vals left) :
    o.handleUnread = false := by
  simp [EngOp.handleUnread, hb]

/-- A drain to no global memory waits for no handle. -/
theorem EngOp.handleRead_local {slot : Nat} {dest : DrainTo} {vals : List Word} {left : List Nat}
    (hb : o.body = .mdrain slot dest vals left) (hd : ∀ hva origin raw h blk, dest ≠ .global hva origin raw h blk) :
    o.handleUnread = false := by
  cases dest with
  | global hva origin raw h blk => exact absurd rfl (hd hva origin raw h blk)
  | _ => simp [EngOp.handleUnread, hb]

/-- Where a drain rounds what it reads: registers, scratchpad or a queue (R177). -/
def DrainTo.Rounds (d : DrainTo) : Prop := (∃ r, d = .regs r) ∨ (∃ m p, d = .scratch m p) ∨ d = .queue

/-- A drain that rounds goes to no global memory. -/
theorem DrainTo.Rounds.not_global {d : DrainTo} (h : d.Rounds) (hva : DWord) (origin : List Int) (raw : Option (List Byte))
    (handle : Option Handle) (blk : Nat) : d ≠ .global hva origin raw handle blk := by
  rintro rfl
  rcases h with ⟨_, h⟩ | ⟨_, _, h⟩ | h <;> cases h

/-! ## What the steps leave -/

/-- A step applied to a command's slot, its flags kept for the retirement (R164). -/
def State.stepApplied (s : State) (o : EngOp) (slot : Nat) (cfg : Word) (a b : List Byte) : State :=
  (s.setTile o.uid (s.ownTile o slot) (applyStep cfg a b (s.tile o.uid (s.ownTile o slot))).1).opFlags o.id
    (applyStep cfg a b (s.tile o.uid (s.ownTile o slot))).2

/-- A fetched step applied to a loop's slot. -/
def State.loopApplied (s : State) (o : EngOp) (l : Loop) (a b : List Byte) (rest : List (List Byte × List Byte)) : State :=
  (s.stepApplied o l.slot l.cfg a b).setBody o.id (.mloop { l with applied := l.applied + 1, fetched := rest })

/-- The next step of a loop that has one ahead (R174). -/
theorem State.loopStep_fetched {l : Loop} {a b : List Byte} {rest : List (List Byte × List Byte)} (hf : l.fetched = (a, b) :: rest) :
    s.loopStep o l =
      if l.steps ≤ l.applied + 1 then (s.loopApplied o l a b rest).endOp o.id else s.loopApplied o l a b rest := by
  unfold State.loopStep
  rw [hf]
  rfl

section
variable (ho : s.op? o.id = some o) (hw : o.working = true)
include ho hw

/-! ## MATRIX_STEP (R164, R171, R174, R176) -/

/-- A step of MMA whose turn has come is applied. -/
theorem State.matrixStep_mma {slot : Nat} {cfg : Word} {a b : List Byte} (hb : o.body = .mma slot cfg a b)
    (ht : s.ownTurn o slot = true) : s.matrixStep o.id = (s.stepApplied o slot cfg a b).endOp o.id := by
  simp only [State.matrixStep, ho, hw, hb, ht, Bool.not_true, Bool.false_eq_true, ↓reduceIte]
  rfl

/-- A loop whose turn has come takes its next step. -/
theorem State.matrixStep_mloop {l : Loop} (hb : o.body = .mloop l) (ht : s.ownTurn o l.slot = true) :
    s.matrixStep o.id = s.loopStep o l := by
  simp only [State.matrixStep, ho, hw, hb, ht, Bool.not_true, Bool.false_eq_true, ↓reduceIte]

/-- MSCALE is applied when the turn of both of its slots has come. -/
theorem State.matrixStep_mscale {dst src : Nat} {sa sb : List Byte} (hb : o.body = .mscale dst src sa sb)
    (hd : s.ownTurn o dst = true) (hs : s.ownTurn o src = true) : s.matrixStep o.id = (s.scaleTile o dst src sa sb).endOp o.id := by
  simp only [State.matrixStep, ho, hw, hb, hd, hs, and_self, Bool.not_true, Bool.false_eq_true, ↓reduceIte]

/-- MZERO is applied when the turn of its slot has come. -/
theorem State.matrixStep_mzero {slot : Nat} (hb : o.body = .mzero slot) (ht : s.ownTurn o slot = true) :
    s.matrixStep o.id = (s.setTile o.uid (s.ownTile o slot) (List.replicate 256 LongAcc.zero)).endOp o.id := by
  simp only [State.matrixStep, ho, hw, hb, ht, Bool.not_true, Bool.false_eq_true, ↓reduceIte]

/-! ## MLOOP_OPERAND_FETCH (R173, R174) -/

/-- A fetch of a loop with room ahead reads both blocks of its next step; a fault counts only when no step is ahead. -/
theorem State.loopFetch_due {l : Loop} (hb : o.body = .mloop l) (hn : l.fetched.length < 4)
    (hq : l.applied + l.fetched.length < l.steps) : s.loopFetch o.id =
      match s.loopHandles o l with
      | .error st => if l.fetched = [] then st else s
      | .ok (st, l', ha, hb) =>
        match st.loopBlock o ha l'.aOrg (((l.applied + l.fetched.length : Nat) : Int) * l'.aInc) with
        | .error st => if l.fetched = [] then st else s
        | .ok (st, a) =>
          match st.loopBlock o hb l'.bOrg (((l.applied + l.fetched.length : Nat) : Int) * l'.bInc) with
          | .error st => if l.fetched = [] then st else s
          | .ok (st, b) => st.setBody o.id (.mloop { l' with fetched := l'.fetched ++ [(a, b)] }) := by
  have hDue : ¬((!o.working) = true ∨ 4 ≤ l.fetched.length ∨ l.steps ≤ l.applied + l.fetched.length) := by
    simp [hw, hn, hq]
  unfold State.loopFetch
  rw [ho]
  dsimp only
  rw [hb]
  exact if_neg hDue

/-! ## MDRAIN_WRITE (R177 to R179) -/

/-- A drain reads its handle, when it could not at issue. -/
theorem State.drainWrite_unread {slot part : Nat} {dest : DrainTo} {left : List Nat} (hb : o.body = .mdrain slot dest [] left)
    (hu : o.handleUnread = true) : s.drainWrite o.id part = s.drainHandle o slot dest left := by
  simp only [State.drainWrite, ho, hw, hb, hu, ne_eq, not_true_eq_false, Bool.not_true, Bool.false_eq_true, ↓reduceIte]

/-- A drain that has read its tile writes a part, unless what it must cross is DOWN (log 30). -/
theorem State.drainWrite_part {slot part : Nat} {dest : DrainTo} {vals : List Word} {left : List Nat}
    (hb : o.body = .mdrain slot dest vals left) (hv : vals ≠ []) :
    s.drainWrite o.id part = if s.cutOff o dest.marks then s else s.drainPart o slot dest vals left part := by
  simp only [State.drainWrite, ho, hw, hb, ne_eq, hv, not_false_eq_true, Bool.not_true, Bool.false_eq_true, ↓reduceIte]

section
variable {slot part : Nat} {left : List Nat} (ht : s.ownTurn o slot = true)
include ht

/-- A drain to registers, scratchpad or a queue reads its tile when its turn has come. -/
theorem State.drainWrite_rounds {dest : DrainTo} (hb : o.body = .mdrain slot dest [] left) (hd : dest.Rounds) :
    s.drainWrite o.id part = s.drainRead o slot dest left := by
  have hRead := EngOp.handleRead_local hb hd.not_global
  rcases hd with ⟨r, rfl⟩ | ⟨m, p, rfl⟩ | rfl
  all_goals
    simp only [State.drainWrite, ho, hw, hb, ht, hRead, ne_eq, not_true_eq_false, Bool.not_true, Bool.false_eq_true, ↓reduceIte]

/-- A global drain that passes its checks reads its tile when its turn has come. -/
theorem State.drainWrite_global {hva : DWord} {origin : List Int} {raw : List Byte} {blk : Nat}
    (hb : o.body = .mdrain slot (.global hva origin (some raw) none blk) [] left) : s.drainWrite o.id part =
      match s.drainStart o hva origin (some raw) with
      | .error st => st
      | .ok (st, dest) => st.drainRead o slot dest left := by
  have hRead := EngOp.handleRead_global hb
  rcases hStart : s.drainStart o hva origin (some raw) with st | ⟨st, dest⟩
  all_goals
    simp only [State.drainWrite, ho, hw, hb, ht, hRead, hStart, ne_eq, not_true_eq_false, Bool.not_true, Bool.false_eq_true,
      ↓reduceIte]

/-- A peer drain takes its tile exactly when its turn has come (R179). -/
theorem State.drainWrite_peer {uid tile pos : Nat} {arr : Option LatchTarget}
    (hb : o.body = .mdrain slot (.peer uid tile arr none pos) [] left) : s.drainWrite o.id part =
      s.setBody o.id (.mdrain slot (.peer uid tile arr (some (s.tile o.uid (s.ownTile o slot))) pos) [] left) := by
  have hRead := EngOp.handleRead_local hb (by simp)
  simp only [State.drainWrite, ho, hw, hb, ht, hRead, ne_eq, not_true_eq_false, Bool.not_true, Bool.false_eq_true, ↓reduceIte]

end

end

/-- A part of a scratchpad drain that is left is written: four words of a row (R177). -/
theorem State.drainPart_scratch {slot pitch part : Nat} {marks : List Mark} {vals : List Word} {left : List Nat}
    (hp : part ∈ left) : s.drainPart o slot (.scratch marks pitch) vals left part =
      (s.engSpWrite o marks (pitch * (part / 4) + 16 * (part % 4))
        (wordsBytes ((vals.drop (16 * (part / 4) + 4 * (part % 4))).take 4))).drainDone
          o slot (.scratch marks pitch) vals (left.erase part) :=
  if_neg (by simp [hp])

/-! ## PEER_DRAIN_MERGE (R171, R179) -/

/-- The place of a peer drain at its target: a new one when it reaches it (R171). -/
def State.peerPlace (s : State) (pos : Nat) : Nat := if pos = 0 then s.nextId else pos

/-- The state in which a peer drain stands at its target, a new place taken when it has just reached it, and what its group
has buffered before it drained when it arrives on a latch (R76, R179). -/
def State.peerReached (s : State) (o : EngOp) (slot uid tile : Nat) (arr : Option LatchTarget) (vals : List LongAcc) (pos : Nat)
    (left : List Nat) : State :=
  let st := if pos = 0 then
      { s.setBody o.id (.mdrain slot (.peer uid tile arr (some vals) (s.peerPlace pos)) [] left) with nextId := s.nextId + 1 }
    else s
  if arr = none then st else st.drainBefore o

/-- The state after a peer drain is merged into its target and has arrived. -/
def State.peerMerged (s : State) (o : EngOp) (uid tile : Nat) (arr : Option LatchTarget) (vals : List LongAcc) : State :=
  let st := s.setTile uid tile (mergeTile (s.tile uid tile) vals)
  (match arr with
    | some x => st.reachLatch x Latch.arrive
    | none => st).endOp o.id

/-- A peer drain may merge: its turn has come, its release allows when it arrives, and its target can be reached. -/
def State.MayMerge (s : State) (o : EngOp) (uid tile : Nat) (arr : Option LatchTarget) (here : Nat) : Prop :=
  s.turn o uid tile here = true ∧ (arr = none ∨ s.releasedBefore o = true) ∧ (uid = o.uid ∨ s.netUp o.cl = true)

/-- What holds a peer drain back is that it may not merge. -/
theorem State.mayMerge_iff {uid tile here : Nat} {arr : Option LatchTarget} : s.MayMerge o uid tile arr here ↔
    ¬((!s.turn o uid tile here) = true ∨ (arr.isSome = true ∧ (!s.releasedBefore o) = true) ∨
      (uid ≠ o.uid ∧ (!s.netUp o.cl) = true)) := by
  simp only [State.MayMerge, not_or, not_and_or, Bool.not_eq_true', Bool.not_eq_false, Bool.not_eq_true, Option.isSome_eq_false_iff,
    Option.isNone_iff_eq_none, ne_eq, not_not]

section
variable {slot uid tile pos : Nat} {arr : Option LatchTarget} {vals : List LongAcc} {left : List Nat} (ho : s.op? o.id = some o)
  (hw : o.working = true) (hb : o.body = .mdrain slot (.peer uid tile arr (some vals) pos) [] left)
include ho hw hb

/-- A peer drain that has its tile reaches its target, and is merged there unless something holds it back. -/
theorem State.peerMerge_due : s.peerMerge o.id =
    let st := s.peerReached o slot uid tile arr vals pos left
    if (!st.turn o uid tile (s.peerPlace pos)) = true ∨ (arr.isSome = true ∧ (!st.releasedBefore o) = true) ∨
      (uid ≠ o.uid ∧ (!st.netUp o.cl) = true) then st
    else st.peerMerged o uid tile arr vals := by
  simp only [State.peerMerge, ho, hw, hb, Bool.not_true, Bool.false_eq_true, ↓reduceIte]
  cases arr <;> rfl

/-- A peer drain that may merge is merged. -/
theorem State.peerMerge_merges (hm : (s.peerReached o slot uid tile arr vals pos left).MayMerge o uid tile arr (s.peerPlace pos)) :
    s.peerMerge o.id = (s.peerReached o slot uid tile arr vals pos left).peerMerged o uid tile arr vals :=
  (State.peerMerge_due ho hw hb).trans (if_neg (State.mayMerge_iff.1 hm))

/-- A peer drain that may not merge stays where it has come. -/
theorem State.peerMerge_stays (hm : ¬(s.peerReached o slot uid tile arr vals pos left).MayMerge o uid tile arr (s.peerPlace pos)) :
    s.peerMerge o.id = s.peerReached o slot uid tile arr vals pos left :=
  (State.peerMerge_due ho hw hb).trans (if_pos (not_not.1 (mt State.mayMerge_iff.2 hm)))

end

/-! ## MFACT_COLUMN (R182, R183) -/

/-- What a factor's region holds now (R185). -/
def State.factNow (s : State) (o : EngOp) (hdr : Word) (n : Nat) : List Byte := s.spReadRange (ownMark o.uid hdr) 0 (factBytes n)

/-- The exact pivot of the next column of a region, with the flags of its terms. -/
def factPivot (l : List Byte) (n : Nat) : LongAcc × Word :=
  minusDot (regionWord l (factAt n (regionWord l 4) (regionWord l 4))) (rowBefore l n (regionWord l 4) (regionWord l 4))
    (rowBefore l n (regionWord l 4) (regionWord l 4))

/-- The next column of a region is flagged (R182). -/
def factFlagged (l : List Byte) (n : Nat) : Bool := pivotFlagged (factPivot l n).1.datum (fp32.read (regionWord l 16))

/-- The next column of a region written from a pivot, with the flags of all its roundings. -/
def State.factPut (s : State) (o : EngOp) (hdr : Word) (l : List Byte) (n : Nat) (d : FVal) (fl : Word) : State :=
  let col := factColumn (BitVec.ofNat 32 (fieldAt l 9 1)) l n (regionWord l 4) d
  (s.opFlags o.id ((factPivot l n).2 ||| fl ||| col.2)).putColumn o hdr n (regionWord l 4) col.1

/-- The report of a flagged column, made before when the factor was resumed on it (R183). -/
def State.factReport (s : State) (o : EngOp) (hdr : Word) (l : List Byte) (n : Nat) (again : Bool) : Option State :=
  if again then some s else s.reportPivot o hdr l (regionWord l 4) (factPivot l n).1

/-- A flagged column that is reported: the unit holds there, or writes it regularised (R182). -/
def State.factSettle (s : State) (o : EngOp) (hdr : Word) (l : List Byte) (n : Nat) : State :=
  if fieldAt l 10 1 % 4 = 0 then (s.opFlags o.id (factPivot l n).2).holdPivot o hdr (regionWord l 4)
  else
    let d := regularise (fieldAt l 10 1 % 4) (factPivot l n).1 (regionWord l 20)
    s.factPut o hdr l n d.1 d.2

section
variable {hdr : Word} {n : Nat} {again : Bool} (ho : s.op? o.id = some o) (hw : o.working = true) (hb : o.body = .mfact hdr n again)
include ho hw hb

/-- A factor without a column left ends. -/
theorem State.factStep_ended (hj : n ≤ regionWord (s.factNow o hdr n) 4) :
    s.factStep o.id = (s.engSpWrite o (ownMark o.uid hdr) 8 [2]).endOp o.id := by
  unfold State.factNow at hj
  simp only [State.factStep, ho, hw, hb, hj, Bool.not_true, Bool.false_eq_true, ↓reduceIte]

variable (hj : regionWord (s.factNow o hdr n) 4 < n)
include hj

/-- The next column of a factor is written, or reported first when it is flagged. -/
theorem State.factStep_column : s.factStep o.id =
    if !factFlagged (s.factNow o hdr n) n then s.factPut o hdr (s.factNow o hdr n) n (factPivot (s.factNow o hdr n) n).1.datum 0
    else match s.factReport o hdr (s.factNow o hdr n) n again with
      | none => s
      | some st => st.factSettle o hdr (s.factNow o hdr n) n := by
  have hOpen : ¬n ≤ regionWord (s.spReadRange (ownMark o.uid hdr) 0 (factBytes n)) 4 := Nat.not_le.2 hj
  simp only [State.factStep, ho, hw, hb, hOpen, Bool.not_true, Bool.false_eq_true, ↓reduceIte]
  rfl

/-- A column that is not flagged is written. -/
theorem State.factStep_unflagged (hf : factFlagged (s.factNow o hdr n) n = false) :
    s.factStep o.id = s.factPut o hdr (s.factNow o hdr n) n (factPivot (s.factNow o hdr n) n).1.datum 0 :=
  (State.factStep_column ho hw hb hj).trans (if_pos (by simp [hf]))

variable (hf : factFlagged (s.factNow o hdr n) n = true)
include hf

/-- A flagged column whose report finds no room waits. -/
theorem State.factStep_unreported (hr : s.factReport o hdr (s.factNow o hdr n) n again = none) : s.factStep o.id = s := by
  simp only [State.factStep_column ho hw hb hj, hf, hr, Bool.not_true, Bool.false_eq_true, ↓reduceIte]

/-- A flagged column that is reported settles. -/
theorem State.factStep_reported {st : State} (hr : s.factReport o hdr (s.factNow o hdr n) n again = some st) :
    s.factStep o.id = st.factSettle o hdr (s.factNow o hdr n) n := by
  simp only [State.factStep_column ho hw hb hj, hf, hr, Bool.not_true, Bool.false_eq_true, ↓reduceIte]

end

/-! ## MTRSM_ROW (R186) -/

/-- A triangular solve at one of its rows. -/
structure Solve where
  hdr : Word
  src : Word
  dst : Word
  n : Nat
  r : Nat
  back : Bool
  row : Nat

/-- The body of a solve's command. -/
def Solve.body (v : Solve) : OpBody := .mtrsm v.hdr v.src v.dst v.n v.r v.back v.row

/-- The row of the result that a solve is at: a backward one goes up from the last. -/
def Solve.here (v : Solve) : Nat := if v.back then v.n - 1 - v.row else v.row

/-- The rows that the row of a solve needs. -/
def Solve.before (v : Solve) : List Nat := if v.back then (List.range (v.n - 1 - v.here)).map (· + v.here + 1) else List.range v.here

/-- The elements of a solve's row, each rounded once, with their flags. -/
def State.solveCells (s : State) (o : EngOp) (v : Solve) : List (Nat × Word) :=
  let l := s.spReadRange (ownMark o.uid v.hdr) 0 (factBytes v.n)
  let b := s.spReadRange (ownMark o.uid v.src) 0 (4 * v.n * v.r)
  let y := s.spReadRange (ownMark o.uid v.dst) 0 (4 * v.n * v.r)
  (List.range v.r).map fun c =>
    let x := minusDot (regionWord b (4 * (v.r * v.here + c)))
      (v.before.map fun k => regionWord l (if v.back then factAt v.n k v.here else factAt v.n v.here k))
      (v.before.map fun k => regionWord y (4 * (v.r * k + c)))
    let q := divOnce (BitVec.ofNat 32 (o.round.toNat % 8)) x.1.datum (regionWord l (factAt v.n v.here v.here))
    (q.1, x.2 ||| q.2)

/-- The state after a row of a solve is written. -/
def State.solveRow (s : State) (o : EngOp) (v : Solve) : State :=
  ((s.engSpWrite o (ownMark o.uid v.dst) (4 * v.r * v.here) ((s.solveCells o v).flatMap fun x => leBytes 4 x.1)).opFlags o.id
    ((s.solveCells o v).foldl (fun w x => w ||| x.2) 0)).setBody o.id { v with row := v.row + 1 }.body

/-- The next row of a solve is written; the last one ends it. -/
theorem State.trsmRow_due {v : Solve} (ho : s.op? o.id = some o) (hw : o.working = true) (hb : o.body = v.body) :
    s.trsmRow o.id = if v.row + 1 < v.n then s.solveRow o v else (s.solveRow o v).endOp o.id := by
  unfold Solve.body at hb
  simp only [State.trsmRow, ho, hw, hb, Bool.not_true, Bool.false_eq_true, ↓reduceIte]
  rfl

end

/-- Settles O47, each event by the lemmas above on the step it takes. -/
theorem matrixEvents : Obligations.MatrixEvents := by
  unfold Obligations.MatrixEvents
  intro s o ho hs hp hv
  have hw := EngOp.working_of hs hp hv
  refine ⟨fun slot cfg a b hb ht => ?_, fun l a b rest hb hf ht => ?_, fun dst src sa sb hb hd hs => ?_, fun slot hb ht => ?_,
    fun l hb hn hq => ?_, fun slot dest left part hb ht => ⟨fun hd => ?_, fun hva origin raw blk hd => ?_, fun uid tile arr pos hd => ?_⟩,
    fun slot hva origin h blk left part hb => ?_, fun slot dest vals left part hb hv => ?_,
    fun slot marks pitch vals left part hp => State.drainPart_scratch hp, fun slot uid tile arr vals pos left hb => ?_,
    fun hdr n again hb => ⟨fun hj => ?_, fun hj hf => ?_, fun hj hf => ?_⟩, fun hdr src dst n r back row hb => ?_⟩
  · exact congrArg Host.Outcome.next (State.matrixStep_mma ho hw hb ht)
  · exact congrArg Host.Outcome.next ((State.matrixStep_mloop ho hw hb ht).trans (State.loopStep_fetched hf))
  · exact congrArg Host.Outcome.next (State.matrixStep_mscale ho hw hb hd hs)
  · exact congrArg Host.Outcome.next (State.matrixStep_mzero ho hw hb ht)
  · exact congrArg Host.Outcome.next (State.loopFetch_due ho hw hb hn hq)
  · exact congrArg Host.Outcome.next (State.drainWrite_rounds ho hw ht hb hd)
  · subst hd
    exact congrArg Host.Outcome.next (State.drainWrite_global ho hw ht hb)
  · subst hd
    exact congrArg Host.Outcome.next (State.drainWrite_peer ho hw ht hb)
  · exact congrArg Host.Outcome.next (State.drainWrite_unread ho hw hb (EngOp.handleUnread_drain hs hb))
  · exact congrArg Host.Outcome.next (State.drainWrite_part ho hw hb hv)
  · intro here s1 s2 merged
    split_ifs with hMay
    · exact congrArg Host.Outcome.next (State.peerMerge_merges ho hw hb hMay)
    · exact congrArg Host.Outcome.next (State.peerMerge_stays ho hw hb hMay)
  · exact congrArg Host.Outcome.next (State.factStep_ended ho hw hb hj)
  · exact congrArg Host.Outcome.next (State.factStep_unflagged ho hw hb hj hf)
  · split
    · next hr => exact congrArg Host.Outcome.next (State.factStep_unreported ho hw hb hj hf hr)
    · next st hr => exact congrArg Host.Outcome.next (State.factStep_reported ho hw hb hj hf hr)
  · exact congrArg Host.Outcome.next (State.trsmRow_due (v := ⟨hdr, src, dst, n, r, back, row⟩) ho hw hb)

end Sys2Proof.Machine

/-! PROOFS. The five words of xfer (O34). -/

namespace Sys2Proof.Machine

open Sys2Proof

section
variable {minor : Nat} {w : RM} {s : State} {i : Issue}

/-! ## XFER_PUT, XFER_PUTRED and XFER_GET (R194, R195, R199, R328) -/

/-- The bytes of a transfer. -/
def xferLen (w : RM) (i : Issue) : Nat := (blockReg w i 4).toNat

/-- The control word of a transfer. -/
abbrev xferCtl (w : RM) (i : Issue) : Word := blockReg w i 5

/-- The local address of a transfer that is not in scratchpad. -/
def xferLocal (w : RM) (i : Issue) : DWord := i.rd2 i.first w.a.toNat

/-- The remote address of a transfer. -/
def xferRemote (w : RM) (i : Issue) : DWord := i.rd2 i.first (w.a.toNat + 2)

/-- The boundary of both addresses of a transfer: 128 bytes where spill images are merged outside the aperture (R195). -/
def xferAlign (minor : Nat) (w : RM) (i : Issue) : Nat :=
  if minor = 1 ∧ ((xferCtl w i).extractLsb' 16 4).toNat = 0 ∧ (xferRemote w i).extractLsb' 44 4 ≠ 0xF then 128 else 16

/-- An operand block whose fields, addresses and latch reference R194, R195 and R199 allow, of a subset without a
hypothesis. -/
structure XferLegal (minor : Nat) (w : RM) (s : State) (i : Issue) : Prop where
  fields : xferIllegal minor (xferLen w i) (xferCtl w i).toNat (blockReg w i 7).toNat (xferRemote w i) = false
  ref : RefOk s i ((xferCtl w i).getLsbD 13) (blockReg w i 6)
  remoteForm : (xferRemote w i).extractLsb' 48 16 = 0
  remoteAligned : xferAlign minor w i ∣ (xferRemote w i).toNat
  global : (xferCtl w i).getLsbD 15 = false → (xferLocal w i).extractLsb' 48 16 = 0 ∧ xferAlign minor w i ∣ (xferLocal w i).toNat
  scratch : (xferCtl w i).getLsbD 15 = true → (blockReg w i 0).extractLsb' 30 2 = 0 ∧
    (s.spMarks i.t (blockReg w i 0) (xferLen w i)).isSome ∧ xferAlign minor w i ∣ (blockReg w i 0).toNat
  root : i.subsetHyp = 0

/-- The transfer that an operand block asks for, armed when an arm is pending. -/
def xferAsked (minor : Nat) (w : RM) (s : State) (i : Issue) : Xfer :=
  { minor := minor, va := xferLocal w i, marks := (s.spMarks i.t (blockReg w i 0) (xferLen w i)).getD [],
    spl := (xferCtl w i).getLsbD 15, remote := xferRemote w i, len := xferLen w i,
    rtype := ((xferCtl w i).extractLsb' 16 4).toNat, dev := ((xferCtl w i).extractLsb' 0 10).toNat, block := w.a.toNat,
    armed := i.g.arm.map fun x => (x.lk, x.n, (i.t.latch x.lk).phases),
    entry := s.reduceEntry ((xferRemote w i).extractLsb' 32 12).toNat,
    sent := false, sentAt := 0, sentNo := 0, port := 0, spoiled := false, data := none }

/-- The latch of a transfer: its counts come from outside the core (R83). -/
def xferLatch (w : RM) (s : State) (i : Issue) : Option LatchTarget :=
  (refTarget s i ((xferCtl w i).getLsbD 13) (blockReg w i 6)).map fun x => { x with far := true }

/-- The state in which a transfer goes on its counter: before an armed one the armed transfers whose moment has come have
fired (log 66). -/
def State.armsSettled (s : State) (i : Issue) : State := if i.g.arm.isSome then s.settleArms else s

/-- The command of a transfer. -/
def xferOp (minor : Nat) (w : RM) (s : State) (i : Issue) : EngOp :=
  i.op (s.armsSettled i) 3 (xferLatch w s i) ((xferCtl w i).getLsbD 14) .running (.xfer (xferAsked minor w s i))

/-- The state after a transfer has gone on its counter, spent the arm of its group, and started. -/
def State.xferStarted (s : State) (i : Issue) (o : EngOp) : State :=
  (((s.addOp o).mapGroup i.c.uid i.c.gid fun g => { g with arm := none }).sendXfer o.id).armedFire o.id

/-- A transfer must be tried again: its counter is full, an acquire is before it (log 37), or it is armed and the table of
its core is full (R198). -/
abbrev XferFull (s : State) (i : Issue) : Prop :=
  255 ≤ s.counter i.c.uid i.c.gid 3 ∨ s.acquiring i = true ∨
    i.g.arm.isSome = true ∧ 64 ≤ (s.armedTable i.t.cl (i.t.coreOf i.c.gid)).length

/-- A transfer with room on its counter and in its table, and no acquire before it, goes on. -/
theorem not_xferFull (hc : s.counter i.c.uid i.c.gid 3 < 255) (ha : s.acquiring i = false)
    (ht : i.g.arm.isSome = true → (s.armedTable i.t.cl (i.t.coreOf i.c.gid)).length < 64) : ¬XferFull s i := by
  rintro (hCnt | hAcq | ⟨hArm, hTable⟩)
  · exact Nat.not_le.2 hc hCnt
  · exact Bool.eq_false_iff.1 ha hAcq
  · exact Nat.not_le.2 (ht hArm) hTable

/-- A legal transfer releases, then is tried again or goes on its counter and starts. -/
theorem XferLegal.xferDone_eq (h : XferLegal minor w s i) : xferDone minor w s i = releaseWord i s .system
    (if XferFull s i then retry s i else nothing ((s.armsSettled i).xferStarted i (xferOp minor w s i))) := by
  have hGlobal (hg : (!(xferCtl w i).getLsbD 15) = true) := h.global (by simpa using hg)
  refine (checked_eq ?_).trans ?_
  · simp only [List.mem_cons, List.not_mem_nil, or_false]
    rintro x (rfl | rfl | rfl | rfl | rfl | rfl | rfl | rfl | rfl)
    · exact Bool.or_eq_false_iff.2 ⟨h.fields, refOk_legal h.ref⟩
    · exact Bool.and_eq_false_imp.2 fun hg => bne_zero (hGlobal hg).1
    · exact bne_zero h.remoteForm
    · exact Bool.and_eq_false_imp.2 fun hs =>
        Bool.or_eq_false_iff.2 ⟨bne_zero (h.scratch hs).1, isNone_of_isSome (h.scratch hs).2.1⟩
    · exact Bool.and_eq_false_imp.2 fun hg =>
        bne_eq_false_iff_eq.2 (Nat.mod_eq_zero_of_dvd (hGlobal hg).2)
    · exact bne_eq_false_iff_eq.2 (Nat.mod_eq_zero_of_dvd h.remoteAligned)
    · exact Bool.and_eq_false_imp.2 fun hs => bne_eq_false_iff_eq.2 (Nat.mod_eq_zero_of_dvd (h.scratch hs).2.2)
    · exact refOk_refBad h.ref
    · exact bne_zero h.root
  · simp only [refTarget_eq, Option.isSome_map]
    rfl

/-- A word of a legal transfer: it waits for its release, is tried again, or starts its transfer. -/
theorem XferLegal.starts {word : Instr} (h : XferLegal minor w s i) (hx : ∀ s, exec word s = issueWord word.view (xferDone minor w) s)
    (hi : InHand word anyLit asIs s i) :
    (¬MayRelease s i .system → Retries word s i (s.beginRelease i.t.cl (i.t.coreOf i.c.gid) i.c.uid i.c.gid .system)) ∧
    (MayRelease s i .system → XferFull s i → Retries word s i s) ∧
    (MayRelease s i .system → ¬XferFull s i →
      Ends word asIs s i ((s.armsSettled i).xferStarted i (xferOp minor w s i)) {}) := by
  refine ⟨fun hm => ?_, fun hm hf => ?_, fun hm hf => ?_⟩
  · exact retries_of hx hi (h.xferDone_eq.trans (releaseWord_waits hm _))
  · exact retries_of hx hi (h.xferDone_eq.trans ((releaseWord_eq hm _).trans (if_pos hf)))
  · exact ends_nothing hx hi (h.xferDone_eq.trans ((releaseWord_eq hm _).trans (if_neg hf)))

/-! ## XFER_ARM and XFER_DISARM (R144, R198, R328) -/

/-- The entries of the core's table that XFER_ARM finds taken: the armed transfers, and one for each other group that has armed
its next one. -/
def State.armsHeld (s : State) (i : Issue) : Nat :=
  (s.armedTable i.t.cl (i.t.coreOf i.c.gid)).length + s.armsPending i.t.cl (i.t.coreOf i.c.gid) i.c.uid i.c.gid

/-- XFER_ARM of a threshold that R198 allows is tried again, or arms the group's next transfer. -/
theorem xferArmDone_legal (hn : (i.srcA w i.first).toNat < 2 ^ 31) (hs : i.subsetHyp = 0) : xferArmDone w s i =
    if 64 ≤ s.armsHeld i then retry s i
    else nothing (s.mapGroup i.c.uid i.c.gid fun g => { g with arm := some { lk := w.d.toNat, n := (i.srcA w i.first).toNat } }) := by
  have hTop : (i.srcA w i.first).getLsbD 31 = false := Nat.testBit_lt_two_pow hn
  simp only [xferArmDone, hTop, hs, ne_eq, not_true_eq_false, Bool.false_eq_true, ↓reduceIte]
  rfl

/-- The armed transfers of the group that have not fired. -/
def State.unfired (s : State) (i : Issue) : List EngOp :=
  (s.classOps i.c.uid i.c.gid 3).filter fun o => o.stage != .finished && (o.xfer?.any fun x => x.armed.isSome)

/-- A transfer is discarded: it ends as delivered (R198). -/
def State.discardXfer (s : State) (o : EngOp) : State :=
  match o.xfer? with
  | some x => (s.mapXfer o.id fun x => { x with armed := none }).endTransfer o x 0
  | none => s

/-- The state after XFER_DISARM: no armed transfer of the group is left unfired, and no arm is pending. -/
def State.disarmed (s : State) (i : Issue) : State :=
  ((s.unfired i).foldl State.discardXfer s).mapGroup i.c.uid i.c.gid fun g => { g with arm := none }

/-- XFER_DISARM discards the group's unfired transfers and gives their number. -/
theorem xferDisarmDone_root (hs : i.subsetHyp = 0) : xferDisarmDone w s i =
    { nothing (s.disarmed i) with res := fun _ => [(w.d.toNat, BitVec.ofNat 32 (s.unfired i).length)] } :=
  if_neg (not_not.2 hs)

end

/-- Settles O34: each word by the equation of its body under the checks of its operands. -/
theorem transferWords : Obligations.TransferWords := by
  unfold Obligations.TransferWords
  intro w s i
  refine ⟨fun row hrow => ?_, fun h hn hs => ?_, fun h hs => ?_⟩
  · intro r va remote len ctl spl al x s0 o h hFields hRef hForm hRemote hGlobal hScratch hs
    have hLegal : XferLegal row.2 w s i := ⟨hFields, hRef, hForm, hRemote, hGlobal, hScratch, hs⟩
    have hx : ∀ s, exec (row.1 w) s = issueWord (row.1 w).view (xferDone row.2 w) s := by
      simp only [List.mem_cons, List.not_mem_nil, or_false] at hrow
      obtain rfl | rfl | rfl := hrow <;> exact fun _ => rfl
    obtain ⟨hWaits, hAgain, hStarts⟩ := hLegal.starts hx h
    exact ⟨hWaits, hAgain, fun hm hc ha ht => hStarts hm (not_xferFull hc ha ht)⟩
  · have hBody := xferArmDone_legal (s := s) hn hs
    exact ⟨fun hRoom => ends_nothing (fun _ => rfl) h (hBody.trans (if_neg (Nat.not_le.2 hRoom))),
      fun hFull => retries_of (fun _ => rfl) h (hBody.trans (if_pos hFull))⟩
  · exact ends_gives (fun _ => rfl) h (xferDisarmDone_root hs)

end Sys2Proof.Machine

/-! PROOFS. Decoding and encoding agree (O55), and the words that the spec assembles (O54). -/

namespace Sys2Proof

/-! ## The row of a word, by what names it (R227, R229) -/

/-- The row that a major opcode names with the number its format reads: the minor `m`, the operation `ao` of an atomic, the
`kind` of a fence, the bit `wr` of a csr word. The fields are read from `w`. -/
noncomputable def rowNamed (op m ao kind : Nat) (wr : Bool) (w : Word) : Option Instr :=
  match op / 16 with
  | 0 =>
    match op % 16 with
    | 0 => rowOf00 m w
    | lo => rowsOf0 lo w
  | 1 =>
    match op % 16 with
    | 6 => rowOf16 m w
    | lo => rowsOf1 lo w
  | 2 =>
    match op % 16 with
    | 0 => rowOf20 m w
    | 10 => rowOf2A m w
    | lo => rowsOf2 lo w
  | 3 =>
    match op % 16 with
    | 15 => rowOf3F m w
    | lo => rowsOf3 lo w
  | 4 =>
    match op % 16 with
    | 12 => rowOf4C m w
    | lo => rowsOf4 lo w
  | 5 =>
    match op % 16 with
    | 0 => rowOf50 m w
    | 1 => rowOf51 m w
    | 5 => rowOf55 m w
    | 6 => rowOf56 m w
    | 11 => rowOf5B m w
    | lo => rowsOf5 lo w
  | 6 =>
    match op % 16 with
    | 1 => rowOf61 ao w
    | 2 => rowOf62 ao w
    | 3 => rowOf63 ao w
    | 4 => rowOf64 ao w
    | 6 => rowOf66 kind w
    | 7 => rowOf67 m w
    | 9 => rowOf69 m w
    | 14 => rowOf6E m w
    | 15 => rowOf6F m w
    | lo => rowsOf6 lo w
  | _ =>
    match op % 16 with
    | 1 => rowOf71 m w
    | 5 => rowOf75 m w
    | 6 => rowOf76 m w
    | 7 => rowOf77 m w
    | 11 => rowOf7B m w
    | 13 => rowOf7D m w
    | 14 => rowOf7E wr w
    | 15 => rowOf7F m w
    | lo => rowsOf7 lo w

/-- The decoder looks the row up by the numbers that the word carries. -/
theorem candidate_eq_rowNamed (w : Word) :
    candidate w = rowNamed (w.extractLsb' 23 7).toNat (w.extractLsb' 5 6).toNat (w.extractLsb' 1 4).toNat
      (w.extractLsb' 9 2).toNat (bitAt w 3) w := by
  have hHi : (w.extractLsb' 23 7).toNat / 16 = (w.extractLsb' 27 3).toNat := by
    simp only [BitVec.extractLsb'_toNat, Nat.shiftRight_eq_div_pow]; omega
  have hLo : (w.extractLsb' 23 7).toNat % 16 = (w.extractLsb' 23 4).toNat := by
    simp only [BitVec.extractLsb'_toNat, Nat.shiftRight_eq_div_pow]; omega
  rw [candidate, rowNamed, hHi, hLo]
  generalize (w.extractLsb' 27 3).toNat = hi
  generalize (w.extractLsb' 23 4).toNat = lo
  match hi with
  | 0 | 1 | 2 | 3 | 4 | 5 | 6 | _ + 7 =>
    match lo with
    | 0 | 1 | 2 | 3 | 4 | 5 | 6 | 7 | 8 | 9 | 10 | 11 | 12 | 13 | 14 | 15 | _ + 16 => rfl

/-- The fields of the view are those of the word. -/
def View.FieldsOf (v : View) (w : Word) : Prop :=
  match v with
  | .rr _ _ _ x => RR.ofWord w = x
  | .rm _ _ _ _ x => RM.ofWord w = x
  | .rn _ _ _ _ x => RN.ofWord w = x
  | .fn _ x => FN.ofWord w = x
  | .ri _ x => RI.ofWord w = x
  | .br _ _ x => BR.ofWord w = x
  | .mem _ _ _ x => MEM.ofWord w = x
  | .at _ _ x => AT.ofWord w = x
  | .event => False

/-- The row that the numbers of a view name, whatever a format does not read being as given. -/
noncomputable def View.named (v : View) (m ao kind : Nat) (wr : Bool) (w : Word) : Option Instr :=
  match v with
  | .rr op _ _ _ | .ri op _ | .br op _ _ | .mem op _ _ _ => rowNamed (BitVec.ofNat 7 op).toNat m ao kind wr w
  | .rm op m _ _ _ => rowNamed (BitVec.ofNat 7 op).toNat (BitVec.ofNat 6 m).toNat ao kind wr w
  | .rn op wr _ _ _ => rowNamed (BitVec.ofNat 7 op).toNat m ao kind wr w
  | .fn kind _ => rowNamed 0x66 m ao (BitVec.ofNat 2 kind).toNat wr w
  | .at op ao _ => rowNamed (BitVec.ofNat 7 op).toNat m (BitVec.ofNat 4 ao).toNat kind wr w
  | .event => none

/-- The numbers in an instruction's view name that instruction: the opcode table and the tables of rows agree, row by row. -/
theorem Instr.named_view (i : Instr) (m ao kind : Nat) (wr : Bool) {w : Word} (h : i.view.FieldsOf w) :
    i.view.named m ao kind wr w = some i := by
  cases i <;> cases h <;> rfl

/-- A word that carries a view is looked up under the numbers of the view, and has its fields. -/
theorem candidate_of_carried {v : View} {w : Word} (h : Laws.View.Carried v w) :
    v.FieldsOf w ∧ candidate w =
      v.named (w.extractLsb' 5 6).toNat (w.extractLsb' 1 4).toNat (w.extractLsb' 9 2).toNat (bitAt w 3) w := by
  rw [candidate_eq_rowNamed]
  match v, h with
  | .rr .., ⟨hOp, hw⟩ | .ri .., ⟨hOp, hw⟩ | .br .., ⟨hOp, hw⟩ | .mem .., ⟨hOp, hw⟩ => exact ⟨hw, by rw [hOp]; rfl⟩
  | .rm .., ⟨hOp, hNum, hw⟩ | .rn .., ⟨hOp, hNum, hw⟩ | .fn .., ⟨hOp, hNum, hw⟩ | .at .., ⟨hOp, hNum, hw⟩ =>
    exact ⟨hw, by rw [hOp, hNum]; rfl⟩

/-- The row of an instruction's word is the instruction. -/
theorem candidate_of_encode {i : Instr} {w : Word} (h : encode i = some w) : candidate w = some i := by
  obtain ⟨hFields, hNamed⟩ := candidate_of_carried (Laws.View.carried_pack h)
  rw [hNamed, Instr.named_view i _ _ _ _ hFields]

/-- An instruction whose reserved fields are zero and whose U bit is allowed decodes from its word (R208, R218). -/
theorem decodeWord_of_encode {i : Instr} {w : Word} (hOk : i.view.ok = true) (h : encode i = some w) :
    decodeWord w = some i := by
  simp only [decodeWord, candidate_of_encode h, hOk, h, beq_self_eq_true, Bool.and_self, ↓reduceIte]

/-- A word decodes to an instruction of which it is the encoding. -/
theorem encode_of_decodeWord {i : Instr} {w : Word} (h : decodeWord w = some i) : i.view.ok = true ∧ encode i = some w := by
  rw [decodeWord] at h
  split at h
  · cases h
  · split at h
    · rename_i hl
      cases h
      simpa using hl
    · cases h

/-- A word is refused when its row's own encoding does not give it back (R208). -/
theorem decodeWord_of_ne_encode {i : Instr} {w : Word} (hc : candidate w = some i) (h : encode i ≠ some w) :
    decodeWord w = none := by
  have hne : (encode i == some w) = false := beq_eq_false_iff_ne.2 h
  simp only [decodeWord, hc, hne, Bool.and_false, Bool.false_eq_true, ↓reduceIte]

/-- A word whose numbers name no row is refused (R218). -/
theorem decodeWord_of_candidate_none {w : Word} (hc : candidate w = none) : decodeWord w = none := by
  simp only [decodeWord, hc]

/-- Every view but that of an operation of the device has a word. -/
theorem View.pack_isSome {v : View} (h : v ≠ .event) : ∃ w, v.pack = some w := by
  cases v
  case event => exact absurd rfl h
  all_goals exact ⟨_, rfl⟩

end Sys2Proof

namespace Sys2Proof.Machine

open Sys2Proof

/-- Settles O55: the word of an instruction carries the numbers of its row, under which the decoder finds it. -/
theorem decodeEncode : Obligations.DecodeEncode := by
  refine ⟨fun i w => decodeWord_of_encode, fun i => View.pack_isSome, fun i h => ?_, fun i w => encode_of_decodeWord,
    fun i j w hi hj ei ej => ?_⟩
  · rw [encode, h]; rfl
  · exact Option.some.inj ((decodeWord_of_encode hi ei).symm.trans (decodeWord_of_encode hj ej))

/-- Settles O54: each assembled word is the encoding of its instruction; of the other two, one has a reserved bit of its row
set and the minor of the other names no row. -/
theorem decodeWords : Obligations.DecodeWords := by
  refine ⟨?_, ?_, ?_, ?_, ?_, ?_, ?_, ?_, ?_, ?_, ?_, ?_, ?_, ?_, ?_, ?_, ?_⟩
  case refine_16 => exact decodeWord_of_ne_encode (i := .nop (RM.ofWord 2)) rfl (by decide)
  case refine_17 => exact decodeWord_of_candidate_none rfl
  all_goals exact decodeWord_of_encode rfl rfl

end Sys2Proof.Machine

/-! PROOFS. Words that only move the PC or the meeting register, FREE and YIELD (O8, O12), and that no instruction is refused
(O41). -/

namespace Sys2Proof.Machine

open Sys2Proof

/-! ## NOP, FREE and YIELD (R204, R239, R240) -/

/-- YIELD changes nothing when no group of its lane is ready (R239). -/
theorem State.exchange_none {s : State} {uid gid : Nat} {t : Team} {g : Group} (ht : s.team? uid = some t)
    (hg : t.groups[gid]? = some g) (h : s.oldestReady t gid g = none) : s.exchange uid gid = s := by
  simp only [State.exchange, ht, hg, h]

/-- A body that leaves registers and accumulators alone names none twice. -/
theorem apart_plain {st : State} {i : Issue} (trap : Nat → Option (Nat × Word)) (jump : Nat → Option DWord)
    (edit : Nat → Thread → Thread) (quiet : Bool) :
    ({ nothing st with trap := trap, jump := jump, edit := edit, quiet := quiet } : Done).Apart i :=
  apart_res st i _ _ _ _ _ _ _ _ fun _ => List.nodup_nil

/-- A word that only sends its threads elsewhere, or changes what the registers do not hold, computes. -/
theorem computes_plain {word : Instr} {jump : Issue → Nat → Option DWord} {edit : Issue → Nat → Thread → Thread} {quiet : Bool}
    (hx : ∀ s, exec word s =
      issueWord word.view (fun s i => { nothing s with jump := jump i, edit := edit i, quiet := quiet }) s) :
    Computes word fun _ i => { goto := jump i, edit := edit i, quiet := quiet } :=
  computes_of_body hx fun _ _ _ => ⟨rfl, fun _ _ => rfl, apart_plain _ _ _ _, rfl, rfl⟩

/-- Settles O8: the body of each word is nothing, but for the exchange and the issue that NOP does not count. -/
theorem miscWords : Obligations.MiscWords := by
  refine ⟨fun w => computes_plain fun _ => rfl, fun w => ?_, fun w => ?_, fun s uid gid t g => State.exchange_none⟩
  · exact completes_of_body (body := fun s _ => nothing s) (fun _ => rfl)
      fun s i _ _ => ⟨rfl, fun _ _ => rfl, apart_nothing s i, rfl, rfl⟩
  · exact completes_of_body (body := yieldDone) (fun _ => rfl)
      fun s i _ _ => ⟨rfl, fun _ _ => rfl, apart_nothing _ i, rfl, rfl⟩

/-! ## Branches, calls, jumps and MEET (R261 to R264) -/

/-- The target of a jump lies on a packet and within 48 bits (R263). -/
abbrev Issue.jumpOk (i : Issue) (w : BR) (k : Nat) : Prop :=
  (i.rd2 (i.one k) w.a.toNat).extractLsb' 0 4 = 0 ∧ (i.rd2 (i.one k) w.a.toNat).extractLsb' 48 16 = 0

/-- A jump in a thread whose target is allowed does not trap. -/
theorem jmpiDone_trap_of_jumpOk {w : BR} {s : State} {i : Issue} {k : Nat} (h : i.jumpOk w k) :
    (jmpiDone w s i).trap k = none :=
  if_pos h

/-- A jump in a thread whose target is not allowed traps MISALIGN with its low word. -/
theorem jmpiDone_trap_of_not_jumpOk {w : BR} {s : State} {i : Issue} {k : Nat} (h : ¬ i.jumpOk w k) :
    (jmpiDone w s i).trap k = some (cMisalign, (i.rd2 (i.one k) w.a.toNat).extractLsb' 0 32) :=
  if_neg h

/-- A conditional branch is taken by the threads whose register meets its condition (R261). -/
theorem computes_branchOn {word : Instr} {p : Word → Bool} {w : BR}
    (hx : ∀ s, exec word s = issueWord word.view (branchOn p w) s) :
    Computes word fun _ i =>
      { goto := fun k => if p (i.rd (i.one k) w.a.toNat) then some (branchTarget i.c.pc w.t) else none } :=
  computes_plain (edit := fun _ _ th => th) hx

/-- Settles O12: BR, BNZ, BZ and MEET change no register, CALL writes one pair, and JMPI checks its target first. -/
theorem controlTransfers : Obligations.ControlTransfers := by
  refine ⟨fun w => ?_, fun w => ?_, fun w => ?_, fun w => ?_, fun w => ?_, fun w s i h hc hBad => ?_, fun w => ?_,
    fun pc t => ⟨rfl, rfl⟩⟩
  · exact computes_plain (edit := fun _ _ th => th) fun _ => rfl
  · simpa using computes_branchOn (word := .bnz w) (p := fun a => a != 0) fun _ => rfl
  · simpa using computes_branchOn (word := .bz w) (p := fun a => a == 0) fun _ => rfl
  · exact computes_of_body (body := callDone w) (fun _ => rfl)
      fun s i _ => ⟨rfl, fun _ _ => rfl, apart_res _ _ _ _ _ _ _ _ _ _ fun _ => pairOf_nodup _ _, rfl, rfl⟩
  · exact completes_of_body (body := jmpiDone w) (fun _ => rfl)
      fun s i _ hOk => ⟨rfl, fun k hk => jmpiDone_trap_of_jumpOk (hOk k hk), apart_plain _ _ _ _, rfl, rfl⟩
  · exact traps_of (body := jmpiDone w) (fun _ => rfl) h hc _ rfl (fun k hk _ => jmpiDone_trap_of_not_jumpOk (hBad k hk))
      (fun hu _ j k => by simp only [Issue.one_uniform hu]) h.2.team h.2.group rfl fun _ => rfl
  · exact computes_plain (jump := fun _ _ => none) fun _ => rfl

/-! ## No instruction is refused (R218, R235) -/

/-- An operation of the device ends in a next state. -/
theorem exec_event_next {i : Instr} (h : i.view = .event) (s : State) : ∃ t, exec i s = .next t := by
  cases i <;> cases h <;> exact ⟨_, rfl⟩

section
variable {v : View} {litOk : Issue → Word → Bool} {pick : Issue → List Opd → List Opd} {body : State → Issue → Done} {s : State}

/-- A word in hand for a resident group ends in a next state. -/
theorem issueWith_next {c : Cur} {t : Team} {g : Group} (hc : s.cur = some c) (ht : s.team? c.uid = some t)
    (hg : t.groups[c.gid]? = some g) : issueWith v litOk pick body s = .next (runWord v litOk pick body s c t g) := by
  simp only [issueWith, hc, ht, hg]

/-- Without a word in hand for a resident group the issue faults. -/
theorem issueWith_fault (h : ¬ ∃ c t g, s.cur = some c ∧ s.team? c.uid = some t ∧ t.groups[c.gid]? = some g) :
    issueWith v litOk pick body s = .fault .noIssue := by
  unfold issueWith
  split
  · rfl
  · rename_i c hc
    split
    · rfl
    · rename_i t ht
      split
      · rfl
      · rename_i g hg
        exact absurd ⟨c, t, g, hc, ht, hg⟩ h

end

/-- A word ends in a next state exactly when it is in hand for a resident group. -/
theorem issueWith_next_iff (v : View) (litOk : Issue → Word → Bool) (pick : Issue → List Opd → List Opd)
    (body : State → Issue → Done) (s : State) : (∃ s', issueWith v litOk pick body s = .next s') ↔
      ∃ c t g, s.cur = some c ∧ s.team? c.uid = some t ∧ t.groups[c.gid]? = some g := by
  refine ⟨fun ⟨s', hs⟩ => ?_, fun ⟨c, t, g, hc, ht, hg⟩ => ⟨_, issueWith_next hc ht hg⟩⟩
  by_contra h
  rw [issueWith_fault h] at hs
  cases hs

/-- The issue of a word is never refused. -/
theorem issueWith_not_refused (v : View) (litOk : Issue → Word → Bool) (pick : Issue → List Opd → List Opd)
    (body : State → Issue → Done) (s : State) (r : Refusal) : issueWith v litOk pick body s ≠ .refused r := by
  by_cases h : ∃ c t g, s.cur = some c ∧ s.team? c.uid = some t ∧ t.groups[c.gid]? = some g
  · obtain ⟨c, t, g, hc, ht, hg⟩ := h
    rw [issueWith_next hc ht hg]
    nofun
  · rw [issueWith_fault h]
    nofun

/-- No instruction is refused. -/
theorem exec_not_refused (i : Instr) (s : State) (r : Refusal) : exec i s ≠ .refused r := by
  by_cases h : i.view = .event
  · obtain ⟨t, ht⟩ := exec_event_next h s
    rw [ht]
    nofun
  · obtain ⟨body, hx⟩ := exec_word i h
    rw [hx]
    exact issueWith_not_refused _ _ _ _ s r

/-- Settles O41: an operation of the device has no word, so its meaning is a next state; a word is issued by `issueWith`. -/
theorem neverRefused : Obligations.NeverRefused := by
  refine ⟨fun s a b c va acc req resp data x y w op part h m img loc i hi => exec_event_next ?_ s,
    fun word s => ⟨exec_not_refused word s, fun h => exec_event_next h s, fun h => ?_⟩⟩
  · exact List.eq_of_mem_replicate (n := 100) (List.mem_map_of_mem (f := Instr.view) hi)
  · obtain ⟨body, hx⟩ := exec_word word h
    rw [hx]
    exact issueWith_next_iff _ _ _ _ s

end Sys2Proof.Machine

/-! PROOFS. Reads and writes of the control and status registers (O37). -/

namespace Sys2Proof.Machine

open Sys2Proof

/-! ## What a csr word gives (R341, R342, R344) -/

/-- The registers that a read writes for a thread: the value for the thread whose registers it reads, or the pair of its
meeting register. -/
def csrOut (w : RN) (s : State) (i : Issue) (k : Nat) : List (Nat × Word) :=
  if w.m = 17 then pairOf w.d.toNat (((i.c.snap.threads[i.one k]?).map (·.meet)).getD 0)
  else [(w.d.toNat, i.csr s (i.one k) w.m.toNat)]

/-- A read writes nothing but its registers. -/
theorem csrRdDone_eq (w : RN) (s : State) (i : Issue) : csrRdDone w s i = { nothing s with res := csrOut w s i } := by
  unfold csrRdDone csrOut
  split <;> rfl

/-- A read names no register twice. -/
theorem csrOut_nodup (w : RN) (s : State) (i : Issue) (k : Nat) : ((csrOut w s i k).map (·.1)).Nodup := by
  unfold csrOut
  split
  · exact pairOf_nodup _ _
  · exact List.nodup_singleton _

section
variable {w : RN} {s : State} {i : Issue}

/-- A write of the meeting register gives each thread its pair; one whose address is not allowed traps MISALIGN (R344). -/
theorem csrWrDone_meet (h : w.m = 17) :
    csrWrDone w s i = { nothing s with
      trap := fun k => if meetOk (i.meetSource w k) then none else some (cMisalign, (i.meetSource w k).extractLsb' 0 32),
      edit := fun k th => { th with meet := i.meetSource w (i.one k) } } :=
  if_pos (by rw [h]; rfl)

/-- A write of another csr that each thread holds gives each thread its value; one whose value is not allowed traps
ILLEGAL (R342). -/
theorem csrWrDone_thread (h : w.m ≠ 17) (hp : csrPerThread w.m.toNat = true) :
    csrWrDone w s i = { nothing s with
      trap := fun k => if csrOk w.m.toNat (i.csrSource w k) then none else some (cIllegal, i.c.word),
      edit := fun k th => th.setCsr w.m.toNat (i.csrSource w (i.one k)) } :=
  (if_neg (BitVec.toNat_ne_iff_ne.2 h)).trans (if_pos hp)

/-- A write of a csr of the group or the team takes place once, with the source of the lowest running thread. -/
theorem csrWrDone_group (hp : csrPerThread w.m.toNat = false) (hok : csrOk w.m.toNat (i.csrSource w i.first) = true) :
    csrWrDone w s i = nothing (s.groupCsr i w.m.toNat (i.csrSource w i.first)) := by
  have hm : w.m.toNat ≠ 17 := fun h => by simp [h, csrPerThread] at hp
  exact (if_neg hm).trans ((if_neg (by simp [hp])).trans (if_pos hok))

/-! ## How a csr word ends -/

/-- A word that only changes what its threads hold beside their registers, and traps in no running thread. -/
theorem ends_edit {word : Instr} {litOk : Issue → Word → Bool} {pick : Issue → List Opd → List Opd}
    {body : State → Issue → Done} {st : State} {trap : Nat → Option (Nat × Word)} {edit : Nat → Thread → Thread}
    (hx : ∀ s, exec word s = issueWith word.view litOk pick body s) (h : InHand word litOk pick s i)
    (hb : body s i = { nothing st with trap := trap, edit := edit }) (ht : ∀ k ∈ i.c.active, trap k = none) :
    Ends word pick s i st { edit := edit } :=
  ends_of hx h (by rw [hb]; rfl) (by rw [hb]; exact ht) (by rw [hb]; exact apart_plain _ _ _ _) (by rw [hb]; rfl)
    (by rw [hb]; rfl)

end

/-- Settles O37: a word of csr ends with what its body gives, by the kind of csr it names. -/
theorem csrWords : Obligations.CsrWords := by
  refine fun w s i => ⟨fun h => ?_, fun h => ⟨fun hm hok => ?_, fun hm hp hok => ?_, fun hp hok => ?_⟩⟩
  · exact ends_out (fun _ => rfl) h (csrRdDone_eq w s i) (csrOut_nodup w s i)
  · exact ends_edit (fun _ => rfl) h (csrWrDone_meet hm) fun k hk => if_pos (hok k hk)
  · exact ends_edit (fun _ => rfl) h (csrWrDone_thread hm hp) fun k hk => if_pos (hok k hk)
  · exact ends_nothing (fun _ => rfl) h (csrWrDone_group hp hok)

end Sys2Proof.Machine

/-! PROOFS. Integer, move and address words (O1 to O7), votes and scans (O10). -/

namespace Sys2Proof.Machine

open Sys2Proof

/-! ## The moulds of words that write one register or one pair (R236, R242, R245, R252) -/

section
variable {word : Instr}

/-- A word that writes one register. -/
theorem computes_single {d : Nat} {out : Issue → Nat → Word}
    (hx : ∀ s, exec word s = issueWord word.view (compute fun i k => ([(d, out i k)], 0)) s) :
    Computes word fun _ i => { out := fun k => [(d, out i k)] } :=
  computes_of_compute hx (fun _ _ => List.nodup_singleton _) fun _ _ _ _ => rfl

/-- A word that writes a pair. -/
theorem computes_pair {d : Nat} {out : Issue → Nat → DWord}
    (hx : ∀ s, exec word s = issueWord word.view (compute fun i k => (pairOf d (out i k), 0)) s) :
    Computes word fun _ i => { out := fun k => pairOf d (out i k) } :=
  computes_of_compute hx (fun _ _ => pairOf_nodup _ _) fun _ _ _ _ => rfl

/-- A word that writes d from a and b, with a function that agrees with the one of its row. -/
theorem computes_binary {f g : Word → Word → Word} {w : RR}
    (hx : ∀ s, exec word s = issueWord word.view (compute (binary f w)) s)
    (h : ∀ a b, f a b = g a b) :
    Computes word fun _ i => { out := fun k => [(w.d.toNat, g (i.rd k w.a.toNat) (i.srcB w k))] } := by
  obtain rfl : f = g := funext₂ h
  exact computes_single hx

/-- A word that writes d from a, b and the old d. -/
theorem computes_ternary {f g : Word → Word → Word → Word} {w : RR}
    (hx : ∀ s, exec word s = issueWord word.view (compute (ternary f w)) s) (h : ∀ a b d, f a b d = g a b d) :
    Computes word fun _ i =>
      { out := fun k => [(w.d.toNat, g (i.rd k w.a.toNat) (i.srcB w k) (i.rd k w.d.toNat))] } := by
  obtain rfl : f = g := funext₃ h
  exact computes_single hx

/-- A word that writes d from a register or the literal. -/
theorem computes_unary {f g : Word → Word} {w : RM} (hx : ∀ s, exec word s = issueWord word.view (compute (unary f w)) s)
    (h : ∀ a, f a = g a) : Computes word fun _ i => { out := fun k => [(w.d.toNat, g (i.srcA w k))] } := by
  obtain rfl : f = g := funext h
  exact computes_single hx

end

/-! ## The functions of R242 -/

/-- The upper half of a 64-bit number whose value is a product of integers. -/
theorem mulHiS_eq (a b : Word) : mulHiS a b = (a.signExtend 64 * b.signExtend 64).extractLsb' 32 32 := by
  have hProd : a.signExtend 64 * b.signExtend 64 = BitVec.ofInt 64 (a.toInt * b.toInt) := (BitVec.ofInt_mul _ _).symm
  rw [hProd, mulHiS]
  generalize a.toInt * b.toInt = p
  apply BitVec.eq_of_toNat_eq
  simp only [BitVec.toNat_ofInt, BitVec.extractLsb'_toNat, Nat.shiftRight_eq_div_pow]
  omega

/-- The product of two 32-bit numbers fits in 64 bits. -/
theorem mulHiZ_eq (a b : Word) : mulHiZ a b = (a.setWidth 64 * b.setWidth 64).extractLsb' 32 32 := by
  have hFit : a.toNat * b.toNat < 2 ^ 32 * 2 ^ 32 := Nat.mul_lt_mul'' a.isLt b.isLt
  apply BitVec.eq_of_toNat_eq
  simp only [mulHiZ, BitVec.toNat_ofNat, BitVec.extractLsb'_toNat, BitVec.toNat_mul, BitVec.toNat_setWidth,
    Nat.shiftRight_eq_div_pow, Nat.mod_mul_mod, Nat.mul_mod_mod]
  rw [Nat.mod_eq_of_lt (a := _ * _) (b := 2 ^ 64) (by simpa using hFit)]

theorem minSigned_eq (a b : Word) : minSigned a b = if a.toInt ≤ b.toInt then a else b := by
  simp only [minSigned, BitVec.sle_iff_toInt_le]

theorem maxSigned_eq (a b : Word) : maxSigned a b = if a.toInt ≤ b.toInt then b else a := by
  simp only [maxSigned, BitVec.sle_iff_toInt_le]

/-- Settles O1: each word is a `binary`, MAD a `ternary`, and the halves of a product are those of its 64 bits. -/
theorem integerArithmetic : Obligations.IntegerArithmetic := by
  refine ⟨fun row hrow w => ?_, fun w => ?_⟩
  · simp only [List.mem_cons, List.not_mem_nil, or_false] at hrow
    rcases hrow with rfl | rfl | rfl | rfl | rfl | rfl | rfl | rfl | rfl | rfl | rfl | rfl | rfl
    · exact computes_binary (fun _ => rfl) fun _ _ => rfl
    · exact computes_binary (fun _ => rfl) fun _ _ => rfl
    · exact computes_binary (fun _ => rfl) fun _ _ => rfl
    · exact computes_binary (fun _ => rfl) mulHiS_eq
    · exact computes_binary (fun _ => rfl) mulHiZ_eq
    · exact computes_binary (fun _ => rfl) minSigned_eq
    · exact computes_binary (fun _ => rfl) fun _ _ => rfl
    · exact computes_binary (fun _ => rfl) maxSigned_eq
    all_goals exact computes_binary (fun _ => rfl) fun _ _ => rfl
  · exact computes_ternary (g := fun a b d => d + a * b) (fun _ => rfl) fun _ _ _ => rfl

/-! ## The shifts of R243 -/

/-- A shift by 32 or more keeps copies of the sign. -/
theorem shiftA_eq (a b : Word) :
    shiftA a b = if b.toNat < 32 then a.sshiftRight b.toNat else if a.msb then 0xFFFFFFFF else 0 := by
  unfold shiftA
  split
  · rw [Nat.min_eq_left (by omega)]
  · rw [Nat.min_eq_right (by omega)]
    apply BitVec.eq_of_toInt_eq
    have hLow : -2 ^ 31 ≤ a.toInt := a.le_toInt
    have hHigh : a.toInt < 2 ^ 31 := a.toInt_lt
    rw [BitVec.toInt_sshiftRight, Int.shiftRight_eq_div_pow, BitVec.msb_eq_toInt]
    by_cases hSign : a.toInt < 0
    · have hDiv : a.toInt / 2 ^ 31 = -1 := by omega
      simpa [hSign] using hDiv
    · have hDiv : a.toInt / 2 ^ 31 = 0 := by omega
      simpa [hSign] using hDiv

/-- Settles O2: each word is a `binary`. -/
theorem integerShifts : Obligations.IntegerShifts := by
  intro row hrow w
  simp only [List.mem_cons, List.not_mem_nil, or_false] at hrow
  rcases hrow with rfl | rfl | rfl | rfl
  · exact computes_binary (fun _ => rfl) fun _ _ => rfl
  · exact computes_binary (fun _ => rfl) fun _ _ => rfl
  · exact computes_binary (fun _ => rfl) shiftA_eq
  · exact computes_binary (fun _ => rfl) fun _ _ => rfl

/-! ## The fields of R244 -/

theorem fieldPos_eq (b : Word) : fieldPos b = descPos b := by
  simp [fieldPos, descPos]

theorem fieldWidth_eq (b : Word) : fieldWidth b = descWidth b := by
  simp [fieldWidth, descWidth, fieldPos_eq, Nat.shiftRight_eq_div_pow]

theorem fieldMask_eq (b : Word) : fieldMask b = descMask b := by
  simp only [fieldMask, descMask, fieldPos_eq, fieldWidth_eq]

theorem bitField_eq (a b : Word) : bitField a b = (a &&& descMask b) >>> descPos b := by
  simp only [bitField, fieldPos_eq, fieldMask_eq]

/-- A field lies below 2 to its width. -/
theorem bitField_lt (a b : Word) : (bitField a b).toNat < 2 ^ fieldWidth b := by
  have hMask : (fieldMask b).toNat ≤ (2 ^ fieldWidth b - 1) * 2 ^ fieldPos b := Nat.mod_le _ _
  calc (bitField a b).toNat = (a.toNat &&& (fieldMask b).toNat) / 2 ^ fieldPos b := by
        simp only [bitField, BitVec.toNat_ushiftRight, BitVec.toNat_and, Nat.shiftRight_eq_div_pow]
    _ ≤ (2 ^ fieldWidth b - 1) * 2 ^ fieldPos b / 2 ^ fieldPos b := Nat.div_le_div_right (Nat.and_le_right.trans hMask)
    _ = 2 ^ fieldWidth b - 1 := Nat.mul_div_cancel _ (Nat.two_pow_pos _)
    _ < 2 ^ fieldWidth b := Nat.sub_one_lt_of_lt (Nat.two_pow_pos _)

/-- A number below 2 to the width, read as signed in that width, is the sign extension of its bits. -/
theorem signExtend_setWidth_of_lt {x : Word} {w : Nat} (hw : w ≠ 0) (hx : x.toNat < 2 ^ w) :
    (x.setWidth w).signExtend 32 =
      if 2 ^ (w - 1) ≤ x.toNat then BitVec.ofInt 32 ((x.toNat : Int) - 2 ^ w) else BitVec.ofNat 32 x.toNat := by
  obtain ⟨n, rfl⟩ := Nat.exists_eq_succ_of_ne_zero hw
  have hLow : (x.setWidth (n + 1)).toNat = x.toNat := by rw [BitVec.toNat_setWidth, Nat.mod_eq_of_lt hx]
  have hHalf : 2 * x.toNat < 2 ^ (n + 1) ↔ ¬ 2 ^ n ≤ x.toNat := by rw [Nat.pow_succ]; omega
  rw [BitVec.signExtend, BitVec.toInt_eq_toNat_cond, hLow]
  simp only [Nat.succ_eq_add_one, Nat.add_sub_cancel, hHalf]
  by_cases h : 2 ^ n ≤ x.toNat
  · simp only [h, not_true_eq_false, ↓reduceIte]
    norm_cast
  · simp only [h, not_false_eq_true, ↓reduceIte, BitVec.ofInt_natCast]

/-- The signed field is the sign extension of the field. -/
theorem bitFieldS_eq (a b : Word) : bitFieldS a b =
    if descWidth b = 0 then 0 else (((a &&& descMask b) >>> descPos b).setWidth (descWidth b)).signExtend 32 := by
  rw [← bitField_eq, ← fieldWidth_eq]
  by_cases h : fieldWidth b = 0
  · simp only [bitFieldS, h, ↓reduceIte]
  · rw [if_neg h, signExtend_setWidth_of_lt h (bitField_lt a b)]
    simp only [bitFieldS, h, ↓reduceIte]

/-- Settles O3: BFE_Z and BFE_S are `binary` words, BFI is a `ternary` one. -/
theorem fieldWords : Obligations.FieldWords := by
  refine ⟨fun row hrow w => ?_, fun w => ?_⟩
  · simp only [List.mem_cons, List.not_mem_nil, or_false] at hrow
    rcases hrow with rfl | rfl
    · exact computes_binary (fun _ => rfl) bitField_eq
    · exact computes_binary (fun _ => rfl) bitFieldS_eq
  · exact computes_ternary (g := fun a b d => (d &&& ~~~descMask b) ||| ((a <<< descPos b) &&& descMask b)) (fun _ => rfl)
      fun a b d => by rw [bitInsert, fieldPos_eq, fieldMask_eq]

/-! ## The functions of R245 -/

theorem popCount_eq (a : Word) : popCount a = BitVec.ofNat 32 ((List.range 32).filter fun k => a.getLsbD k).length :=
  congrArg _ List.countP_eq_length_filter

/-- The first number of a range with a property is preceded by as many numbers as do not have it. -/
theorem find?_range'_getD (p : Nat → Bool) (s n : Nat) :
    ((List.range' s n).find? p).getD (s + n) = s + ((List.range' s n).takeWhile fun k => !p k).length := by
  induction n generalizing s with
  | zero => rfl
  | succ n ih =>
    rw [List.range'_succ, List.find?_cons, List.takeWhile_cons]
    cases hp : p s with
    | true => simp
    | false => simpa [Nat.add_assoc, Nat.add_comm, Nat.add_left_comm] using ih (s + 1)

theorem find?_range_getD (p : Nat → Bool) (n : Nat) :
    ((List.range n).find? p).getD n = ((List.range n).takeWhile fun k => !p k).length := by
  simpa [List.range_eq_range'] using find?_range'_getD p 0 n

/-- The bits of a word taken in from the lowest up stand in reverse order. -/
theorem getLsbD_foldl_takeIn (a : Word) (n j : Nat) (hn : n ≤ 32) :
    ((List.range n).foldl (fun (x : Word) k => (x <<< 1) ||| (if a.getLsbD k then 1 else 0)) 0).getLsbD j =
      (decide (j < n) && a.getLsbD (n - 1 - j)) := by
  induction n generalizing j with
  | zero => simp
  | succ n ih =>
    rw [List.range_succ, List.foldl_append, List.foldl_cons, List.foldl_nil, BitVec.getLsbD_or, BitVec.getLsbD_shiftLeft]
    cases j with
    | zero => cases h : a.getLsbD n <;> simp [h]
    | succ j =>
      have hBit : (if a.getLsbD n = true then (1 : Word) else 0).getLsbD (j + 1) = false := by
        split <;> simp
      rw [hBit, Nat.add_sub_cancel, ih j (by omega)]
      have hIndex : n - 1 - j = n - (j + 1) := by omega
      by_cases hj : j < n
      · have hWidth : j + 1 < 32 := by omega
        simp [hj, hWidth, hIndex]
      · simp [hj]

theorem bitReverse_eq (a : Word) : bitReverse a = a.reverse := by
  apply BitVec.eq_of_getLsbD_eq
  intro j hj
  rw [bitReverse, getLsbD_foldl_takeIn a 32 j (Nat.le_refl _), BitVec.getLsbD_reverse, BitVec.getMsbD_eq_getLsbD]

/-- A byte appended below a number. -/
theorem toNat_append_byte {m : Nat} (x : BitVec m) (y : Byte) : (x ++ y).toNat = 256 * x.toNat + y.toNat := by
  rw [BitVec.toNat_append, ← Nat.shiftLeft_add_eq_or_of_lt y.isLt, Nat.shiftLeft_eq, Nat.mul_comm]

theorem byteSwap_eq (a : Word) : byteSwap a =
    BitVec.ofNat 32 (leNat [a.extractLsb' 24 8, a.extractLsb' 16 8, a.extractLsb' 8 8, a.extractLsb' 0 8]) := by
  apply BitVec.eq_of_toNat_eq
  rw [byteSwap, toNat_append_byte, toNat_append_byte, toNat_append_byte]
  simp only [leNat, BitVec.toNat_ofNat]
  omega

theorem absWord_eq (a : Word) : absWord a = if a.getLsbD 31 then 0 - a else a := by
  rw [absWord, BitVec.msb_eq_getLsbD_last]

/-- The low bits of a word, zero-extended, are those that a mask of ones keeps. -/
theorem setWidth_extractLsb'_eq_and (a : Word) (n : Nat) :
    (a.extractLsb' 0 n).setWidth 32 = a &&& BitVec.ofNat 32 (2 ^ n - 1) := by
  apply BitVec.eq_of_getLsbD_eq
  intro j hj
  rw [BitVec.getLsbD_and, BitVec.getLsbD_ofNat, Nat.testBit_two_pow_sub_one, BitVec.getLsbD_setWidth, BitVec.getLsbD_extractLsb']
  simp [hj, Bool.and_comm]

/-- Settles O4: each word is a `unary`. -/
theorem unaryWords : Obligations.UnaryWords := by
  intro row hrow w
  simp only [List.mem_cons, List.not_mem_nil, or_false] at hrow
  rcases hrow with rfl | rfl | rfl | rfl | rfl | rfl | rfl | rfl | rfl | rfl | rfl | rfl | rfl
  · exact computes_unary (fun _ => rfl) fun _ => rfl
  · exact computes_unary (fun _ => rfl) fun _ => rfl
  · exact computes_unary (fun _ => rfl) absWord_eq
  · exact computes_unary (fun _ => rfl) popCount_eq
  · exact computes_unary (fun _ => rfl) fun _ => congrArg _ (find?_range_getD _ 32)
  · exact computes_unary (fun _ => rfl) fun _ => congrArg _ (find?_range_getD _ 32)
  · exact computes_unary (fun _ => rfl) bitReverse_eq
  · exact computes_unary (fun _ => rfl) fun _ => congrArg _ (BitVec.setWidth_eq_extractLsb' (by decide)).symm
  · exact computes_unary (fun _ => rfl) fun _ => congrArg _ (BitVec.setWidth_eq_extractLsb' (by decide)).symm
  · exact computes_unary (fun _ => rfl) fun a => setWidth_extractLsb'_eq_and a 8
  · exact computes_unary (fun _ => rfl) fun a => setWidth_extractLsb'_eq_and a 16
  · exact computes_unary (fun _ => rfl) fun _ => rfl
  · exact computes_unary (fun _ => rfl) byteSwap_eq

/-! ## SEL, compares, addresses and moves (R246 to R252) -/

/-- A compare writes 1 when its relation holds and 0 otherwise. -/
theorem computes_compare {word : Instr} {f g : Word → Word → Bool} {w : RR}
    (hx : ∀ s, exec word s = issueWord word.view (compute (binary (fun a b => truth (f a b)) w)) s) (h : ∀ a b, f a b = g a b) :
    Computes word fun _ i => { out := fun k => [(w.d.toNat, oneIf (g (i.rd k w.a.toNat) (i.srcB w k)))] } :=
  computes_binary (g := fun a b => oneIf (g a b)) hx fun a b => congrArg oneIf (h a b)

theorem bne_eq_decide (a b : Word) : (a != b) = decide (a ≠ b) := by rw [bne, beq_eq_decide, decide_not]

/-- Settles O5: SEL is a `ternary` word, a compare a `binary` one. -/
theorem selectAndCompare : Obligations.SelectAndCompare := by
  refine ⟨fun w => ?_, fun row hrow w => ?_⟩
  · exact computes_ternary (g := fun a b d => if d ≠ 0 then a else b) (fun _ => rfl) fun _ _ _ => (ite_not _ _ _).symm
  · simp only [List.mem_cons, List.not_mem_nil, or_false] at hrow
    rcases hrow with rfl | rfl | rfl | rfl | rfl | rfl
    · exact computes_compare (fun _ => rfl) beq_eq_decide
    · exact computes_compare (fun _ => rfl) bne_eq_decide
    · exact computes_compare (fun _ => rfl) fun _ _ => rfl
    · exact computes_compare (fun _ => rfl) fun _ _ => rfl
    · exact computes_compare (fun _ => rfl) fun _ _ => rfl
    · exact computes_compare (fun _ => rfl) fun _ _ => rfl

/-- Settles O6: LEA is a `binary` word, the words on pairs write a pair. -/
theorem addressWords : Obligations.AddressWords := by
  refine ⟨fun w => ?_, fun w => ?_, fun w => ?_, fun w => ?_, fun w => ?_⟩
  · exact computes_binary (g := fun a b => a + 4 * b) (fun _ => rfl) fun a b => by bv_omega
  · exact computes_single fun _ => rfl
  · exact computes_pair fun _ => rfl
  · exact computes_pair fun _ => rfl
  · exact computes_pair fun _ => rfl

/-- A word that writes one g register by its own number names it once. -/
theorem apart_gres (s : State) (i : Issue) (x : Nat × Word) : ({ nothing s with gres := [x] } : Done).Apart i :=
  { thread := by simp [nothing], accs := by simp [nothing], group := by cases i.v.u <;> simp [nothing] }

/-- Settles O7: MOVTG writes a g register by its own number, the others compute registers. -/
theorem moveWords : Obligations.MoveWords := by
  refine ⟨fun w => ?_, fun w => ?_, fun w => ?_, fun w => ?_, fun w => ?_, fun w => ?_⟩
  · exact computes_single fun _ => rfl
  · exact computes_pair fun _ => rfl
  · exact computes_pair fun _ => rfl
  · exact computes_single fun _ => rfl
  · exact computes_of_body (fun _ => rfl) fun s i _ => ⟨rfl, fun _ _ => rfl, apart_gres s i _, rfl, rfl⟩
  · exact computes_of_body (fun _ => rfl)
      fun s i _ => ⟨rfl, fun _ _ => rfl, apart_res _ _ _ _ _ _ _ _ _ _ fun _ => pairOf_nodup _ _, rfl, rfl⟩

/-! ## Votes and scans (R255, R256) -/

/-- A vote or a scan, with a function of the running threads and their a that agrees with the one of its row. -/
theorem computes_vote {word : Instr} {f : Issue → RM → Nat → Word} {g : List Nat → (Nat → Word) → Nat → Word} {w : RM}
    (hx : ∀ s, exec word s = issueWord word.view (compute (vote f w)) s) (h : ∀ i k, f i w k = g i.ts (i.srcA w) k) :
    Computes word fun _ i => { out := fun k => [(w.d.toNat, g i.c.active (i.srcA w) k)] } :=
  computes_of_compute hx (fun _ _ => List.nodup_singleton _) fun s i _ ht => by
    simp only [Done.effect, compute, vote, h, ht]

/-- Some thread's a is not 0 when the list of such threads is not empty. -/
theorem Issue.trueOnes_nonempty (i : Issue) (w : RM) : (!(i.trueOnes w).isEmpty) = i.ts.any fun t => i.srcA w t != 0 := by
  rw [Issue.trueOnes, Bool.eq_iff_iff]
  simp

/-- Every thread's a is not 0 when as many threads are listed as run. -/
theorem Issue.trueOnes_all (i : Issue) (w : RM) :
    ((i.trueOnes w).length == i.ts.length) = i.ts.all fun t => i.srcA w t != 0 := by
  rw [Issue.trueOnes, Bool.eq_iff_iff, beq_iff_eq, List.length_filter_eq_length_iff, List.all_eq_true]

theorem sumOf_eq (i : Issue) (w : RM) (ts : List Nat) : sumOf i w ts = (ts.map (i.srcA w)).sum := by
  rw [sumOf, List.sum_eq_foldl, List.foldl_map]

/-- Settles O10: each word is a `vote`. -/
theorem voteWords : Obligations.VoteWords := by
  refine ⟨fun row hrow w => ?_, fun w => ⟨?_, ?_⟩⟩
  · simp only [List.mem_cons, List.not_mem_nil, or_false] at hrow
    rcases hrow with rfl | rfl | rfl | rfl | rfl | rfl | rfl
    · exact computes_vote (fun _ => rfl) fun i k => congrArg truth (i.trueOnes_nonempty w)
    · exact computes_vote (fun _ => rfl) fun i k => congrArg truth (i.trueOnes_all w)
    · exact computes_vote (fun _ => rfl) fun i k => congrArg _ List.countP_eq_length_filter.symm
    · exact computes_vote (fun _ => rfl) fun i k => congrArg (fun x => truth (x == some k)) List.head?_filter
    · exact computes_vote (fun _ => rfl) fun i k => rfl
    · exact computes_vote (fun _ => rfl) fun i k => sumOf_eq i w _
    · exact computes_vote (fun _ => rfl) fun i k => sumOf_eq i w _
  · exact computes_single fun _ => rfl
  · exact computes_single fun _ => rfl

end Sys2Proof.Machine

/-! PROOFS. Register indirection: RGET and RPUT (O11). -/

namespace Sys2Proof.Machine

open Sys2Proof

/-! ## Results that go to their registers as flights (R39, R237) -/

/-- The flights of a word whose threads `run` each send one value to one register. -/
def Issue.valueFlights (i : Issue) (s : State) (run : List Nat) (reg : Nat → Nat) (val : Nat → Word) : List Flight :=
  run.mapIdx fun n t => i.flight s t n (.regs (reg t) [val t])

/-- The outcome of such a word: the flights are on their way and their registers wait for them. -/
def sendValues (s : State) (i : Issue) (run : List Nat) (trap : Nat → Option (Nat × Word)) (reg : Nat → Nat)
    (val : Nat → Word) : Done :=
  { nothing (s.addFlights (i.valueFlights s run reg val)) with
    trap := trap,
    pend := fun t => ((i.valueFlights s run reg val).filter fun f => f.thread == t).map fun f => (reg t, f.id) }

/-- The outcome of a word whose threads write one value to one register each. -/
def putValues (s : State) (trap : Nat → Option (Nat × Word)) (reg : Nat → Nat) (val : Nat → Word) : Done :=
  { nothing s with trap := trap, res := fun t => [(reg t, val t)] }

section
variable {i : Issue} {s : State} {run : List Nat} {reg : Nat → Nat} {val : Nat → Word} {trap : Nat → Option (Nat × Word)}

theorem valueFlights_threads : (i.valueFlights s run reg val).map (·.thread) = run :=
  (map_mapIdx run (fun n t => i.flight s t n (.regs (reg t) [val t])) _ id fun _ _ => rfl).trans (List.map_id run)

theorem valueFlights_contents : (i.valueFlights s run reg val).map (fun f => (f.thread, f.done, f.what)) =
    run.map fun k => (k, true, Access.regs (reg k) [val k]) :=
  map_mapIdx _ _ _ _ fun _ _ => rfl

theorem valueFlights_group : ∀ f ∈ i.valueFlights s run reg val, f.uid = i.c.uid ∧ f.gid = i.c.gid := by
  intro f hf
  obtain ⟨n, _, rfl⟩ := List.mem_mapIdx.1 hf
  exact ⟨rfl, rfl⟩

/-- Each thread waits for at most one of the flights. -/
theorem sendValues_pend_nodup (hRun : run.Nodup) (k : Nat) : (((sendValues s i run trap reg val).pend k).map (·.1)).Nodup := by
  have hShort := filter_short (i.valueFlights s run reg val) k (by rw [valueFlights_threads]; exact hRun)
  simpa [sendValues, ← List.map_eq_flatMap] using flatMap_nodup _ (reg k) 1 hShort

variable {word : Instr} {litOk : Issue → Word → Bool} {pick : Issue → List Opd → List Opd} {body : State → Issue → Done}

/-- A word that puts its values ends with them in their registers. -/
theorem ends_putValues (hx : ∀ s, exec word s = issueWith word.view litOk pick body s) (h : InHand word litOk pick s i)
    (hb : body s i = putValues s trap reg val) (hTrap : ∀ k ∈ i.c.active, trap k = none) :
    Ends word pick s i s { out := fun k => [(reg k, val k)] } :=
  ends_of hx h (by rw [hb]; rfl) (by rw [hb]; exact hTrap)
    (by rw [hb]; exact apart_res _ _ _ _ _ _ _ _ _ _ fun _ => List.nodup_singleton _) (by rw [hb]; rfl) (by rw [hb]; rfl)

/-- A word that sends its values ends with them on their way. -/
theorem ends_sendValues (hx : ∀ s, exec word s = issueWith word.view litOk pick body s) (h : InHand word litOk pick s i)
    (hb : body s i = sendValues s i i.c.active trap reg val) (hTrap : ∀ k ∈ i.c.active, trap k = none) :
    ∃ s' fl, exec word s = .next s' ∧ fl.map (fun f => (f.thread, f.done, f.what)) =
        i.c.active.map (fun k => (k, true, Access.regs (reg k) [val k])) ∧
      (∀ f ∈ fl, f.uid = i.c.uid ∧ f.gid = i.c.gid) ∧
      Lands { s with flights := s.flights ++ fl, nextId := s.nextId + fl.length + 64 } s' i (pick i i.ops)
        { pend := fun k => (fl.filter fun f => f.thread == k).map fun f => (reg k, f.id) } := by
  have hEnds := ends_pend hx h (st := s.addFlights (i.valueFlights s i.c.active reg val))
    (pend := (sendValues s i i.c.active trap reg val).pend) (by rw [hb]; rfl) (by rw [hb]; exact hTrap)
    fun k _ => sendValues_pend_nodup h.2.once k
  obtain ⟨s', hs, hl⟩ := hEnds
  exact ⟨s', _, hs, valueFlights_contents, valueFlights_group, hl⟩

/-- Adding no flight changes the model's counters alone. -/
theorem TrapLands.of_addFlights_nil {s' : State} {why : Nat → Nat × Word} (h : TrapLands (s.addFlights []) s' i why) :
    TrapLands s s' i why := by
  obtain ⟨stamp, hs⟩ := h
  refine ⟨stamp, hs.trans ?_⟩
  simp only [State.addFlights, List.append_nil]
  rfl

/-- A word that traps every thread puts and sends nothing. -/
theorem traps_values (hx : ∀ s, exec word s = issueWith word.view litOk pick body s) (h : InHand word litOk pick s i)
    (hc : CanTrap i) (hu : i.v.u = false) {why : Nat → Nat × Word} (hTrap : ∀ k ∈ i.c.active, trap k = some (why k))
    (hb : body s i = putValues s trap reg val ∨ body s i = sendValues s i [] trap reg val) :
    ∃ s', exec word s = .next s' ∧ TrapLands s s' i why := by
  have hUniform : i.v.u = true → (body s i).each = false → ∀ j k, why j = why k := by rw [hu]; nofun
  rcases hb with hb | hb
  all_goals
    obtain ⟨s', hs, hLands⟩ := traps_of hx h hc why (by rw [hb]; rfl) (fun k hk _ => by rw [hb]; exact hTrap k hk) hUniform
      (t := i.t) (g := i.g) (by rw [hb]; exact h.2.team) h.2.group rfl fun _ => rfl
    rw [hb] at hLands
  · exact ⟨s', hs, hLands⟩
  · exact ⟨s', hs, hLands.of_addFlights_nil⟩

end

/-! ## Indices and banks (R257) -/

section
variable {i : Issue} {w : RR} {s : State}

/-- A word of a row that takes no U is not uniform (R227). -/
theorem not_uniform_of_legal {op : Nat} {r : Rsv} {t : Team} (h : (View.rr op .zero r w).legal t = true) : w.u = false := by
  simp only [View.legal, View.wf, View.ok, URule.ok, Bool.and_eq_true, Bool.not_eq_true', and_assoc] at h
  exact h.1

/-- A single register waits for its producer. -/
theorem destBusy_one (k n : Nat) : i.destBusy k n 1 = ((i.regState k n).prod != 0) := by
  simp [Issue.destBusy]

/-- At most one bank is touched when all indices agree modulo 4. -/
theorem banks_length_le_one : (i.banks w).length ≤ 1 ↔
    ∀ k ∈ i.c.active, ∀ m ∈ i.c.active, i.index w k % 4 = i.index w m % 4 := by
  have hBank : ∀ k m, (i.index w k % 4).toNat = (i.index w m % 4).toNat ↔ i.index w k % 4 = i.index w m % 4 := by
    intro k m; omega
  rw [Issue.banks, ← List.card_toFinset, Finset.card_le_one]
  simp only [List.mem_toFinset, List.forall_mem_map, hBank]

/-! ## RGET (R258) -/

/-- The trap of a thread at RGET. -/
def Issue.rgetTrap (i : Issue) (w : RR) (k : Nat) : Option (Nat × Word) :=
  if !i.indexOk w k then some (cIllegal, i.c.word)
  else if (i.regState k (i.index w k).toNat).st = .absent ∧ i.c.snap.absm ≠ 0 then
    some (cRegAbsent, BitVec.ofNat 32 (i.index w k).toNat)
  else none

/-- The threads whose RGET reads a register. -/
def Issue.rgetRun (i : Issue) (w : RR) : List Nat :=
  (i.ts.filter fun t => i.indexOk w t).filter fun t => (i.rgetTrap w t).isNone

/-- RGET waits while some v_k is EMPTY. -/
theorem rgetDone_empty (h : ∃ k ∈ i.ts, i.indexOk w k = true ∧ (i.regState k (i.index w k).toNat).st = .empty) :
    rgetDone w s i = waitFor s .reg := by
  obtain ⟨k, hk, hOk, hSt⟩ := h
  exact if_pos (List.any_eq_true.2 ⟨k, List.mem_filter.2 ⟨hk, hOk⟩, by simpa using hSt⟩)

/-- RGET with no v_k EMPTY writes within one bank, once D has no older producer, and sends over several. -/
theorem rgetDone_filled (h : ∀ k ∈ i.ts, i.indexOk w k = true → (i.regState k (i.index w k).toNat).st ≠ .empty) :
    rgetDone w s i =
      if (i.banks w).length ≤ 1 then
        if (i.rgetRun w).any fun t => i.destBusy t w.d.toNat 1 then waitFor s .reg
        else putValues s (i.rgetTrap w) (fun _ => w.d.toNat) fun t => i.rd t (i.index w t).toNat
      else sendValues s i (i.rgetRun w) (i.rgetTrap w) (fun _ => w.d.toNat) fun t => i.rd t (i.index w t).toNat := by
  refine if_neg fun hAny => ?_
  obtain ⟨k, hk, hSt⟩ := List.any_eq_true.1 hAny
  obtain ⟨hTs, hOk⟩ := List.mem_filter.1 hk
  exact h k hTs hOk (beq_iff_eq.1 hSt)

/-- A thread whose v_k can be read does not trap. -/
theorem rgetTrap_none {k : Nat} (hOk : i.indexOk w k = true)
    (hAbs : (i.regState k (i.index w k).toNat).st = .absent → i.c.snap.absm = 0) : i.rgetTrap w k = none := by
  rw [Issue.rgetTrap, hOk, if_neg (by decide), if_neg fun h => h.2 (hAbs h.1)]

/-- A thread whose index names no register, or an ABSENT one in trap mode, traps. -/
theorem rgetTrap_some {k : Nat}
    (h : i.indexOk w k = false ∨ (i.regState k (i.index w k).toNat).st = .absent ∧ i.c.snap.absm ≠ 0) :
    i.rgetTrap w k = some (if i.indexOk w k = true then (cRegAbsent, BitVec.ofNat 32 (i.index w k).toNat)
      else (cIllegal, i.c.word)) := by
  rw [Issue.rgetTrap]
  cases hOk : i.indexOk w k with
  | false => rfl
  | true => exact if_pos (h.resolve_left (by simp [hOk]))

/-- RGET whose registers can all be read, in every thread. -/
theorem rgetDone_ready (h : ∀ k ∈ i.ts, i.indexOk w k = true ∧ (i.regState k (i.index w k).toNat).st ≠ .empty ∧
      ((i.regState k (i.index w k).toNat).st = .absent → i.c.snap.absm = 0)) :
    rgetDone w s i =
      if (i.banks w).length ≤ 1 then
        if i.ts.any fun t => i.destBusy t w.d.toNat 1 then waitFor s .reg
        else putValues s (i.rgetTrap w) (fun _ => w.d.toNat) fun t => i.rd t (i.index w t).toNat
      else sendValues s i i.ts (i.rgetTrap w) (fun _ => w.d.toNat) fun t => i.rd t (i.index w t).toNat := by
  have hRun : i.rgetRun w = i.ts := by
    rw [Issue.rgetRun, List.filter_filter, List.filter_eq_self]
    intro k hk
    obtain ⟨hOk, -, hAbs⟩ := h k hk
    rw [hOk, rgetTrap_none hOk hAbs]
    rfl
  rw [rgetDone_filled fun k hk _ => (h k hk).2.1, hRun]

/-- RGET that traps in every thread neither waits nor reads. -/
theorem rgetDone_trapping
    (h : ∀ k ∈ i.ts, i.indexOk w k = false ∨ (i.regState k (i.index w k).toNat).st = .absent ∧ i.c.snap.absm ≠ 0) :
    rgetDone w s i = putValues s (i.rgetTrap w) (fun _ => w.d.toNat) (fun t => i.rd t (i.index w t).toNat) ∨
      rgetDone w s i = sendValues s i [] (i.rgetTrap w) (fun _ => w.d.toNat) fun t => i.rd t (i.index w t).toNat := by
  have hFilled : ∀ k ∈ i.ts, i.indexOk w k = true → (i.regState k (i.index w k).toNat).st ≠ .empty := by
    intro k hk hOk
    obtain ⟨hAbs, -⟩ := (h k hk).resolve_left (by simp [hOk])
    simp [hAbs]
  have hRun : i.rgetRun w = [] := by
    rw [Issue.rgetRun, List.filter_filter, List.filter_eq_nil_iff]
    intro k hk
    simp [rgetTrap_some (h k hk)]
  rw [rgetDone_filled hFilled, hRun]
  by_cases hBank : (i.banks w).length ≤ 1
  · exact .inl (if_pos hBank)
  · exact .inr (if_neg hBank)

/-! ## RPUT (R259) -/

/-- The threads whose RPUT writes a register. -/
def Issue.rputRun (i : Issue) (w : RR) : List Nat := i.ts.filter fun t => i.indexOk w t

/-- RPUT waits while an older producer of some v_k is outstanding. -/
theorem rputDone_busy (h : ∃ k ∈ i.ts, i.indexOk w k = true ∧ (i.regState k (i.index w k).toNat).prod ≠ 0) :
    rputDone w s i = waitFor s .reg := by
  obtain ⟨k, hk, hOk, hProd⟩ := h
  exact if_pos (List.any_eq_true.2 ⟨k, List.mem_filter.2 ⟨hk, hOk⟩, by rw [destBusy_one]; exact bne_iff_ne.2 hProd⟩)

/-- RPUT with no such producer writes within one bank and sends over several. -/
theorem rputDone_free (h : ∀ k ∈ i.ts, i.indexOk w k = true → (i.regState k (i.index w k).toNat).prod = 0) :
    rputDone w s i =
      if (i.banks w).length ≤ 1 then putValues s (i.indexTrap w) (fun t => (i.index w t).toNat) fun t => i.rd t w.d.toNat
      else sendValues s i (i.rputRun w) (i.indexTrap w) (fun t => (i.index w t).toNat) fun t => i.rd t w.d.toNat := by
  refine if_neg fun hAny => ?_
  obtain ⟨k, hk, hBusy⟩ := List.any_eq_true.1 hAny
  obtain ⟨hTs, hOk⟩ := List.mem_filter.1 hk
  rw [destBusy_one] at hBusy
  exact bne_iff_ne.1 hBusy (h k hTs hOk)

/-- RPUT whose indices all name registers without an older producer, in every thread. -/
theorem rputDone_ready (h : ∀ k ∈ i.ts, i.indexOk w k = true ∧ (i.regState k (i.index w k).toNat).prod = 0) :
    rputDone w s i =
      if (i.banks w).length ≤ 1 then putValues s (i.indexTrap w) (fun t => (i.index w t).toNat) fun t => i.rd t w.d.toNat
      else sendValues s i i.ts (i.indexTrap w) (fun t => (i.index w t).toNat) fun t => i.rd t w.d.toNat := by
  have hRun : i.rputRun w = i.ts := List.filter_eq_self.2 fun k hk => (h k hk).1
  rw [rputDone_free fun k hk _ => (h k hk).2, hRun]

/-- RPUT that traps in every thread neither waits nor writes. -/
theorem rputDone_trapping (h : ∀ k ∈ i.ts, i.indexOk w k = false) :
    rputDone w s i = putValues s (i.indexTrap w) (fun t => (i.index w t).toNat) (fun t => i.rd t w.d.toNat) ∨
      rputDone w s i = sendValues s i [] (i.indexTrap w) (fun t => (i.index w t).toNat) fun t => i.rd t w.d.toNat := by
  have hRun : i.rputRun w = [] := List.filter_eq_nil_iff.2 fun k hk => by simp [h k hk]
  rw [rputDone_free fun k hk hOk => by simp [h k hk] at hOk, hRun]
  by_cases hBank : (i.banks w).length ≤ 1
  · exact .inl (if_pos hBank)
  · exact .inr (if_neg hBank)

theorem indexTrap_none {k : Nat} (h : i.indexOk w k = true) : i.indexTrap w k = none := if_pos h

theorem indexTrap_some {k : Nat} (h : i.indexOk w k = false) : i.indexTrap w k = some (cIllegal, i.c.word) :=
  if_neg (by simp [h])

end

/-! ## The words -/

/-- Settles O11: each word waits, or puts its values within one bank and sends them over several, or traps every thread. -/
theorem indirectWords : Obligations.IndirectWords := by
  refine ⟨fun w s i hv hcl => ?_, fun w s i hv hcl => ?_⟩
  · have h : InHand (.rget w) anyLit asIs s i := ⟨hv, hcl⟩
    have hts := hcl.threads
    refine ⟨fun hGood hBank => ?_, fun hGood hBank => ?_, fun hWait => ?_, fun hc hBad => ?_⟩
    · have hBusy : ¬ (i.ts.any fun t => i.destBusy t w.d.toNat 1) = true := by
        simpa [destBusy_one, hts] using fun k hk => (hGood k hk).2
      refine ends_putValues (body := rgetDone w) (fun _ => rfl) h ?_
        fun k hk => rgetTrap_none (hGood k hk).1.1 (hGood k hk).1.2.2
      rw [rgetDone_ready (hts ▸ fun k hk => (hGood k hk).1), if_pos (banks_length_le_one.2 hBank), if_neg hBusy]
    · refine ends_sendValues (body := rgetDone w) (fun _ => rfl) h ?_ fun k hk => rgetTrap_none (hGood k hk).1 (hGood k hk).2.2
      rw [rgetDone_ready (hts ▸ hGood), if_neg (mt banks_length_le_one.1 hBank), hts]
    · exact waits_of (body := rgetDone w) (fun _ => rfl) h (rgetDone_empty (hts ▸ hWait))
    · exact traps_values (fun _ => rfl) h hc (hv ▸ not_uniform_of_legal (hv ▸ hcl.legal))
        (fun k hk => rgetTrap_some (hBad k hk)) (rgetDone_trapping (hts ▸ hBad))
  · have h : InHand (.rput w) anyLit asIs s i := ⟨hv, hcl⟩
    have hts := hcl.threads
    refine ⟨fun hGood hBank => ?_, fun hGood hBank => ?_, fun hWait => ?_, fun hc hBad => ?_⟩
    · refine ends_putValues (body := rputDone w) (fun _ => rfl) h ?_ fun k hk => indexTrap_none (hGood k hk).1
      rw [rputDone_ready (hts ▸ hGood), if_pos (banks_length_le_one.2 hBank)]
    · refine ends_sendValues (body := rputDone w) (fun _ => rfl) h ?_ fun k hk => indexTrap_none (hGood k hk).1
      rw [rputDone_ready (hts ▸ hGood), if_neg (mt banks_length_le_one.1 hBank), hts]
    · exact waits_of (body := rputDone w) (fun _ => rfl) h (rputDone_busy (hts ▸ hWait))
    · exact traps_values (fun _ => rfl) h hc (hv ▸ not_uniform_of_legal (hv ▸ hcl.legal))
        (fun k hk => indexTrap_some (hBad k hk)) (rputDone_trapping (hts ▸ hBad))

end Sys2Proof.Machine

/-! PROOFS. What holds between two steps, and the state after a reset (O58, O59, O60). -/

namespace Sys2Proof.Machine

open Sys2Proof

/-! ## Units that retire at the end of a step (R442) -/

/-- A unit that retires at the end of a step once its cores hold no team: a core or a cluster network, marked and not yet
retired. -/
def UnitLog.retiring (x : UnitLog) : Bool :=
  x.lasting && !x.retired && (unitClass x.word == 1 || unitClass x.word == 2)

/-- No core that the unit stands for holds a team. -/
def State.unitFree (s : State) (x : UnitLog) : Bool := (unitCores x.word).all fun c => (s.teamsOn c.1 c.2).isEmpty

/-- One unit looked at: it retires, with its record, when it is free. -/
def State.retireIfFree (s : State) (x : UnitLog) : State :=
  if s.unitFree x then (s.setUnit { x with retired := true }).logError x.word 4 (s.recent x).length 0 else s

theorem State.settleRetired_eq (s : State) : s.settleRetired = (s.units.filter UnitLog.retiring).foldl State.retireIfFree s := rfl

theorem State.unitFree_iff {s : State} {x : UnitLog} : s.unitFree x = true ↔ ∀ c ∈ unitCores x.word, s.teamsOn c.1 c.2 = [] := by
  simp only [State.unitFree, List.all_eq_true, List.isEmpty_iff]

theorem UnitLog.retiring_iff {x : UnitLog} :
    x.retiring = true ↔ x.lasting = true ∧ x.retired = false ∧ (unitClass x.word = 1 ∨ unitClass x.word = 2) := by
  simp only [UnitLog.retiring, Bool.and_eq_true, Bool.not_eq_true', Bool.or_eq_true, beq_iff_eq, and_assoc]

theorem State.logError_units (s : State) (u : Word) (kind n pa : Nat) : (s.logError u kind n pa).units = s.units := by
  simp only [State.logError]
  split <;> simp

theorem State.logError_teams (s : State) (u : Word) (kind n pa : Nat) : (s.logError u kind n pa).teams = s.teams := by
  simp only [State.logError]
  split <;> simp

theorem State.retireIfFree_teams (s : State) (x : UnitLog) : (s.retireIfFree x).teams = s.teams := by
  simp only [State.retireIfFree]
  split
  · simp [State.logError_teams]
  · rfl

theorem State.foldl_retireIfFree_teams (l : List UnitLog) (s : State) : (l.foldl State.retireIfFree s).teams = s.teams := by
  induction l generalizing s with
  | nil => rfl
  | cons x l ih => rw [List.foldl_cons, ih, State.retireIfFree_teams]

/-- Whether a unit is free depends on the teams alone. -/
theorem State.unitFree_congr {s t : State} (h : t.teams = s.teams) (x : UnitLog) : t.unitFree x = s.unitFree x := by
  simp only [State.unitFree, State.teamsOn, h]

/-- The units after one has been looked at: when it is free it is retired and has one history, else nothing changes. -/
theorem State.mem_units_retireIfFree {s : State} {x y : UnitLog} (h : y ∈ (s.retireIfFree x).units) :
    y.retired = true ∨ y ∈ s.units ∧ (s.unitFree x = true → y.word ≠ x.word) := by
  simp only [State.retireIfFree] at h
  split at h
  · simp only [State.logError_units, State.setUnit, List.mem_cons, List.mem_filter, bne_iff_ne] at h
    rcases h with rfl | ⟨hy, hw⟩
    · exact .inl rfl
    · exact .inr ⟨hy, fun _ => hw⟩
  · rename_i hFree
    exact .inr ⟨h, fun h' => absurd h' hFree⟩

/-- The units after several have been looked at: a history that is not retired is one from before, and none of a free unit
that was looked at. -/
theorem State.mem_units_foldl_retireIfFree {l : List UnitLog} {s : State} {y : UnitLog}
    (h : y ∈ (l.foldl State.retireIfFree s).units) :
    y.retired = true ∨ y ∈ s.units ∧ ∀ x ∈ l, s.unitFree x = true → y.word ≠ x.word := by
  induction l generalizing s with
  | nil => exact .inr ⟨h, by simp⟩
  | cons x l ih =>
    rcases ih h with hRet | ⟨hMem, hRest⟩
    · exact .inl hRet
    · rcases State.mem_units_retireIfFree hMem with hRet | ⟨hOld, hHead⟩
      · exact .inl hRet
      · refine .inr ⟨hOld, fun z hz hFree => ?_⟩
        rcases List.mem_cons.1 hz with rfl | hz
        · exact hHead hFree
        · exact hRest z hz (by rw [State.unitFree_congr (State.retireIfFree_teams s x)]; exact hFree)

/-- After the retirement of a step no marked core or cluster network without a team is left unretired. -/
theorem State.settleRetired_retired {s : State} {x : UnitLog} (hx : x ∈ s.settleRetired.units) (hLast : x.lasting = true)
    (hClass : unitClass x.word = 1 ∨ unitClass x.word = 2) (hFree : s.unitFree x = true) : x.retired = true := by
  rcases State.mem_units_foldl_retireIfFree (State.settleRetired_eq s ▸ hx) with hRet | ⟨hOld, hNone⟩
  · exact hRet
  · by_contra hNot
    have hRetiring : x.retiring = true := UnitLog.retiring_iff.2 ⟨hLast, by simpa using hNot, hClass⟩
    exact hNone x (List.mem_filter.2 ⟨hOld, hRetiring⟩) hFree rfl

theorem State.settleRetired_teams (s : State) : s.settleRetired.teams = s.teams := State.foldl_retireIfFree_teams _ s

/-- A state whose free marked units have retired, with no word in hand, meets the invariant. -/
theorem State.settleRetired_settled (s : State) : State.Settled { s.settleRetired with cur := none } := by
  refine ⟨rfl, fun x hx hLast hClass hFree => State.settleRetired_retired hx hLast hClass ?_⟩
  rw [← State.unitFree_congr (State.settleRetired_teams s) x]
  exact State.unitFree_iff.2 hFree

/-- What is settled after a step meets the invariant, whatever the step was. -/
theorem State.settle_settled (s : State) : s.settle.Settled := State.settleRetired_settled _

/-- A next state is one that has been settled. -/
theorem settled_next {o : Host.Outcome State Fault Refusal} {t : State} (h : settled o = .next t) : ∃ r, t = State.settle r := by
  cases o with
  | next r => exact ⟨r, (Host.Outcome.next.inj h).symm⟩
  | fault _ => cases h
  | refused _ => cases h

/-- Settles O58: a step ends with what is settled, and that meets the invariant by itself. -/
theorem settledKept : Obligations.SettledKept := by
  intro s t _ h
  obtain ⟨r, rfl⟩ := settled_next h
  exact r.settle_settled

/-! ## The state after a reset (R397, R399, R415, R416, R427, R430, R436, R445) -/

/-- Settles O59: no byte is written, no word in hand and no unit marked. -/
theorem resetMeetsInvariants : Obligations.ResetMeetsInvariants :=
  ⟨rfl, fun _ => rfl, ⟨rfl, fun _ hx => absurd hx List.not_mem_nil⟩, rfl⟩

/-- A list of parts numbered by their places gives the part of its number. -/
theorem find?_map_range {α : Type} (mk : Nat → α) (num : α → Nat) (hnum : ∀ k, num (mk k) = k) {n p : Nat} (hp : p < n) :
    ((List.range n).map mk).find? (fun x => num x == p) = some (mk p) := by
  have hPlace : (List.range n).find? ((fun x => num x == p) ∘ mk) = some p := by
    simp only [List.find?_range_eq_some, Function.comp_apply, hnum, beq_self_eq_true, List.mem_range, hp, true_and,
      Bool.not_eq_true', beq_eq_false_iff_ne]
    exact fun j hj => hj.ne
  rw [List.find?_map, hPlace, Option.map_some]

theorem State.reset_slot {p : Nat} (hp : p < 64) : State.reset.slot p = Slot.reset p := by
  rw [State.slot, State.reset, find?_map_range Slot.reset Slot.num (fun _ => rfl) hp]; rfl

theorem State.reset_port {n : Nat} (hn : n < 16) : State.reset.port n = Port.reset n := by
  rw [State.port, State.reset, find?_map_range Port.reset Port.num (fun _ => rfl) hn]; rfl

/-- Settles O60: the parts that a reset lists are those of their numbers, and the parts that it does not list read as reset. -/
theorem resetState : Obligations.ResetState := by
  refine ⟨rfl, rfl, ?_, fun p hp sl hsl => ?_, fun n hn => ?_, rfl, rfl, rfl, rfl, fun _ => rfl, rfl, rfl, rfl, rfl, rfl, fun _ _ => rfl⟩
  · decide
  · rw [hsl, State.reset_slot hp]
    exact ⟨rfl, rfl, rfl, rfl, rfl, rfl, rfl, rfl, rfl, rfl, rfl, rfl, rfl, rfl⟩
  · rw [State.reset_port hn]
    exact ⟨rfl, rfl⟩

end Sys2Proof.Machine

/-! PROOFS. Functions, FP64, conversions, narrow formats and the words that write a long accumulator (O15 to O19). -/

namespace Sys2Proof.Machine

open Sys2Proof

/-! ## Functions and FP64 (R269, R273 to R275) -/

/-- A word of the mould `funary` writes d from a and raises the flags of that function (R273). -/
theorem computes_funary {word : Instr} {f : RMode → Word → WordFl} {w : RM}
    (hx : ∀ s, exec word s = issueWord word.view (compute (funary f w)) s) :
    Computes word fun _ i =>
      { out := fun k => [(w.d.toNat, (f (modeOf i.g.round) (i.srcA w k)).1)],
        flags := fun k => (f (modeOf i.g.round) (i.srcA w (if i.v.u then i.first else k))).2 } :=
  computes_of_compute hx (fun _ _ => List.nodup_singleton _) fun _ _ _ _ => rfl

/-- Settles O15: every word is of the mould `funary`; CLASS raises no flag. -/
theorem floatFunctions : Obligations.FloatFunctions := by
  intro row hrow w
  simp only [List.mem_cons, List.not_mem_nil, or_false] at hrow
  rcases hrow with rfl | rfl | rfl | rfl | rfl | rfl | rfl | rfl | rfl | rfl | rfl | rfl | rfl | rfl | rfl
  all_goals exact computes_funary fun _ => rfl

/-- Settles O16: every word writes one pair, rounded once. -/
theorem doubleWords : Obligations.DoubleWords := by
  refine ⟨fun row hrow w => ?_, fun w => ?_⟩
  · simp only [List.mem_cons, List.not_mem_nil, or_false] at hrow
    rcases hrow with rfl | rfl
    all_goals exact computes_of_compute (fun _ => rfl) (fun _ _ => pairOf_nodup _ _) fun _ _ _ _ => rfl
  · exact computes_of_compute (fun _ => rfl) (fun _ _ => pairOf_nodup _ _) fun _ _ _ _ => rfl

/-! ## Conversions (R276, R277) -/

/-- The entries whose result is a pair, and those whose source is one. -/
theorem cvtWidths_eq : ∀ m < 40, cvtWidths m = (if cvtPairResult m then 2 else 1, if cvtPairSource m then 2 else 1) := by decide

/-- An entry converts its source, one register or a pair, to one register or a pair. -/
theorem convert_eq {m : Nat} (h : m < 40) (w : RM) (i : Issue) (k : Nat) :
    convert m w i k =
      (if cvtPairResult m then pairOf w.d.toNat (cvtEntry m (modeOf i.g.round) (satOf i.g.round) (cvtArg m w i k)).1
        else [(w.d.toNat, (cvtEntry m (modeOf i.g.round) (satOf i.g.round) (cvtArg m w i k)).1.setWidth 32)],
       (cvtEntry m (modeOf i.g.round) (satOf i.g.round) (cvtArg m w i k)).2) := by
  have hArg : (if w.l then i.lit.setWidth 64
      else if (cvtWidths m).2 = 2 then i.rd2 k w.a.toNat else (i.rd k w.a.toNat).setWidth 64) = cvtArg m w i k := by
    rw [cvtWidths_eq m h, cvtArg]
    cases cvtPairSource m <;> rfl
  simp only [convert, hArg, Issue.mode, Issue.sat, BitVec.setWidth_eq_extractLsb' (show 32 ≤ 64 by decide)]
  rw [cvtWidths_eq m h]
  cases cvtPairResult m <;> rfl

theorem convert_nodup (m : Nat) (w : RM) (i : Issue) (k : Nat) : ((convert m w i k).1.map (·.1)).Nodup := by
  simp only [convert]
  split
  · exact pairOf_nodup _ _
  · exact List.nodup_singleton _

theorem computes_convert {word : Instr} {m : Nat} {w : RM}
    (hx : ∀ s, exec word s = issueWord word.view (compute (convert m w)) s) (h : m < 40) :
    Computes word fun _ i =>
      { out := fun k => if cvtPairResult m then
            pairOf w.d.toNat (cvtEntry m (modeOf i.g.round) (satOf i.g.round) (cvtArg m w i k)).1
          else [(w.d.toNat, (cvtEntry m (modeOf i.g.round) (satOf i.g.round) (cvtArg m w i k)).1.setWidth 32)],
        flags := fun k => (cvtEntry m (modeOf i.g.round) (satOf i.g.round) (cvtArg m w i (if i.v.u then i.first else k))).2 } :=
  computes_of_compute hx (convert_nodup m w) fun s i _ _ => by
    simp only [Done.effect, compute, convert_eq h, Issue.one]

/-- Settles O17: every word is the conversion of its minor. -/
theorem conversions : Obligations.Conversions := by
  intro row hrow w
  simp only [List.mem_cons, List.not_mem_nil, or_false] at hrow
  rcases hrow with rfl | rfl | rfl | rfl | rfl | rfl | rfl | rfl | rfl | rfl | rfl | rfl | rfl | rfl | rfl | rfl | rfl | rfl |
    rfl | rfl | rfl | rfl | rfl | rfl | rfl | rfl | rfl | rfl | rfl | rfl | rfl | rfl | rfl | rfl | rfl | rfl | rfl | rfl |
    rfl | rfl
  all_goals exact computes_convert (fun _ => rfl) (by decide)

/-! ## Narrow formats (R278 to R280) -/

theorem narrowTrap_none {i : Issue} {w : RR} {k : Nat} (h : narrowOk (i.srcB w k) = true) : i.narrowTrap w k = none := if_pos h

/-- Settles O18: with legal control words no thread traps, and a uniform word raises the flags of its lowest thread. -/
theorem narrowWords : Obligations.NarrowWords := by
  refine ⟨fun w => ?_, fun w => ?_⟩
  · refine completes_of_body (fun _ => rfl) fun s i h hOk =>
      ⟨rfl, fun k hk => narrowTrap_none (hOk k hk), apart_res _ _ _ _ _ _ _ _ _ _ fun _ => List.nodup_singleton _, rfl, ?_⟩
    simp only [h.1]
    rfl
  · refine completes_of_body (fun _ => rfl) fun s i h hOk =>
      ⟨rfl, fun k hk => narrowTrap_none (hOk k hk), apart_res _ _ _ _ _ _ _ _ _ _ fun k => ?_, rfl, ?_⟩
    · rw [List.map_map]
      exact range_add_nodup _ _
    · simp only [h.1]
      rfl

/-! ## Long accumulators (R282 to R286) -/

/-- A word that maps the accumulator of each thread to a new one, with flags. -/
theorem computes_accWord {word : Instr} {d : BitVec 6} {f : Issue → Nat → LongAcc × Word} {e : Issue → Effect}
    (hx : ∀ s, exec word s = issueWord word.view (accWord d f) s)
    (he : ∀ i, { acc := fun k => [(d.toNat, { acc := (f i k).1, prod := 0 })], flags := fun k => (f i k).2 } = e i) :
    Computes word fun _ i => e i :=
  computes_of_body hx fun _ i _ => ⟨rfl, fun _ _ => rfl, apart_acc _ _ _ _ _, rfl, he i⟩

/-- The high half of a word. -/
theorem toNat_extractLsb'_high (a : Word) : (a.extractLsb' 16 16).toNat = a.toNat / 2 ^ 16 := by
  rw [BitVec.extractLsb'_toNat, Nat.shiftRight_eq_div_pow]
  exact Nat.mod_eq_of_lt (by omega)

theorem high_mod (a : Word) : a.toNat / 2 ^ 16 % 2 ^ 16 = a.toNat / 2 ^ 16 := Nat.mod_eq_of_lt (by omega)

theorem computes_ladd {word : Instr} {m : Nat} {term : Word → FVal} {w : RM}
    (hx : ∀ s, exec word s = issueWord word.view (accWord w.d (ladd m w)) s) (h : ∀ a, laddTerm m a = term a) :
    Computes word fun _ i =>
      let r := fun k => (i.acc k w.d.toNat).acc.addVal (term (i.srcA w k))
      { acc := fun k => [(w.d.toNat, { acc := (r k).1, prod := 0 })], flags := fun k => (r k).2 } :=
  computes_accWord hx fun i => by simp only [ladd, h]

/-- Settles O19: every word maps accumulators to accumulators. -/
theorem accumulatorWords : Obligations.AccumulatorWords := by
  refine ⟨fun w => ?_, fun row hrow w => ?_, fun w => ?_, fun w => ?_, fun w => ?_, fun w => ?_, fun w => ?_⟩
  · exact computes_accWord (fun _ => rfl) fun _ => rfl
  · simp only [List.mem_cons, List.not_mem_nil, or_false] at hrow
    rcases hrow with rfl | rfl | rfl | rfl | rfl | rfl | rfl
    · exact computes_ladd (m := 0) (fun _ => rfl) fun _ => rfl
    · exact computes_ladd (m := 1) (fun _ => rfl) fun a => congrArg bf16.read (BitVec.toNat_setWidth 16 a).symm
    · exact computes_ladd (m := 2) (fun _ => rfl) fun a => congrArg bf16.read (toNat_extractLsb'_high a).symm
    · exact computes_ladd (m := 3) (fun _ => rfl) fun a => congrArg fp16.read (BitVec.toNat_setWidth 16 a).symm
    · exact computes_ladd (m := 4) (fun _ => rfl) fun a => congrArg fp16.read (toNat_extractLsb'_high a).symm
    · exact computes_ladd (m := 5) (fun _ => rfl) fun _ => rfl
    · exact computes_ladd (m := 6) (fun _ => rfl) fun _ => rfl
  · exact computes_accWord (fun _ => rfl) fun _ => rfl
  · exact computes_accWord (fun _ => rfl) fun i => by
      simp only [lfmab, pow_zero, Nat.div_one, high_mod]
  · exact computes_accWord (fun _ => rfl) fun _ => rfl
  · exact computes_accWord (fun _ => rfl) fun _ => rfl
  · exact computes_accWord (fun _ => rfl) fun _ => rfl

end Sys2Proof.Machine

/-! PROOFS. Loads, stores and atomics to global memory and to scratchpad (O21 to O25). -/

namespace Sys2Proof.Machine

open Sys2Proof

section
variable {s : State} {i : Issue} {word : Instr} {body : State → Issue → Done}

/-! ## Accesses of a word that pass their checks (R294, R295) -/

/-- What a word leaves EMPTY for its flights, each register and each accumulator named once. -/
theorem apart_pending (st : State) {pend : Nat → List (Nat × Nat)} {cells : Nat → List (Nat × AccCell)}
    (hPend : ∀ k, ((pend k).map (·.1)).Nodup) (hCells : ∀ k, ((cells k).map (·.1)).Nodup) :
    ({ nothing st with pend := pend, acc := cells } : Done).Apart i :=
  { thread := fun k _ => by simpa [nothing] using hPend k
    accs := hCells
    group := by cases i.v.u <;> simp [nothing, hPend] }

theorem apart_pend (st : State) {pend : Nat → List (Nat × Nat)} (h : ∀ k, ((pend k).map (·.1)).Nodup) :
    ({ nothing st with pend := pend } : Done).Apart i := apart_pending st h fun _ => List.nodup_nil

theorem apart_cells (st : State) {cells : Nat → List (Nat × AccCell)} (h : ∀ k, ((cells k).map (·.1)).Nodup) :
    ({ nothing st with acc := cells } : Done).Apart i := apart_pending st (fun _ => List.nodup_nil) h

/-- A word of which no thread traps ends as its outcome says. -/
theorem ends_untrapped (hx : ∀ s, exec word s = issueWith word.view anyLit asIs body s) (h : InHand word anyLit asIs s i) {d : Done}
    {f : Nat → Option (Nat × Word)} (hf : ∀ t, f t = none) (hb : body s i = { d with trap := f }) (hold : d.hold = none)
    (ha : d.Apart i) : Ends word asIs s i d.st d.effect :=
  ends_of hx h (by rw [hb, hold]) (fun k _ => by rw [hb]; exact hf k)
    (by rw [hb]; exact { thread := ha.thread, accs := ha.accs, group := ha.group }) (by rw [hb]) (by rw [hb]; rfl)

/-- A global access that passes ends as what follows it says. -/
theorem ends_globalWord {va : Nat → DWord} {size : Nat} {acc : AccessKind} {atom : AtomKind} {k : State → List Hit → Done} {d : Done}
    (hx : ∀ s, exec word s = issueWith word.view anyLit asIs body s) (h : InHand word anyLit asIs s i)
    (hp : Passes s i va size acc atom) (hb : body s i = globalWord i s va size acc atom k)
    (hk : k (s.translated atom (s.checks i va size acc atom)) (hitsOf (s.checks i va size acc atom)) = d) (hold : d.hold = none)
    (ha : d.Apart i) : Ends word asIs s i d.st d.effect := by
  obtain ⟨f, hf, hw⟩ := globalWord_passes hp k
  exact ends_untrapped hx h hf (hb.trans (hk ▸ hw)) hold ha

/-- A scratchpad access that passes ends as what follows it says. -/
theorem ends_spWord {va : Nat → Word} {size : Nat} {k : State → List SpHit → Done} {d : Done}
    (hx : ∀ s, exec word s = issueWith word.view anyLit asIs body s) (h : InHand word anyLit asIs s i)
    (hp : SpPasses s i va size) (hb : body s i = spWord i s va size k) (hk : k s (spHits s i va size) = d) (hold : d.hold = none)
    (ha : d.Apart i) : Ends word asIs s i d.st d.effect := by
  obtain ⟨f, hf, hw⟩ := spWord_passes hp k
  exact ends_untrapped hx h hf (hb.trans (hk ▸ hw)) hold ha

/-! ## Releases (R76) -/

/-- A release that need not wait does not hold a word back. -/
theorem MayRelease.not_held {st : State} {cls : ScopeClass} (h : MayRelease st i cls) :
    ¬ (!st.released i.t.cl (i.t.coreOf i.c.gid) i.c.uid i.c.gid cls) = true := by
  rw [MayRelease] at h
  simp [h]

/-- A word whose release need not wait, or that releases nothing, goes on. -/
theorem release_ite {st : State} {cls : ScopeClass} {p : Prop} [Decidable p] (hr : p → MayRelease st i cls) (a b : Done) :
    (if p ∧ (!st.released i.t.cl (i.t.coreOf i.c.gid) i.c.uid i.c.gid cls) = true then a else b) = b :=
  if_neg fun h => (hr h.1).not_held h.2

/-! ## Loads (R292, R299, R301) -/

theorem spAddr_fun (w : MEM) (size : Nat) :
    i.spAddr w size = fun k => i.rd k w.a.toNat + if w.l then i.lit else w.o.signExtend 32 * BitVec.ofNat 32 size :=
  funext (spAddr_eq w size)

theorem pendRegs_loads (h : Issuing s i) (st : State) (va : Nat → DWord) (size : Nat) (acc : AccessKind) (atom : AtomKind)
    (what : Nat → Nat → Access) (cls : ScopeClass) (acq : Bool) (d n k : Nat) :
    ((pendRegs (st.sendLoads i (hitsOf (s.checks i va size acc atom)) size what cls acq).2 i.v.u d n k).map (·.1)).Nodup :=
  pendRegs_nodup h _ (by rw [sendLoads_threads]; exact hits_runners va size acc atom) d n k

theorem pendRegs_writes (h : Issuing s i) (st : State) (va : Nat → DWord) (size : Nat) (acc : AccessKind) (atom : AtomKind)
    (what : Hit → Access) (cls : ScopeClass) (acq : Bool) (d n k : Nat) :
    ((pendRegs (st.sendWrites i (hitsOf (s.checks i va size acc atom)) size what cls acq).2 i.v.u d n k).map (·.1)).Nodup :=
  pendRegs_nodup h _ (by rw [sendWrites_threads]; exact hits_runners va size acc atom) d n k

theorem pendRegs_sp (h : Issuing s i) (va : Nat → Word) (size n : Nat) (what : Nat → SpHit → Access) (cls : ScopeClass)
    (acq : Bool) (d k : Nat) :
    ((pendRegs ((i.spFlights s (spHits s i va size) size what cls acq).map (·.2)) i.v.u d n k).map (·.1)).Nodup :=
  pendRegs_nodup h _ (by rw [spFlights_threads]; exact sp_runners va size) d n k

end

/-- Settles O21: what bypasses the store buffer is drained, then the loads are sent. -/
theorem globalLoads : Obligations.GlobalLoads := by
  intro w s i _
  refine ⟨?_, ?_⟩
  · intro va c st what fs r h hp hd
    have hb : ldgDone w s i = globalWord i s va (szBytes w.sz) .read .plain fun s hits =>
        loadWord i s hits (szBytes w.sz) what (memClass w i.t) (memOrd w == 1) fun r =>
          { nothing r.1 with pend := pendRegs r.2 i.v.u w.d.toNat (szRegs w.sz) } := rfl
    exact ⟨ends_globalWord (body := ldgDone w) (fun _ => rfl) h hp hb (loadWord_eq hd _) rfl
        (apart_pend _ (pendRegs_loads h.2.issuing _ _ _ _ _ _ _ _ _ _)), sendLoads_onTheirWay (translated_plain c)⟩
  · intro va c st hits fs r hz h hp hd
    exact ⟨ends_globalWord (body := lldDone w) (fun _ => rfl) h hp (if_pos hz) (loadWord_eq hd _) rfl
        (apart_cells _ fun k => pendAcc_nodup _ _ k), sendLoads_onTheirWay (translated_plain c)⟩

/-! ## Scratchpad words (R291, R292, R299 to R301) -/

section
variable {s : State} {i : Issue} {word : Instr} {body : State → Issue → Done}

/-- Stores to scratchpad whose release need not wait are sent. -/
theorem ends_spStoreWord {va : Nat → Word} {size : Nat} {cls : ScopeClass} {rel : Bool} {l : List SpHit → List (SpHit × List Byte)}
    (hx : ∀ s, exec word s = issueWith word.view anyLit asIs body s) (h : InHand word anyLit asIs s i)
    (hp : SpPasses s i va size) (hb : body s i = spWord i s va size fun s hits => spStoreWord i s cls rel (l hits))
    (hr : rel = true → MayRelease s i cls) :
    Ends word asIs s i (s.sendSp ((l (spHits s i va size)).mapIdx fun k x =>
      (x.1, i.spFlight s k x.1 x.2.length (.store x.2) cls false))) {} :=
  ends_spWord hx h hp hb (release_ite hr _ _) rfl (apart_nothing _ i)

end

/-- Settles O22: loads leave D EMPTY for their flights, stores send the bytes of D. -/
theorem scratchpadWords : Obligations.ScratchpadWords := by
  intro w s i
  refine ⟨?_, ?_, ?_⟩
  · intro va l h hp
    have hb : ldsDone w s i = spWord i s va (szBytes w.sz) fun s hits =>
        let l := i.spFlights s hits (szBytes w.sz) (fun _ _ => .load w.d.toNat w.sz.toNat) (memClass w i.t) (memOrd w == 1)
        { nothing (s.sendSp l) with pend := pendRegs (l.map (·.2)) i.v.u w.d.toNat (szRegs w.sz) } := by
      rw [ldsDone, spAddr_fun]
    exact ends_spWord (body := ldsDone w) (fun _ => rfl) h hp hb rfl rfl (apart_pend _ (pendRegs_sp h.2.issuing _ _ _ _ _ _ _))
  · intro va l h hp hr
    have hb : stsDone w s i = spWord i s va (szBytes w.sz) fun s hits => spStoreWord i s (memClass w i.t) (memOrd w == 2)
        (hits.map fun x => (x, i.storeBytes x.t w.d.toNat (szBytes w.sz))) := by
      rw [stsDone, spAddr_fun]
    have hEnds := ends_spStoreWord (body := stsDone w) (fun _ => rfl) h hp hb fun e => hr (beq_iff_eq.1 e)
    rwa [mapIdx_map] at hEnds
  · intro va parts l
    refine ⟨fun hz h hp => ?_, fun hz h hp hr => ?_⟩
    · have hNot : w.sz ≠ 0 := by rw [hz]; decide
      have hb : lldDone w s i = spWord i s va 128 fun s hits =>
          let l := i.spFlights s (hits.flatMap SpHit.parts) 16 (fun k _ => partLoad w.d.toNat s.nextId k) (memClass w i.t)
            (memOrd w == 1)
          { nothing (s.sendSp l) with acc := i.pendAcc (l.map (·.2)) w.d.toNat } := by
        rw [lldDone, spAddr_fun]
        exact if_neg hNot
      exact ends_spWord (body := lldDone w) (fun _ => rfl) h hp hb rfl rfl (apart_cells _ fun k => pendAcc_nodup _ _ k)
    · have hNot : w.sz ≠ 0 := by rw [hz]; decide
      have hb : lstDone w s i = spWord i s va 128 fun s hits => spStoreWord i s (memClass w i.t) (memOrd w == 2)
          (hits.flatMap fun x => imageParts x.parts (i.acc x.t w.d.toNat).acc.image) := by
        rw [lstDone, spAddr_fun]
        exact if_neg hNot
      exact ends_spStoreWord (body := lstDone w) (fun _ => rfl) h hp hb fun e => hr (beq_iff_eq.1 e)

/-! ## Stores to global memory (R291, R293, R300) -/

section
variable {s : State} {i : Issue} {word : Instr} {body : State → Issue → Done}

/-- Stores whose checks pass end their word. -/
theorem storesEnd_globalWord {va : Nat → DWord} {size : Nat} {cls : ScopeClass} {rel : Bool} {l : List Hit → List (Hit × List Byte)}
    (hx : ∀ s, exec word s = issueWith word.view anyLit asIs body s) (h : InHand word anyLit asIs s i)
    (hp : Passes s i va size .write .plain)
    (hb : body s i = globalWord i s va size .write .plain fun s hits => storeWord i s cls rel (l hits))
    (hr : rel = true → MayRelease (s.translated .plain (s.checks i va size .write .plain)) i cls) :
    StoresEnd word s i (s.translated .plain (s.checks i va size .write .plain)) cls
      (l (hitsOf (s.checks i va size .write .plain))) := by
  obtain ⟨f, hf, hw⟩ := globalWord_passes hp fun s hits => storeWord i s cls rel (l hits)
  exact stores_end hx h hf hr (hb.trans hw)

end

/-- Settles O23: STG and LST store the bytes of D, LRED sends a merge. -/
theorem globalStores : Obligations.GlobalStores := by
  intro w s i
  refine ⟨?_, ?_, ?_⟩
  · intro va c h hp hr
    have hb : stgDone w s i = globalWord i s va (szBytes w.sz) .write .plain fun s hits => storeWord i s (memClass w i.t)
        (memOrd w == 2) (hits.map fun x => (x, i.storeBytes x.t w.d.toNat (szBytes w.sz))) := rfl
    exact storesEnd_globalWord (body := stgDone w) (fun _ => rfl) h hp hb fun e => hr (beq_iff_eq.1 e)
  · intro va c hz h hp hr
    have hb : lstDone w s i = globalWord i s va 128 .write .plain fun s hits => storeWord i s (memClass w i.t)
        (memOrd w == 2) (hits.flatMap fun x => imageParts x.parts (i.acc x.t w.d.toNat).acc.image) := if_pos hz
    exact storesEnd_globalWord (body := lstDone w) (fun _ => rfl) h hp hb fun e => hr (beq_iff_eq.1 e)
  · intro va c st what fs h hp hr hd
    have hb : lredDone w s i = globalWord i s va 128 .write .dev fun s hits =>
        if memOrd w = 2 ∧ !s.released i.t.cl (i.t.coreOf i.c.gid) i.c.uid i.c.gid (memClass w i.t) then
          retry (s.beginRelease i.t.cl (i.t.coreOf i.c.gid) i.c.uid i.c.gid (memClass w i.t)) i
        else writeWord i s hits 128 what .device false fun r => nothing r.1 := rfl
    exact ends_globalWord (body := lredDone w) (fun _ => rfl) h hp hb ((release_ite hr _ _).trans (writeWord_eq hd _)) rfl
      (apart_nothing _ i)

/-! ## Atomics (R303 to R306) -/

/-- The registers that an atomic leaves EMPTY; none when it discards its result (R215). -/
def atPending (w : AT) (fl : List Flight) (u : Bool) : Nat → List (Nat × Nat) :=
  if w.d = 63 then fun _ => [] else pendRegs fl u w.d.toNat (if w.sz then 2 else 1)

theorem atPending_nodup {w : AT} {fl : List Flight} {u : Bool}
    (h : ∀ k, ((pendRegs fl u w.d.toNat (if w.sz then 2 else 1) k).map (·.1)).Nodup) (k : Nat) :
    ((atPending w fl u k).map (·.1)).Nodup := by
  rw [atPending]
  split
  · exact List.nodup_nil
  · exact h k

theorem atDest_discard {w : AT} (h : w.d = 63) : atDest w = none := if_pos h

theorem atDest_some {w : AT} (h : w.d ≠ 63) : atDest w = some w.d.toNat := if_neg h

/-- `atg` makes its accesses, and waits for them when it keeps their results. -/
theorem atgDone_eq (op : AtomOp) (o : AtomOrder) (w : AT) (s : State) (i : Issue) :
    atgDone op o w s i =
      globalWord i s (fun t => i.rd2 t w.a.toNat) (if w.sz then 8 else 4) .readWrite (o.kind op) fun s hits =>
        if o ≠ .relaxed ∧ !s.released i.t.cl (i.t.coreOf i.c.gid) i.c.uid i.c.gid o.cls then
          retry (s.beginRelease i.t.cl (i.t.coreOf i.c.gid) i.c.uid i.c.gid o.cls) i
        else
          writeWord i s hits (if w.sz then 8 else 4)
            (fun x => .atomic op (i.atomArgs op w x.t).1 (i.atomArgs op w x.t).2 (if w.d = 63 then none else some w.d.toNat)) o.cls
            (o != .relaxed) fun r => { nothing r.1 with pend := atPending w r.2 i.v.u } := by
  by_cases h : w.d = 63
  · simp only [atgDone, atPending, atDest_discard h, if_pos h]
  · simp only [atgDone, atPending, atDest_some h, if_neg h]

/-- `ats` makes its accesses, and waits for them when it keeps their results. -/
theorem atsDone_eq (op : AtomOp) (w : AT) (s : State) (i : Issue) :
    atsDone op w s i = spWord i s (fun t => i.rd t w.a.toNat) (if w.sz then 8 else 4) fun s hits =>
      let l := i.spFlights s hits (if w.sz then 8 else 4)
        (fun _ x => .atomic op (i.atomArgs op w x.t).1 (i.atomArgs op w x.t).2 (if w.d = 63 then none else some w.d.toNat)) .core false
      { nothing (s.sendSp l) with pend := atPending w (l.map (·.2)) i.v.u } := by
  by_cases h : w.d = 63
  · simp only [atsDone, atPending, atDest_discard h, if_pos h]
  · simp only [atsDone, atPending, atDest_some h, if_neg h]

section
variable {s : State} {i : Issue} {word : Instr} {op : AtomOp} {w : AT}

/-- A word of the mould `atg` whose accesses pass, and that nothing holds back, sends its atomics. -/
theorem ends_atg {o : AtomOrder} (hx : ∀ s, exec word s = issueWord word.view (atgDone op o w) s) :
    let size := if w.sz then 8 else 4
    let c := s.checks i (fun k => i.rd2 k w.a.toNat) size .readWrite (o.kind op)
    let st := s.translated (o.kind op) c
    let what := fun (x : Hit) =>
      Access.atomic op (i.atomArgs op w x.t).1 (i.atomArgs op w x.t).2 (if w.d = 63 then none else some w.d.toNat)
    let fs := i.writes st (hitsOf c) size what o.cls (o != .relaxed)
    let r := (st.drainFor i fs).sendWrites i (hitsOf c) size what o.cls (o != .relaxed)
    InHand word anyLit asIs s i → Passes s i (fun k => i.rd2 k w.a.toNat) size .readWrite (o.kind op) →
      (o ≠ .relaxed → MayRelease st i o.cls) → Drained st i fs → Ends word asIs s i r.1 { pend := atPending w r.2 i.v.u } := by
  intro size c st what fs r h hp hr hd
  exact ends_globalWord (body := atgDone op o w) hx h hp (atgDone_eq op o w s i) ((release_ite hr _ _).trans (writeWord_eq hd _)) rfl
    (apart_pend _ (atPending_nodup (pendRegs_writes h.2.issuing _ _ _ _ _ _ _ _ _ _)))

/-- A word of the mould `ats` whose addresses pass makes its atomics. -/
theorem ends_ats (hx : ∀ s, exec word s = issueWord word.view (atsDone op w) s) :
    let size := if w.sz then 8 else 4
    let l := i.spFlights s (spHits s i (fun k => i.rd k w.a.toNat) size) size
      (fun _ x => .atomic op (i.atomArgs op w x.t).1 (i.atomArgs op w x.t).2 (if w.d = 63 then none else some w.d.toNat)) .core false
    InHand word anyLit asIs s i → SpPasses s i (fun k => i.rd k w.a.toNat) size →
      Ends word asIs s i (s.sendSp l) { pend := atPending w (l.map (·.2)) i.v.u } := by
  intro size l h hp
  exact ends_spWord (body := atsDone op w) hx h hp (atsDone_eq op w s i) rfl rfl
    (apart_pend _ (atPending_nodup (pendRegs_sp h.2.issuing _ _ _ _ _ _ _)))

end

/-- Settles O24: each word of `atg` is of one mould, ACAS16 compares and swaps 16 bytes. -/
theorem globalAtomics : Obligations.GlobalAtomics := by
  refine ⟨fun row hrow w s i => ?_, fun w s i => ?_⟩
  · simp only [List.mem_cons, List.not_mem_nil, or_false] at hrow
    rcases hrow with rfl | rfl | rfl | rfl | rfl | rfl | rfl | rfl | rfl | rfl | rfl | rfl | rfl | rfl | rfl | rfl | rfl | rfl |
      rfl | rfl | rfl | rfl | rfl | rfl | rfl | rfl | rfl | rfl | rfl | rfl | rfl | rfl | rfl | rfl | rfl | rfl | rfl | rfl | rfl
    all_goals
      refine ends_atg ?_
      exact fun _ => rfl
  · intro c quad st what fs r h hp hr hd
    have hb : acas16Done w s i = globalWord i s (fun k => i.rd2 k w.a.toNat) 16 .readWrite (.sys true) fun s hits =>
        if !s.released i.t.cl (i.t.coreOf i.c.gid) i.c.uid i.c.gid .system then
          retry (s.beginRelease i.t.cl (i.t.coreOf i.c.gid) i.c.uid i.c.gid .system) i
        else writeWord i s hits 16 what .system true fun r =>
          { nothing r.1 with pend := pendRegs r.2 i.v.u w.d.toNat 4 } := rfl
    exact ends_globalWord (body := acas16Done w) (fun _ => rfl) h hp hb ((if_neg hr.not_held).trans (writeWord_eq hd _)) rfl
      (apart_pend _ (pendRegs_writes h.2.issuing _ _ _ _ _ _ _ _ _ _))

/-- Settles O25: each word of `ats` is of one mould. -/
theorem scratchAtomics : Obligations.ScratchAtomics := by
  intro row hrow w s i
  simp only [List.mem_cons, List.not_mem_nil, or_false] at hrow
  rcases hrow with rfl | rfl | rfl | rfl | rfl | rfl | rfl | rfl | rfl | rfl | rfl | rfl | rfl
  all_goals
    refine ends_ats ?_
    exact fun _ => rfl

end Sys2Proof.Machine

/-! PROOFS. Errors, retirement, the clock, temperature and registers of Window 0 (O53). -/

namespace Sys2Proof.Machine

open Sys2Proof

/-! ## Unit words (R438) -/

theorem unitClass_ofNat {c b : Nat} (hc : c < 2 ^ 4) (hb : b < 2 ^ 28) : unitClass (BitVec.ofNat 32 (c * 2 ^ 28 + b)) = c := by
  rw [unitClass, BitVec.extractLsb'_toNat, Nat.shiftRight_eq_div_pow, BitVec.toNat_ofNat]
  omega

theorem unitClass_lt (u : Word) : unitClass u < 2 ^ 4 := (u.extractLsb' 28 4).isLt

/-- A word, if any, has the class of the event and bits of its index. -/
def WordOfClass (u : Word) (o : Option Word) : Prop :=
  ∀ v, o = some v → ∃ n, v = BitVec.ofNat 32 (unitClass u * 2 ^ 28 + (u.extractLsb' 0 28).toNat % 2 ^ n)

theorem WordOfClass.none {u : Word} : WordOfClass u none := fun _ h => nomatch h

theorem WordOfClass.ite {u : Word} {p : Prop} [Decidable p] {a b : Option Word} (ha : WordOfClass u a) (hb : WordOfClass u b) :
    WordOfClass u (if p then a else b) := by
  split
  · exact ha
  · exact hb

theorem WordOfClass.bounded {u : Word} (n bound : Nat) :
    WordOfClass u (if (u.extractLsb' 0 28).toNat % 2 ^ n < bound then
      some (BitVec.ofNat 32 (unitClass u * 2 ^ 28 + (u.extractLsb' 0 28).toNat % 2 ^ n)) else Option.none) :=
  .ite (fun _ h => ⟨n, (Option.some.inj h).symm⟩) .none

theorem unitNamed_word (u : Word) : WordOfClass u (unitNamed u) :=
  .ite (.bounded 11 _) <| .ite (.bounded 3 _) <| .ite (.bounded 10 _) <| .ite (.bounded 9 _) <| .ite (.bounded 28 _) <|
    .ite (.ite (.bounded 11 _) .none) <| .ite (.bounded 4 _) <| .ite (.bounded 0 _) .none

/-- A named unit is of the class of the event. -/
theorem unitNamed_class {u v : Word} (h : unitNamed u = some v) : unitClass v = unitClass u := by
  obtain ⟨n, rfl⟩ := unitNamed_word u v h
  exact unitClass_ofNat (unitClass_lt u) ((Nat.mod_le _ _).trans_lt (u.extractLsb' 0 28).isLt)

/-- The unit of class 8 is the host link. -/
theorem unitNamed_host {u v : Word} (h : unitNamed u = some v) (h8 : unitClass v = 8) : v = unitHost := by
  have hu : unitClass u = 8 := (unitNamed_class h).symm.trans h8
  have hHost : some unitHost = some v := by
    rw [← h]
    simp [unitNamed, hu, Nat.mod_one, unitHost]
  exact (Option.some.inj hHost).symm

/-! ## Corrected events (R437, R440, R441) -/

section
variable {s : State} {u v : Word} {pa n : Nat}

theorem State.corrected_unnamed (h : unitNamed u = none) : s.corrected u pa = s := by
  simp only [State.corrected, h]

theorem State.uncorrectable_unnamed {loc : ErrorSite} (h : unitNamed u = none) : s.uncorrectable u loc = s := by
  simp only [State.uncorrectable, h]

theorem State.corrected_named (h : unitNamed u = some v) : s.corrected u pa =
    let times := s.now :: (s.unit v).times.filter (fun t => s.now < t + 86400000000000)
    let st := (s.noteUnit { s.unit v with times := times }).logError v 1 times.length pa
    let st := if unitClass v = 7 then st.mapPort (unitPort v) fun p =>
      { p with replays := min 65535 (p.replays + 1), crc := min 65535 (p.crc + 1) } else st
    if 3 ≤ times.length then st.markLasting v times.length pa else st := by
  simp only [State.corrected, h]
  rfl

theorem State.markLasting_marked (h : (s.unit u).lasting = true) : s.markLasting u n pa = s := if_pos h

theorem State.markLasting_new (h : (s.unit u).lasting = false) :
    s.markLasting u n pa = (s.noteUnit { s.unit u with lasting := true, out := true }).logError u 3 n pa :=
  if_neg (by simp [h])

/-- Only the pages of HBM4 are limited in number. -/
theorem State.noteUnit_noPage {x : UnitLog} (h : unitClass x.word ≠ 5) : s.noteUnit x = s.setUnit x :=
  if_neg fun hPage => h hPage.1

theorem State.logError_eq (s : State) (u : Word) (kind n pa : Nat) :
    let r := leBytes 8 s.now ++ leBytes 4 u.toNat ++ leBytes 1 kind ++ leBytes 1 (min n 255) ++ leBytes 2 0 ++ leBytes 8 pa ++ leBytes 8 0
    s.logError u kind n pa = { s with
      errlog := (s.errlog ++ [r]).drop (s.errlog.length + 1 - 1024), errpi := (s.errpi + 1) % 2 ^ 32,
      output := s.output ++ if kind = 2 ∨ kind = 3 then [.msix 0] else [] } := by
  by_cases h : kind = 2 ∨ kind = 3
  · simp only [State.logError, State.sendVector, if_pos h]
  · simp only [State.logError, if_neg h, List.append_nil]

/-! ## Uncorrectable events (R428, R437, R439) -/

theorem State.uncorrectable_named (h : unitNamed u = some v) (loc : ErrorSite) :
    s.uncorrectable u loc = (s.strike v loc).noteHard v (ErrorSite.address loc) := by
  simp only [State.uncorrectable, h]

theorem State.strike_dirty (h : pa / 64 ∉ s.poisoned) :
    s.strike v (.dirtySector pa) = { s with poisoned := (pa / 64) :: s.poisoned } := if_neg (by simpa using h)

theorem State.strike_poisoned (h : pa / 64 ∈ s.poisoned) : s.strike v (.dirtySector pa) = s := if_pos (by simpa using h)

/-! ## Links that are struck (R63, R428, R437) -/

variable {wave : Nat}

theorem State.strike_port (h : unitClass v = 7) : s.strike v (.link wave) = s.portDown (unitPort v) := if_pos h

theorem State.strike_link (h : unitClass v = 2 ∨ unitClass v = 8) : s.strike v (.link wave) = s.linkDown v := by
  have h7 : unitClass v ≠ 7 := by omega
  exact (if_neg h7).trans (if_pos h)

theorem State.strike_wave (h : unitClass v ∉ [2, 7, 8]) : s.strike v (.link wave) = s.loseWave v wave := by
  simp only [List.mem_cons, List.not_mem_nil, or_false, not_or] at h
  obtain ⟨h2, h7, h8⟩ := h
  exact (if_neg h7).trans (if_neg (not_or.2 ⟨h2, h8⟩))

/-- The network of a cluster goes DOWN, and the host link stays as it is. -/
theorem State.strike_network (h : unitClass v = 2) :
    s.strike v (.link wave) = { s with linksDown := v :: s.linksDown.filter (· != v) } := by
  have hNot : v ≠ unitHost := by
    rintro rfl
    exact absurd h (by decide)
  rw [State.strike_link (.inl h), State.linkDown, if_neg hNot]

/-- The host link goes DOWN, with what runs over it. -/
theorem State.strike_host (hName : unitNamed u = some v) (h : unitClass v = 8) : s.strike v (.link wave) =
    { s with linksDown := v :: s.linksDown.filter (· != v), linkCxl := false, linkCache := false } := by
  rw [State.strike_link (.inr h), State.linkDown, if_pos (unitNamed_host hName h)]

/-- A channel loses a wavelength that it has. -/
theorem State.strike_channel (h : unitClass v = 6) (hLt : wave < 8) (hNot : (v.toNat, wave) ∉ s.lostWaves) :
    s.strike v (.link wave) = { s with lostWaves := (v.toNat, wave) :: s.lostWaves } := by
  rw [State.strike_wave (by simp [h]), State.loseWave_channel h ((State.waveUp_channel h).2 ⟨hLt, hNot⟩)]

/-- No wavelength is up that a channel does not have or has lost, and no other unit but a port has any. -/
theorem State.waveUp_false (h : unitClass v = 6 → 8 ≤ wave ∨ (v.toNat, wave) ∈ s.lostWaves) (h7 : unitClass v ≠ 7) :
    s.waveUp v wave = false := by
  by_cases h6 : unitClass v = 6
  · rw [← Bool.not_eq_true, State.waveUp_channel h6]
    rintro ⟨hLt, hNot⟩
    exact (h h6).elim hLt.not_ge hNot
  · exact State.waveUp_other h6 h7

/-- Where there is no such wavelength, none is lost. -/
theorem State.strike_noWave (h : unitClass v = 6 → 8 ≤ wave ∨ (v.toNat, wave) ∈ s.lostWaves) (hOther : unitClass v ∉ [2, 7, 8]) :
    s.strike v (.link wave) = s := by
  have h7 : unitClass v ≠ 7 := fun h7 => hOther (by simp [h7])
  rw [State.strike_wave hOther]
  exact if_pos (by simp [State.waveUp_false h h7])

end

/-! ## READMIT, PCAP and the registers of Window 0 (R396, R427, R442, R445) -/

section
variable {s : State} {u v w : Word} {off : Nat}

theorem State.readmit_unnamed (h : unitNamed u = none) : s.readmit u = s := by
  simp only [State.readmit, h]

theorem State.readmit_named (h : unitNamed u = some v) :
    s.readmit u = { s with units := s.units.map fun x => if x.word = v then { x with times := [], lasting := false } else x } := by
  simp only [State.readmit, h]

theorem State.setCap_within {n : Nat} (h1 : 1000 ≤ n) (h2 : n ≤ 3200) : s.setCap n = { s with power := { s.power with pcap := n } } :=
  if_pos ⟨h1, h2⟩

theorem State.setCap_outside {n : Nat} (h : n < 1000 ∨ 3200 < n) : s.setCap n = s := if_neg (by omega)

theorem State.writePodcfg_free (hLock : s.podcfg.getLsbD 31 = false) (hOff : ∀ p ∈ s.ports, p.st = .off) :
    s.writePodcfg w = { s with podcfg := w &&& 0x800003FF } := by
  refine if_neg ?_
  rw [hLock]
  simpa using hOff

theorem State.writePodcfg_ignored (h : s.podcfg.getLsbD 31 = true ∨ ∃ p ∈ s.ports, p.st ≠ .off) : s.writePodcfg w = s :=
  if_pos (by simpa using h)

theorem State.registerWrite_key {m : Master} {x : DWord} (h : isKeyRegister off = true) :
    s.registerWrite m off x = s.withKey m fun s => s.keyWrite off (x.extractLsb' 0 32) := if_pos h

theorem State.registerWrite_arpex {x : DWord} (h : isKeyRegister off = false) : s.registerWrite .arpex off x = s := by
  simp [State.registerWrite, h]

theorem State.registerWrite_host {x : DWord} (h : isKeyRegister off = false) :
    s.registerWrite .host off x = if s.hostLink = true then s.hostRegister off x else s := by
  simp only [State.registerWrite, h, Bool.false_eq_true, ↓reduceIte, State.fromHost]

/-- DLDEF of a process slot (R399). -/
theorem State.hostRegister_dldef {p : Nat} (hp : p < 64) (x : DWord) :
    s.hostRegister (0x100130 + 4096 * p) x = s.mapSlot p fun sl => { sl with dldef := x.toNat } := by
  have hSlot : (0x100130 + 4096 * p - 0x100000) / 4096 = p := by omega
  have hOff : (0x100130 + 4096 * p) % 4096 = 0x130 := by omega
  have hIn : 0x100000 ≤ 0x100130 + 4096 * p ∧ 0x100130 + 4096 * p < 0x140000 := by omega
  have hNot8 : 0x100130 + 4096 * p ≠ 0x8 := by omega
  have hNotMsix : ¬ (0x10000 ≤ 0x100130 + 4096 * p ∧ 0x100130 + 4096 * p < 0x18000) := by omega
  simp only [State.hostRegister, if_neg hNot8, if_neg hNotMsix, if_pos hIn, hSlot, hOff]
  rfl

/-! ## The Arpex port (R435, R445) -/

theorem State.arpexCap_outside (hPow : s.boot.powered = true) (hKey : s.keyHolder = 2) (h : w.toNat < 1000 ∨ 3200 < w.toNat) :
    s.arpexCap w = s.arpexAnswer 3 [] := if_pos ⟨hPow, hKey, h⟩

theorem State.arpexCap_keyed (h : ¬ (s.keyHolder = 2 ∧ (w.toNat < 1000 ∨ 3200 < w.toNat))) :
    s.arpexCap w = s.arpexKeyed fun s => s.setCap w.toNat := if_neg fun hAll => h hAll.2

theorem State.arpexWrite_invalid (hPow : s.boot.powered = true) (hKey : s.keyHolder = 2) (h : isKeyRegister off = false) :
    s.arpexWrite off w = s.arpexAnswer 3 [] := if_pos ⟨hPow, hKey, by simp [h]⟩

theorem State.arpexWrite_keyed (h : ¬ (s.boot.powered = true ∧ s.keyHolder = 2 ∧ isKeyRegister off = false)) :
    s.arpexWrite off w = s.arpexKeyed fun s => s.keyWrite off w :=
  if_neg fun ⟨hPow, hKey, hReg⟩ => h ⟨hPow, hKey, by simpa using hReg⟩

/-! ## Monitors (R444) -/

/-- The offsets of the monitors with 16 bits (R444). -/
def isSensor (off : Nat) : Prop :=
  (0x3800000 ≤ off ∧ off < 0x3800440) ∨ (0x3801000 ≤ off ∧ off < 0x3801060) ∨ (0x3802000 ≤ off ∧ off < 0x3802020)

theorem monitorBits_sensor (h4 : off % 4 = 0) (h : isSensor off) : monitorBits off = 16 := by
  rw [monitorBits, if_neg (not_not.2 h4)]
  exact if_pos h

theorem monitorBits_none (h : off ≠ 0x3803000 ∧ (off % 4 ≠ 0 ∨ ¬ isSensor off)) : monitorBits off = 0 := by
  obtain ⟨hInlet, h⟩ := h
  by_cases h4 : off % 4 ≠ 0
  · exact if_pos h4
  · rw [monitorBits, if_neg h4]
    exact (if_neg (h.resolve_left h4)).trans (if_neg hInlet)

/-- The register of a monitor reads what the monitor reads, in its bits. -/
theorem State.register_monitor (hLow : 0x3800000 ≤ off) (hHigh : off ≤ 0x3803000) (h : monitorBits off ≠ 0) :
    s.register off = ((s.power.sensors.find? fun x => x.1 == off).map (·.2)).getD 0 % 2 ^ monitorBits off := by
  simp (disch := omega) only [State.register, if_neg, if_pos]

theorem State.register_sensor (h4 : off % 4 = 0) (h : isSensor off) :
    s.register off = ((s.power.sensors.find? fun x => x.1 == off).map (·.2)).getD 0 % 2 ^ 16 := by
  have hBits := monitorBits_sensor h4 h
  rw [isSensor] at h
  rw [State.register_monitor (by omega) (by omega) (by simp [hBits]), hBits]

theorem State.register_inlet :
    s.register 0x3803000 = ((s.power.sensors.find? fun x => x.1 == 0x3803000).map (·.2)).getD 0 % 2 ^ 32 :=
  State.register_monitor (by decide) (by decide) (by decide)

theorem State.register_clock : s.register 0x3803004 = s.power.clock + 65536 * s.power.reasons := by
  simp [State.register]

theorem State.sensorRead_some (hPow : s.boot.powered = true) (h : monitorBits off ≠ 0 ∨ off = 0x3803004) :
    s.sensorRead off = { s with output := s.output ++ [.reading (s.register off)] } :=
  if_neg (by simp [hPow]; omega)

theorem State.sensorRead_none (h : s.boot.powered = false ∨ monitorBits off = 0 ∧ off ≠ 0x3803004) : s.sensorRead off = s :=
  if_pos (by simpa using h)

/-! ## Clock and temperature (R445) -/

theorem State.setClock_eq (clock reasons : Nat) : s.setClock clock reasons = { s with
      power := { s.power with clock := clock, reasons := reasons },
      output := s.output ++ if reasons = s.power.reasons then [] else [.msix 2] } := by
  by_cases h : reasons = s.power.reasons
  · simp only [State.setClock, if_pos h, List.append_nil]
  · simp only [State.setClock, if_neg h, State.sendVector]

theorem reasonBit_decide (k : Nat) (p : Prop) [Decidable p] : reasonBit k (decide p) = if p then 2 ^ k else 0 := by
  simp only [reasonBit, decide_eq_true_eq]

theorem State.clockStep_eq (s : State) (cap fast : Nat) :
    let c := s.power.clock
    let watts := ((s.power.sensors.find? fun x => x.1 == 0x3803000).map (·.2)).getD 0
    let slow := if s.power.pcap < watts % 65536 then min cap (c - 25) else cap
    let quick := if 3520 < watts / 65536 then min fast (c - 25) else fast
    let heat := if s.power.hotNow then c - 25 else if s.power.throttled then c else 1700
    let want := min (min (min slow quick) heat) 1700 / 25 * 25
    let goal := max 425 want
    s.clockStep cap fast = s.setClock
      (if goal < c then c - 25 else if c < goal then c + 25 else c)
      ((if slow < 1700 then 1 else 0) + (if quick < 1700 then 2 else 0) + (if s.power.throttled then 4 else 0) +
        if want < 425 then 16 else 0) := by
  simp only [State.clockStep, reasonBit_decide]
  rfl

theorem State.throttle_hot (h : s.power.hotNow = true) : s.throttle =
    State.setClock { s with power := { s.power with throttled := true } } (max 425 (s.power.clock - 25))
      (s.power.reasons % 4 + 4 + s.power.reasons / 8 * 8) := if_neg (by simp [h])

theorem State.throttle_cool (h : s.power.hotNow = false) : s.throttle = s := if_pos (by simp [h])

/-- A die sensor trips the device when it has been at its limit for 1 ms. -/
theorem State.hot_due {k : Nat} :
    (s.power.hot.any fun x => x.1 == tempBase + 4 * k && decide (x.2 + 1000000 ≤ s.now)) = true ↔
      ∃ since, (0x3800000 + 4 * k, since) ∈ s.power.hot ∧ since + 1000000 ≤ s.now := by
  simp [tempBase]

theorem State.thermalTrip_none {k : Nat}
    (h : s.power.tripped = true ∨ ∀ since, (0x3800000 + 4 * k, since) ∈ s.power.hot → s.now < since + 1000000) :
    s.thermalTrip k = s := by
  refine if_pos (h.imp id fun hAll => ?_)
  rw [Bool.not_eq_true', ← Bool.not_eq_true, State.hot_due]
  rintro ⟨since, hMem, hDue⟩
  exact (hAll since hMem).not_ge hDue

theorem State.thermalTrip_trips {k since : Nat} (hTrip : s.power.tripped = false) (hMem : (0x3800000 + 4 * k, since) ∈ s.power.hot)
    (hDue : since + 1000000 ≤ s.now) : s.thermalTrip k =
      { s with power := { s.power with tripped := true },
               cores := s.cores.map fun c => if c.halted then c else { c with halting := true },
               output := s.output ++ [.msix 2] } := by
  refine if_neg ?_
  rw [hTrip, Bool.not_eq_true', ← Bool.not_eq_true, State.hot_due]
  rintro (hNo | hNo)
  · cases hNo
  · exact hNo ⟨since, hMem, hDue⟩

end

/-! ## The events and the registers, one by one -/

section
variable {s : State} {u v : Word}

/-- An uncorrectable event of a named unit has its effect, then is logged and marks the unit. -/
theorem exec_uncorrectable (h : unitNamed u = some v) {loc : ErrorSite} {st : State} (hs : s.strike v loc = st) :
    exec (.uncorrectableError u loc) s = .next (st.noteHard v (ErrorSite.address loc)) :=
  congrArg Host.Outcome.next (hs ▸ State.uncorrectable_named h loc)

end

/-- Settles O53: each event and each register by the lemma of its case. -/
theorem fleetEvents : Obligations.FleetEvents := by
  refine ⟨fun s u h => ⟨fun pa => ?_, fun loc => ?_⟩, fun s u v pa h => ?_, fun s u n pa => ⟨fun h => ?_, fun h => ?_⟩,
    fun s x h => ?_, fun s u kind n pa => ?_, fun s u v h => ?_, fun s m => ⟨fun hr hk => ?_, fun h => ?_⟩,
    fun s off w h => ⟨?_, fun hl => ?_, fun hl => ?_⟩, fun s w => ⟨fun h1 h2 => ?_, fun h => ?_, ?_, ?_, fun p hp => ?_⟩,
    fun s hPow => ⟨fun hKey => ?_, fun hKey => ?_, fun off => ?_⟩, fun s off => ⟨fun h => ?_, fun h => ?_⟩,
    fun s clock reasons => ?_, fun s cap fast => ?_, fun s => ⟨fun h => ?_, fun h => ?_⟩, fun s k => ⟨fun h => ?_, fun since h1 h2 h3 => ?_⟩⟩
  · exact congrArg Host.Outcome.next (State.corrected_unnamed h)
  · exact congrArg Host.Outcome.next (State.uncorrectable_unnamed h)
  · exact congrArg Host.Outcome.next (State.corrected_named h)
  · exact State.markLasting_marked h
  · exact State.markLasting_new h
  · exact State.noteUnit_noPage h
  · exact State.logError_eq s u kind n pa
  · intro noted
    refine ⟨fun uid => ?_, fun pa => ?_, fun pa hp => ?_, fun pa hp => ?_, fun wave h7 => ?_, fun wave h2 => ?_, fun wave h8 => ?_,
      fun wave h6 hLt hNot => ?_, fun wave h6 hOther => ?_⟩
    · exact exec_uncorrectable h (loc := .team uid) rfl
    · exact exec_uncorrectable h (loc := .cleanSector pa) rfl
    · exact exec_uncorrectable h (State.strike_dirty hp)
    · exact exec_uncorrectable h (State.strike_poisoned hp)
    · exact exec_uncorrectable h (loc := .link wave) (State.strike_port h7)
    · exact exec_uncorrectable h (State.strike_network h2)
    · exact exec_uncorrectable h (State.strike_host h h8)
    · exact exec_uncorrectable h (State.strike_channel h6 hLt hNot)
    · exact exec_uncorrectable h (State.strike_noWave h6 hOther)
  · have hDo : ∀ f : State → State, s.withKey m f = f s := fun f => State.withKey_holder hr hk
    refine ⟨fun u hu => ?_, fun u v hu => ?_, fun w h1 h2 => ?_, fun w hw => ?_, fun off w hReg => ?_,
      fun w hLock hOff => State.writePodcfg_free hLock hOff, fun w hw => State.writePodcfg_ignored hw⟩
    · exact congrArg Host.Outcome.next ((hDo _).trans (State.readmit_unnamed hu))
    · exact congrArg Host.Outcome.next ((hDo _).trans (State.readmit_named hu))
    · exact congrArg Host.Outcome.next ((hDo _).trans (State.setCap_within h1 h2))
    · exact congrArg Host.Outcome.next ((hDo _).trans (State.setCap_outside hw))
    · exact congrArg Host.Outcome.next ((State.registerWrite_key hReg).trans (hDo _))
  · have hSkip : ∀ f : State → State, s.withKey m f = s := fun f => State.withKey_ignored h
    exact ⟨fun u => congrArg Host.Outcome.next (hSkip _), fun w => congrArg Host.Outcome.next (hSkip _),
      fun off w hReg => congrArg Host.Outcome.next ((State.registerWrite_key hReg).trans (hSkip _))⟩
  · exact congrArg Host.Outcome.next (State.registerWrite_arpex h)
  · exact congrArg Host.Outcome.next ((State.registerWrite_host h).trans (if_neg (by simp [hl])))
  · exact congrArg Host.Outcome.next ((State.registerWrite_host h).trans (if_pos hl))
  · exact if_neg (by simp [h1, h2])
  · exact if_pos h
  · rfl
  · rfl
  · exact State.hostRegister_dldef hp w
  · have hDo : ∀ f : State → State, s.arpexKeyed f = (f s).arpexAnswer 0 [] :=
      fun f => (State.arpexKeyed_powered f hPow).trans (if_pos hKey)
    refine ⟨fun w h1 h2 => ?_, fun w hw => ?_, fun off w hReg => ?_, fun off w hReg => ?_⟩
    · refine congrArg Host.Outcome.next ((State.arpexCap_keyed (by omega)).trans ((hDo _).trans ?_))
      rw [State.setCap_within h1 h2]
      rfl
    · exact congrArg Host.Outcome.next (State.arpexCap_outside hPow hKey hw)
    · exact congrArg Host.Outcome.next (State.arpexWrite_invalid hPow hKey hReg)
    · exact congrArg Host.Outcome.next ((State.arpexWrite_keyed (by simp [hReg])).trans (hDo _))
  · have hNo : ∀ f : State → State, s.arpexKeyed f = s.arpexAnswer 2 [] :=
      fun f => (State.arpexKeyed_powered f hPow).trans (if_neg hKey)
    exact ⟨fun w => congrArg Host.Outcome.next ((State.arpexCap_keyed fun h => hKey h.1).trans (hNo _)),
      fun off w => congrArg Host.Outcome.next ((State.arpexWrite_keyed fun h => hKey h.2.1).trans (hNo _))⟩
  · refine ⟨fun h4 hSens => ⟨State.register_sensor h4 hSens, congrArg Host.Outcome.next ?_⟩, ?_, ?_⟩
    · rw [State.sensorRead_some hPow (.inl (by simp [monitorBits_sensor h4 hSens])), State.register_sensor h4 hSens]
    · rintro rfl
      refine ⟨State.register_inlet, congrArg Host.Outcome.next ?_⟩
      rw [State.sensorRead_some hPow (.inl (by decide)), State.register_inlet]
    · rintro rfl
      exact congrArg Host.Outcome.next ((State.sensorRead_some hPow (.inr rfl)).trans (by rw [State.register_clock]))
  · refine congrArg Host.Outcome.next (State.sensorRead_none (h.imp id fun ⟨hNot, hNone⟩ => ?_))
    simp only [List.mem_cons, List.not_mem_nil, or_false, not_or] at hNot
    exact ⟨monitorBits_none ⟨hNot.1, hNone⟩, hNot.2⟩
  · obtain ⟨-, hSkip, -⟩ := State.arpex_unpowered h
    exact fun w => ⟨congrArg Host.Outcome.next ((if_neg (by simp [h])).trans (hSkip _)),
      congrArg Host.Outcome.next ((if_neg (by simp [h])).trans (hSkip _))⟩
  · exact State.setClock_eq clock reasons
  · exact congrArg Host.Outcome.next (State.clockStep_eq s cap fast)
  · exact congrArg Host.Outcome.next (State.throttle_hot h)
  · exact congrArg Host.Outcome.next (State.throttle_cool h)
  · exact congrArg Host.Outcome.next (State.thermalTrip_none h)
  · exact congrArg Host.Outcome.next (State.thermalTrip_trips h1 h2 h3)

end Sys2Proof.Machine
